-- ==== Sys2Proof/Word.lean ====
section
/-! DEFINITION. The plain number types of the LS-48: bytes, time-base values and line levels. -/

namespace Sys2Proof

/-- One byte of a frame payload or of a service-port record (R2, R186). -/
abbrev Byte := BitVec 8

/-- A value of the time base: 32 bits, 0.1 ms units, wrapping modulo 2^32 (R19). -/
abbrev Time := BitVec 32

/-- A level of the lift line, also a logical bit: `true` is recessive, a logical 1; `false` is
dominant, a logical 0 (R1). -/
abbrev Level := Bool

/-- The lowest and highest lift the module works with (R6, R8). -/
def liftBound : Int := 240000

/-- The top of the screw's travel (R121). -/
def topTravel : Nat := 240000

end Sys2Proof
end

