-- ==== Sys2Proof/Syntax.lean ====
section
/-! DEFINITION. The commands of the LS-48: one constructor of `Instr` for each row of
spec/opcode_table.json, with the operands that the outside world supplies with the event. -/

namespace Sys2Proof

/-! ### Named values (R6) -/

/-- Station modes, in the order of their codes (R6, R165). -/
inductive Mode where
  | rollcall | barred | unstaged | moving | settled | idle | hold | halted
  deriving DecidableEq, Repr

/-- Pawl states, in the order of their codes (R6, R141). -/
inductive PawlState where
  | set | withdrawing | withdrawn | setting | stuck
  deriving DecidableEq, Repr

/-- Flight and direction values, in the order of their codes (R6). -/
inductive Direction where
  | none | raise | lower
  deriving DecidableEq, Repr

/-- Wait reasons, in the order of their codes (R6). -/
inductive WaitReason where
  | none | peers | pawl | dwell | lead | spacing
  deriving DecidableEq, Repr

/-- A stage index: 0 is the contact stage, `k` a plan stage, or SETDOWN (R74). -/
inductive StageIx where
  | stage (k : Nat)
  | setdown
  deriving DecidableEq, Repr

/-- Stroke kinds, in the order of their codes (R6). -/
inductive StrokeKind where
  | full | chop | tail | nudge | contact
  deriving DecidableEq, Repr

/-- Order kinds, in the order of their codes (R6). -/
inductive OrderKind where
  | advance | retreat | stop | resume
  deriving DecidableEq, Repr

/-- ROLL sender modes, in the order of their codes (R6). -/
inductive RollMode where
  | rollcall | frozen | barred
  deriving DecidableEq, Repr

/-- The sixteen fault kinds, in the order of their codes (R6, R180). -/
inductive FaultKind where
  | emergency | overload | encoder | stall | drift | pawlStuck | line | loadShare | peerSilent
  | travelLimit | duplicate | memberCount | configMismatch | retainedLost | stranger | planMismatch
  deriving DecidableEq, Repr

/-! ### Operands -/

/-- A frame as it completes on the line, less its kind: the precedence and station number of its
key, and payload bytes (R2, R4). -/
structure RxFrame where
  prec    : BitVec 8
  station : BitVec 6
  payload : List Byte
  deriving DecidableEq, Repr

/-- A whole frame: kind, precedence and station number of the key, and the payload (R2, R4). -/
structure WireFrame where
  kind    : BitVec 3
  prec    : BitVec 8
  station : BitVec 6
  payload : List Byte
  deriving DecidableEq, Repr

/-- The four strap fields as the jumpers give them (R22). -/
structure Straps where
  number : Fin 64
  car    : Fin 16
  feeder : Fin 8
  share  : Fin 16
  deriving DecidableEq, Repr

/-- The filtered levels of the eight pendant inputs (R184): pressed, on or closed is `true`. -/
structure PendantLevels where
  up              : Bool
  down            : Bool
  stop            : Bool
  resume          : Bool
  jogUp           : Bool
  jogDown         : Bool
  key             : Bool
  emergencyClosed : Bool
  deriving DecidableEq, Repr

/-- What the module finds at its connectors at a start: straps (R22), encoder position (R124), pawl
switches (R141), pendant levels (R184) and the first load conversion (R153). -/
structure StartInputs where
  straps          : Straps
  encoder         : Int
  setClosed       : Bool
  withdrawnClosed : Bool
  pendant         : PendantLevels
  load            : Fin 4096
  deriving DecidableEq, Repr

/-- The two pawl switches (R142). -/
inductive PawlSwitch where
  | set | withdrawn
  deriving DecidableEq, Repr

/-- The pendant buttons that give orders (R185). -/
inductive OrderButton where
  | up | down | stop | resume
  deriving DecidableEq, Repr

/-- Names one stored stamp (R20): those of R28, R46, R107, R121, R165, R180 and R191. -/
inductive StampRef where
  | candidate (number : Nat)
  | lastHeard (number : Nat)
  | lastClaim (number : Nat)
  | line
  | feeder
  | strokeEnd
  | wait
  | refusedOrder
  | stopRecord
  | firstRecord (kind : FaultKind)
  deriving DecidableEq, Repr

/-! ### The commands -/

/-- One constructor per row of spec/opcode_table.json. -/
inductive Instr where
  /-- START (R29): power-up or assertion of the reset input, with what the connectors show. -/
  | start (i : StartInputs)
  /-- LINE_IDLE_START_BIT (R12): the line has become idle and a start bit begins; `peerStarts` says
  whether another station sends a start bit in it. -/
  | lineIdleStartBit (peerStarts : Bool)
  /-- LOST_ARBITRATION (R13): the station's own frame loses arbitration at the key. -/
  | lostArbitration
  /-- WON_ARBITRATION (R14): the station's own frame wins arbitration at the end of the key. -/
  | wonArbitration
  /-- BIT_ERROR (R13): a bit error on the station's own frame. -/
  | bitError
  /-- LINE_BUSY_LIMIT_EXPIRY (R15). -/
  | lineBusyLimitExpiry
  /-- BAD_FRAME (R16): the levels read from a start bit to the end of a frame that ends in error or
  fails its CRC. -/
  | badFrame (levels : List Level)
  /-- ROLL_FRAME (R31): a ROLL completes. -/
  | rollFrame (f : RxFrame)
  /-- POSE_FRAME (R50): a POSE completes. -/
  | poseFrame (f : RxFrame)
  /-- CLAIM_FRAME (R108): a CLAIM from another station completes. -/
  | claimFrame (f : RxFrame)
  /-- CLAIM_TAKEN (R118): the station's own CLAIM completes. -/
  | claimTaken
  /-- ADVANCE (R169): an ORDER whose byte 0 is 0 completes; the payload operand holds the bytes
  after byte 0. -/
  | advance (f : RxFrame)
  /-- RETREAT (R169): as `advance`, byte 0 is 1. -/
  | retreat (f : RxFrame)
  /-- STOP (R170): as `advance`, byte 0 is 2. -/
  | stop (f : RxFrame)
  /-- RESUME (R171): as `advance`, byte 0 is 3. -/
  | resume (f : RxFrame)
  /-- HALT_FRAME (R178): a HALT completes. -/
  | haltFrame (f : RxFrame)
  /-- LOAD (R67): a PLAN completes whose byte 0 holds op 0 above the six bits `low`; the payload
  operand holds the bytes after byte 0. -/
  | load (low : BitVec 6) (f : RxFrame)
  /-- CLEAR (R68): as `load`, op 1. -/
  | clear (low : BitVec 6) (f : RxFrame)
  /-- ADOPT (R69): as `load`, op 2. -/
  | adopt (low : BitVec 6) (f : RxFrame)
  /-- POSE_PERIOD_EXPIRY (R12). -/
  | posePeriodExpiry
  /-- ROLL_QUIET_EXPIRY (R32). -/
  | rollQuietExpiry
  /-- ROLL_LIMIT_EXPIRY (R33). -/
  | rollLimitExpiry
  /-- ROLL_PACING_EXPIRY (R38). -/
  | rollPacingExpiry
  /-- SILENCE_EXPIRY (R55): the silence compare of the row of one station number. -/
  | silenceExpiry (number : Nat)
  /-- SPACING_INSTANT_EXPIRY (R110). -/
  | spacingInstantExpiry
  /-- STROKE_TIME_LIMIT_EXPIRY (R135). -/
  | strokeTimeLimitExpiry
  /-- REVERSAL_DWELL_EXPIRY (R96). -/
  | reversalDwellExpiry
  /-- PAWL_TIME_LIMIT_EXPIRY (R146). -/
  | pawlTimeLimitExpiry
  /-- COUNT_EVENT (R124): one encoder count, up or down. -/
  | countEvent (up : Bool)
  /-- ENCODER_ERROR (R124): an assertion of the encoder error line. -/
  | encoderError
  /-- LOAD_READING (R154): one conversion result. -/
  | loadReading (value : Fin 4096)
  /-- SWITCH_EVENT (R145): a filtered change of one pawl switch to closed or open. -/
  | switchEvent (sw : PawlSwitch) (closed : Bool)
  /-- ORDER_BUTTON_PRESS (R185): a filtered change of UP, DOWN, STOP or RESUME; `pressed` is true at
  a press and false at a release. -/
  | orderButtonPress (b : OrderButton) (pressed : Bool)
  /-- JOG_UP_PRESS (R137). -/
  | jogUpPress
  /-- JOG_DOWN_PRESS (R137). -/
  | jogDownPress
  /-- JOG_UP_RELEASE (R138). -/
  | jogUpRelease
  /-- JOG_DOWN_RELEASE (R139). -/
  | jogDownRelease
  /-- KEY_SWITCH (R184): the key switch is turned on or off. -/
  | keySwitch (on : Bool)
  /-- EMERGENCY_OPEN (R179). -/
  | emergencyOpen
  /-- EMERGENCY_CLOSE (R179). -/
  | emergencyClose
  /-- WRITE_COMPLETION (R43). -/
  | writeCompletion
  /-- STAMP_EXPIRED (R20): the time base marks one stored stamp. -/
  | stampExpired (ref : StampRef)
  /-- WAITING_LONG (R191). -/
  | waitingLong
  /-- STATUS (R189): bytes of a STATUS request record arrive at the service port. -/
  | status (bytes : List Byte)
  /-- PEER (R188): bytes of a PEER request record arrive. -/
  | peer (bytes : List Byte)
  /-- READ_FAULTS (R183): bytes of a READ FAULTS request record arrive. -/
  | readFaults (bytes : List Byte)
  /-- ACK (R183): bytes of an ACK request record arrive. -/
  | ack (bytes : List Byte)
  /-- PLAN_READ (R188): bytes of a PLAN READ request record arrive. -/
  | planRead (bytes : List Byte)
  /-- PLAN_LOAD (R190): bytes of a PLAN LOAD request record arrive. -/
  | planLoad (bytes : List Byte)
  /-- PLAN_CLEAR (R190): bytes of a PLAN CLEAR request record arrive. -/
  | planClear (bytes : List Byte)
  /-- PLAN_ADOPT (R190): bytes of a PLAN ADOPT request record arrive. -/
  | planAdopt (bytes : List Byte)
  /-- SETTINGS_READ (R27): bytes of a SETTINGS READ request record arrive. -/
  | settingsRead (bytes : List Byte)
  /-- SETTING_WRITE (R27): bytes of a SETTING WRITE request record arrive. -/
  | settingWrite (bytes : List Byte)
  /-- SERVICE_BYTE_GAP (R187): 10 ms pass between two bytes of a record. -/
  | serviceByteGap
  /-- REPLY_SENT (R187): the reply being sent is out. -/
  | replySent
  /-- MALFORMED_FRAME (R16): a complete frame that passes the CRC check and is malformed. -/
  | malformedFrame (w : WireFrame)
  deriving DecidableEq, Repr

end Sys2Proof
end

