-- ==== Sys2Proof/Config.lean ====
section
/-! DEFINITION. The configuration record's parameter table, the values in force as a record with one
field per symbol, the module's fixed intervals, and the values the manual leaves open. -/

namespace Sys2Proof

/-- One row of the parameter table: range and default (R23). -/
structure ParamRow where
  low  : Nat
  high : Nat
  dflt : Nat
  deriving DecidableEq, Repr

/-- The twenty parameters in table order (R23). -/
def paramTable : List ParamRow :=
  [⟨2, 48, 16⟩, ⟨20, 2000, 200⟩, ⟨20, 8000, 800⟩, ⟨20, 400, 100⟩, ⟨1, 50, 4⟩,
   ⟨10, 200, 30⟩, ⟨200, 5000, 2000⟩, ⟨10, 2000, 150⟩, ⟨0, 2000, 20⟩, ⟨100, 1000, 200⟩,
   ⟨3, 20, 4⟩, ⟨200, 20000, 2000⟩, ⟨100, 3000, 600⟩, ⟨0, 5000, 500⟩, ⟨5, 500, 20⟩,
   ⟨100, 4000, 1200⟩, ⟨1, 15, 4⟩, ⟨0, 60000, 400⟩, ⟨200, 5000, 1000⟩, ⟨2000, 60000, 20000⟩]

/-- The twenty values in force, by symbol, in table order (R23). -/
structure Settings where
  /-- M, expected members. -/
  m : Nat
  /-- CL, car lead. -/
  cl : Nat
  /-- SL, set lead. -/
  sl : Nat
  /-- L, full stroke. -/
  l : Nat
  /-- A, arrival window. -/
  a : Nat
  /-- N, nudge. -/
  n : Nat
  /-- D, release depth. -/
  d : Nat
  /-- G_L, feeder gap, ms. -/
  gl : Nat
  /-- G_S, line gap, ms. -/
  gs : Nat
  /-- P, pose period, ms. -/
  p : Nat
  /-- S, silence limit, pose periods. -/
  s : Nat
  /-- T_st, stroke time limit, ms. -/
  tst : Nat
  /-- T_pw, pawl time limit, ms. -/
  tpw : Nat
  /-- T_rev, reversal dwell, ms. -/
  trev : Nat
  /-- W_c, contact load. -/
  wc : Nat
  /-- W_r, rated load. -/
  wr : Nat
  /-- B, share band, sixteenths. -/
  b : Nat
  /-- W_min, share activation total. -/
  wmin : Nat
  /-- R_q, roll quiet interval, ms. -/
  rq : Nat
  /-- R_max, roll limit, ms. -/
  rmax : Nat
  deriving DecidableEq, Repr

/-- A stored copy of a parameter: the number settings memory holds, and whether its own check passes
(R24). A parameter never written, or whose copy is spoilt, has `ok` false. -/
structure StoredParam where
  value : Nat
  ok    : Bool
  deriving DecidableEq, Repr

/-- The parameter table's row for a 0-based place. -/
def paramRow (i : Nat) : ParamRow := paramTable.getD i ⟨0, 0, 0⟩

/-- The settings of a module with every parameter at its default; no clamp of R24 or R25 changes
them (R26, worked figure). -/
def defaultSettings : Settings :=
  ⟨16, 200, 800, 100, 4, 30, 2000, 150, 20, 200, 4, 2000, 600, 500, 20, 1200, 4, 400, 1000, 20000⟩

/-- The stored copies of a module whose memory holds the defaults, each with a good check. -/
def defaultStored : Vector StoredParam 20 :=
  ⟨(paramTable.map fun r => StoredParam.mk r.dflt true).toArray, rfl⟩

/-! ### Intervals fixed by the rules, in time-base units of 0.1 ms -/

/-- The line-busy limit, 10 ms (R15). -/
def busyLimitUnits : Nat := 100
/-- The ROLL pacing interval, 250 ms (R29, R38). -/
def pacingUnits : Nat := 2500
/-- The age past which a stamp is marked expired, 10 s (R20). -/
def expiryUnits : Nat := 100000
/-- The wait after which the amber lamp is lit, 2 s (R191). -/
def longWaitUnits : Nat := 20000
/-- Half a flash of a lamp, 250 ms (R191). -/
def flashUnits : Nat := 2500
/-- A whole flash of a lamp, 250 ms on and 250 ms off (R191). -/
def flashPeriod : Nat := 5000
/-- The gap between two bytes that breaks a service record off, 10 ms (R187). -/
def byteGapUnits : Nat := 100

/-! ### Values the manual leaves open -/

/-- Free value: whether the contact report reaches the stroke engine before the entry to HALTED when
one load reading passes both the contact test and the OVERLOAD test. R159 gives both outcomes and
no choice between them. The argument counts the readings at which the question arose. -/
opaque Config.contactBeforeHalt : Nat → Bool

/-- Free value: which half of a lamp's 500 ms flash is the lit one. R191 gives the two halves and
times them from the time base; it does not say which comes first. -/
opaque Config.flashLitFirst : Bool

/-- Free value: which of the two a READ FAULTS reply sends where an ENCODER record holds the lift (R181) and the travel
(R124). R188 gives the reply one of them, with a marker saying which, and does not say which. -/
opaque Config.encoderReplyLift : Bool

end Sys2Proof
end

