-- ==== Sys2Proof/Machine/State.lean ====
section
/-! DEFINITION. The state of one LS-48 module, block by block as the manual's block overview names
them, and the state right after a start. -/

namespace Sys2Proof.Machine

/-! ### Time base (R19 to R21) -/

/-- A stored stamp with its expired mark (R20). -/
structure Stamp where
  value   : Time
  expired : Bool
  deriving DecidableEq, Repr

/-- A stamp not written since start reads as expired (R20). -/
def Stamp.unwritten : Stamp := ⟨0, true⟩

/-- A compare: its target while armed, `none` while disarmed (R21). -/
abbrev Compare := Option Time

/-! ### Line controller (R11 to R16) -/

/-- The CLAIM slot with its phase (R14). In CONTENDING the flag says that a withdrawal request is
held until the key ends. -/
inductive ClaimSlot where
  | empty
  | waiting (f : WireFrame)
  | contending (f : WireFrame) (withdrawHeld : Bool)
  | committed (f : WireFrame)
  deriving DecidableEq, Repr

/-- The line controller: transmit slots and queues, the frame it has on the line, its compares and
its counters (R11 to R16). -/
structure Line where
  /-- The station regards the line as idle (R1). -/
  idle : Bool
  /-- The station's own frame now on the line, from its start bit (R12, R13). -/
  attempt : Option WireFrame
  haltSlot : Option WireFrame
  claim : ClaimSlot
  orderQueue : List WireFrame
  posePending : Bool
  /-- A POSE was asked for while one is being transmitted (R12). -/
  poseAgain : Bool
  planQueue : List WireFrame
  rollPending : Bool
  /-- A ROLL was asked for while one is being transmitted (R12). -/
  rollAgain : Bool
  posePeriod : Compare
  busyLimit : Compare
  /-- Consecutive transmit failures, 0 to 16 (R15). -/
  failures : Nat
  badFrames : Nat
  discarded : Nat
  deriving DecidableEq, Repr

/-! ### Plan entries and retained content (R40, R66) -/

/-- A plan entry (R66). -/
structure PlanEntry where
  target  : Nat
  carLead : Option Nat
  setLead : Option Nat
  deriving DecidableEq, Repr

/-- The part of the stage record that the retained record keeps while staged (R40). -/
structure RetStage where
  contactZero : Nat
  stage       : StageIx
  deriving DecidableEq, Repr

/-- The content of a retained record, less its marker (R40). Staged is `some`. -/
structure RetContent where
  staged : Option RetStage
  dir    : Direction
  plan   : List PlanEntry
  deriving DecidableEq, Repr

/-! ### Roll-call unit (R28, R38) -/

/-- One candidate (R28). The retained summary is `some` when the sender reports staged. -/
structure Candidate where
  number   : Nat
  serial   : BitVec 32
  car      : Nat
  feeder   : Nat
  share    : Nat
  mode     : RollMode
  summary  : Option (StageIx × Nat)
  lastRoll : Stamp
  deriving DecidableEq, Repr

/-- The roll-call unit. Candidates stand in rising order of number; the set has no order of its
own (R28). -/
structure Roll where
  candidates : List Candidate
  /-- The member numbers, kept from freeze (R45). -/
  members : List Nat
  answerOwed : Bool
  quiet : Compare
  limit : Compare
  pacing : Compare
  deriving DecidableEq, Repr

/-! ### Settings memory (R23 to R27, R40 to R43) -/

/-- The configuration record: stored copies (kept through a start), values in force, and what a
start derives from them. -/
structure SettingsMem where
  stored   : Vector StoredParam 20
  inForce  : Settings
  /-- The chop length C (R25). -/
  chop     : Nat
  /-- The config tag (R26). -/
  tag      : Nat
  adjusted : Bool
  deriving DecidableEq, Repr

/-- The retained record in memory (kept through a start), the retained content and the write in
flight (R40 to R43). Write state IDLE is `writing = none`; WRITING carries the content the write
began with. -/
structure Retained where
  marker       : Bool
  record       : RetContent
  content      : RetContent
  writing      : Option RetContent
  rewriteOwed  : Bool
  /-- The record read at the last start counted as valid (R36, R42). -/
  validAtStart : Bool
  deriving DecidableEq, Repr

/-! ### Peer table (R45, R46) -/

/-- Liveness of a row (R46). -/
inductive Liveness where
  | live | lost
  deriving DecidableEq, Repr

/-- The fields of a row that are fixed at freeze (R46). -/
structure RowFixed where
  number : Nat
  car    : Nat
  feeder : Nat
  share  : Nat
  serial : BitVec 32
  deriving DecidableEq, Repr

/-- The reported fields of a row (R46). -/
structure Report where
  mode         : Mode
  lift         : Option Int
  flight       : Direction
  committedEnd : Option Int
  load         : Nat
  pawl         : PawlState
  stage        : Option StageIx
  dir          : Direction
  planTag      : Nat
  faults       : BitVec 16
  rejoined     : Bool
  deriving DecidableEq, Repr

/-- The fields of a row that the table keeps itself, with the row's silence compare (R46, R54). -/
structure RowMarks where
  live      : Liveness
  lastHeard : Stamp
  lastClaim : Stamp
  silence   : Compare
  deriving DecidableEq, Repr

/-- A whole row. -/
structure Row where
  fixed  : RowFixed
  report : Report
  marks  : RowMarks
  deriving DecidableEq, Repr

/-- The peer table: the peers' rows in rising order of number, and the fixed fields and marks of the
self row, whose reported fields are the station's own state (R48). -/
structure PeerTable where
  selfFixed : RowFixed
  selfMarks : RowMarks
  peers     : List Row
  deriving DecidableEq, Repr

/-! ### Plan store (R67, R71) -/

/-- The staging bank (its fill index j is the list's length), the overrun flag, the active bank (n is
the list's length) and the plan tag. -/
structure PlanStore where
  staging : List PlanEntry
  overrun : Bool
  active  : List PlanEntry
  tag     : Nat
  deriving DecidableEq, Repr

/-! ### Stage control (R73) -/

/-- The stage record of a staged station; the lift is travel minus contact zero (R75). -/
structure StagedRec where
  contactZero   : Nat
  stage         : StageIx
  target        : Int
  effTarget     : Int
  limitReported : Bool
  deriving DecidableEq, Repr

/-- Not staged; staged content read at start and held in ROLLCALL without a lift or targets; or
staged (R73). -/
inductive StageState where
  | unstaged
  | restored (r : RetStage)
  | staged (r : StagedRec)
  deriving DecidableEq, Repr

/-- Stage control, with its wait for the pawl before a lowering arrival is handed over (R82). -/
structure StageCtl where
  record      : StageState
  dir         : Direction
  awaitingSet : Bool
  deriving DecidableEq, Repr

/-! ### Ceiling unit and spacing unit (R85, R98, R107) -/

/-- A stroke as offered, claimed and recorded (R98, R111, R121). `stop` is the end, absent for
CONTACT. -/
structure Stroke where
  kind   : StrokeKind
  dir    : Direction
  start  : Int
  stop   : Option Int
  final  : Bool
  stage  : StageIx
  length : Nat
  deriving DecidableEq, Repr

/-- The ceiling unit's outcome; the offer is present exactly in OFFER (R85). -/
inductive CeilOutcome where
  | idle
  | arrived
  | offer (o : Stroke)
  | wait
  deriving DecidableEq, Repr

/-- The ceiling unit (R85). -/
structure Ceiling where
  outcome  : CeilOutcome
  reason   : WaitReason
  nudgeDue : Bool
  release  : Bool
  deriving DecidableEq, Repr

/-- The spacing unit (R107), with the latest admission report for a queued claim (R115). -/
structure Spacing where
  lineStamp   : Stamp
  feederStamp : Stamp
  instant     : Compare
  offer       : Option Stroke
  withdrawals : Nat
  held        : Bool
  admitted    : Bool
  deriving DecidableEq, Repr

/-! ### Stroke engine (R121) -/

/-- The stroke state with the stroke record and the remaining count it carries (R121). -/
inductive StrokeState where
  | rest
  | claiming (r : Stroke)
  | running (r : Stroke) (remaining : Nat)
  deriving DecidableEq, Repr

/-- Jog states (R121). -/
inductive JogState where
  | none | up | downWait | down
  deriving DecidableEq, Repr

/-- Source select (R121). -/
inductive Source where
  | stroke | jog
  deriving DecidableEq, Repr

/-- Drive command (R121, R123). -/
inductive Drive where
  | runUp | runDown | off
  deriving DecidableEq, Repr

/-- The stroke engine (R121). -/
structure Engine where
  stroke  : StrokeState
  limit   : Compare
  travel  : Nat
  restRef : Nat
  lastDir : Direction
  lastEnd : Stamp
  dwell   : Compare
  jog     : JogState
  source  : Source
  drive   : Drive
  deriving DecidableEq, Repr

/-! ### Pawl controller (R141) -/

/-- The commanded state (R141); the actuator output follows it (R142). -/
inductive PawlCommand where
  | set | withdrawn
  deriving DecidableEq, Repr

/-- The pawl controller (R141). -/
structure Pawl where
  state           : PawlState
  commanded       : PawlCommand
  pendingWithdraw : Bool
  limit           : Compare
  setClosed       : Bool
  withdrawnClosed : Bool
  deriving DecidableEq, Repr

/-! ### Load monitor (R153 to R162) -/

/-- Share states (R160). -/
inductive ShareState where
  | inactive | inBand | over | under
  deriving DecidableEq, Repr

/-- The load monitor. -/
structure LoadMon where
  present   : Nat
  overRange : Bool
  above     : Bool
  watch     : Bool
  share     : ShareState
  /-- W, U and n of the latest share evaluation (R162). -/
  totalW : Nat
  totalU : Nat
  totalN : Nat
  deriving DecidableEq, Repr

/-! ### Mode control (R165) -/

/-- The kinds that a refusal record can name (R165); RESUME, ADVANCE and RETREAT orders and ADOPT. -/
inductive RefusedKind where
  | advance | retreat | resume | adopt
  deriving DecidableEq, Repr

/-- Refusal reasons, in the order of R168. -/
inductive Reason where
  | mode | lastStage | notAllUnstaged | notAllLive | planDisagree | ownFault | conditionActive
  | pawl | stagingEmpty | stagingOverrun
  deriving DecidableEq, Repr

/-- The last refused order record (R165). -/
structure RefusedOrder where
  kind       : RefusedKind
  reason     : Reason
  originator : Nat
  stamp      : Stamp
  deriving DecidableEq, Repr

/-- Origins of a stop, in the order of R165. -/
inductive StopOrigin where
  | stopOrder | fault | haltFrame | contagion
  deriving DecidableEq, Repr

/-- The last stop record (R165). `entered` is HOLD or HALTED. -/
structure StopRecord where
  entered : Mode
  origin  : StopOrigin
  kind    : Option FaultKind
  station : Option Nat
  stamp   : Stamp
  deriving DecidableEq, Repr

/-- Mode control (R165). -/
structure ModeCtl where
  mode        : Mode
  rejoined    : Bool
  lastRefused : Option RefusedOrder
  lastStop    : Option StopRecord
  deriving DecidableEq, Repr

/-! ### Fault record (R180) -/

/-- Where the column stood at a first occurrence, marked as which it is (R181). The record of an ENCODER occurrence in a
staged station holds both: the lift, as R181 gives it for every kind, and the travel, as R124 gives it for ENCODER
(assumption 35). -/
inductive Place where
  | lift (h : Int)
  | travel (x : Int)
  | liftAndTravel (h x : Int)
  deriving DecidableEq, Repr

/-- A first-occurrence record (R181). -/
structure FirstRecord where
  stamp : Stamp
  place : Place
  peer  : Option Nat
  deriving DecidableEq, Repr

/-- The fault record of one kind (R180). -/
structure FaultRec where
  latched  : Bool
  active   : Bool
  count    : Nat
  first    : Option FirstRecord
  snapshot : Nat
  deriving DecidableEq, Repr

/-- The fault record of a kind after start (R180). -/
def FaultRec.clear : FaultRec := ⟨false, false, 0, none, 0⟩

/-! ### Pendant, service port and lamps (R184 to R191) -/

/-- The pendant port (R184, R185). -/
structure Pendant where
  levels   : PendantLevels
  discards : Nat
  deriving DecidableEq, Repr

/-- A request that the service port has accepted: its kind and payload (R187). -/
structure Request where
  kind    : Nat
  payload : List Byte
  deriving DecidableEq, Repr

/-- The service port (R187). `collecting` is `none` while hunting, and otherwise the bytes taken since
the start byte. `gap` is the target of the 10 ms that may pass until the next byte of the record, `none` while
hunting. `sending` is the reply record being sent; `waiting` the one request that waits. -/
structure Service where
  collecting : Option (List Byte)
  gap        : Compare
  sending    : Option (List Byte)
  waiting    : Option Request
  deriving DecidableEq, Repr

/-- Lamp indications (R191). -/
inductive Indication where
  | redSteady | redFlashing | greenAmberAlternating | amberSteady | greenFlashing
  | greenFlashingAmberSteady | greenSteady | amberFlashing
  deriving DecidableEq, Repr

/-- The lamp unit (R191): the wait stamp, the mark that the wait has lasted 2 s, the indication shown, and how far
the flash has run, 0 to 4999 units, which goes on across the wrap of the time base. -/
structure Lamps where
  waitStamp   : Stamp
  waitingLong : Bool
  shown       : Indication
  flash       : Nat
  deriving DecidableEq, Repr

/-! ### The state -/

/-- The whole module, with the queue of commands that wait. -/
structure State where
  /-- Commands waiting, first in first out. -/
  pending   : List Instr
  timeBase  : Time
  /-- The module's factory number (R7). -/
  serial    : BitVec 32
  /-- The straps as read at start; a share weight of 0 is held as 1 (R22). -/
  straps    : Straps
  line      : Line
  roll      : Roll
  settings  : SettingsMem
  retained  : Retained
  table     : Option PeerTable
  plan      : PlanStore
  stage     : StageCtl
  ceiling   : Ceiling
  spacing   : Spacing
  engine    : Engine
  pawl      : Pawl
  loadMon   : LoadMon
  modeCtl   : ModeCtl
  faults    : Vector FaultRec 16
  pendant   : Pendant
  service   : Service
  lamps     : Lamps
  /-- The model's own: an update notice (R58, R87) is outstanding inside a command. -/
  notice    : Bool
  /-- The model's own: readings so far at which R159's open order arose. -/
  openOrders : Nat
  deriving DecidableEq, Repr

/-! ### Outcomes -/

/-- No command of this block ends in a fault: the type has no constructor. Whatever the manual reports
as a fault is state (the fault record), and whatever it leaves open is a free value. -/
inductive Fault where
  deriving DecidableEq, Repr

/-- Why a command is turned away before it has a meaning. -/
inductive Refusal where
  /-- Raised only by an arm of `exec` whose command has no meaning yet. Safe: the machine stops. -/
  | notModelled (mnemonic : String)
  deriving DecidableEq, Repr

/-! ### Right after a start -/

/-- The straps of `State.reset`: station 0, car group 0, feeder group 0, share weight 1. -/
def resetStraps : Straps := ⟨0, 0, 0, 1⟩

/-- A pendant with no button pressed, the key off and the emergency contact closed. -/
def resetPendant : PendantLevels := ⟨false, false, false, false, false, false, false, true⟩

/-- The retained content of a record that is not staged, with direction none and an empty plan (R42). -/
def RetContent.blank : RetContent := ⟨none, .none, []⟩

/-- The state right after a start of a module at default settings that has never been staged, found
with its screw at travel 0, its pawl SET, no load, and a quiet pendant: ROLLCALL with the roll window
just opened (R29). What a start reads from outside (straps, settings memory, encoder, switches,
pendant, load) is chosen in assumption 1; that no reply is being sent and no request waits, which R187 leaves open,
in assumption 38; the phase of the flash in assumption 11. -/
def State.reset : State where
  pending := []
  timeBase := 0
  serial := 0
  straps := resetStraps
  line :=
    { idle := false, attempt := none, haltSlot := none, claim := .empty, orderQueue := [],
      posePending := false, poseAgain := false, planQueue := [], rollPending := true,
      rollAgain := false, posePeriod := none, busyLimit := some 100, failures := 0,
      badFrames := 0, discarded := 0 }
  roll :=
    { candidates := [⟨0, 0, 0, 0, 1, .rollcall, none, Stamp.unwritten⟩], members := [],
      answerOwed := false, quiet := some 10000, limit := some 200000, pacing := some 2500 }
  settings :=
    { stored := defaultStored, inForce := defaultSettings, chop := 50, tag := 46656,
      adjusted := false }
  retained :=
    { marker := false, record := RetContent.blank, content := RetContent.blank, writing := none,
      rewriteOwed := false, validAtStart := false }
  table := none
  plan := ⟨[], false, [], 0⟩
  stage := ⟨.unstaged, .none, false⟩
  ceiling := ⟨.idle, .none, false, false⟩
  spacing := ⟨Stamp.unwritten, Stamp.unwritten, none, none, 0, false, false⟩
  engine := ⟨.rest, none, 0, 0, .none, Stamp.unwritten, none, .none, .stroke, .off⟩
  pawl := ⟨.set, .set, false, none, true, false⟩
  loadMon := ⟨0, false, false, false, .inactive, 0, 0, 0⟩
  modeCtl := ⟨.rollcall, false, none, none⟩
  faults := Vector.replicate 16 FaultRec.clear
  pendant := ⟨resetPendant, 0⟩
  service := ⟨none, none, none, none⟩
  lamps := ⟨Stamp.unwritten, false, .greenAmberAlternating, 0⟩
  notice := false
  openOrders := 0

end Sys2Proof.Machine
end

