-- ==== Sys2Proof/Machine/Wire.lean ====
section
/-! DEFINITION. The lift line's frames bit by bit: byte order, key, CRC, stuffing, and how a receiver
reads the levels of a frame (R1 to R6). -/

namespace Sys2Proof.Machine

/-! ### Numbers as bytes, most significant byte first (R6, R186) -/

/-- A number below 2^16 in two bytes. -/
def be16 (n : Nat) : List Byte := [BitVec.ofNat 8 (n / 256), BitVec.ofNat 8 n]

/-- A number below 2^24 in three bytes. -/
def be24 (n : Nat) : List Byte :=
  [BitVec.ofNat 8 (n / 65536), BitVec.ofNat 8 (n / 256), BitVec.ofNat 8 n]

/-- A number below 2^32 in four bytes. -/
def be32 (n : Nat) : List Byte :=
  [BitVec.ofNat 8 (n / 16777216), BitVec.ofNat 8 (n / 65536), BitVec.ofNat 8 (n / 256),
   BitVec.ofNat 8 n]

/-- A 24-bit two's-complement number in three bytes (R6). -/
def beInt24 (i : Int) : List Byte := be24 (BitVec.ofInt 24 i).toNat

/-- The number that bytes spell, most significant first. -/
def beNat (bs : List Byte) : Nat := bs.foldl (fun acc b => acc * 256 + b.toNat) 0

/-- The number that three bytes spell as 24-bit two's complement (R6). -/
def beToInt24 (bs : List Byte) : Int := (BitVec.ofNat 24 (beNat bs)).toInt

/-! ### Bits in the order they are sent (R2) -/

/-- The low `n` bits of `v`, most significant first. -/
def bitsOf (n v : Nat) : List Level := (List.range n).reverse.map fun i => v.testBit i

/-- The number that bits spell, most significant first. -/
def natOfBits (bs : List Level) : Nat := bs.foldl (fun acc b => 2 * acc + b.toNat) 0

/-- The key's numeric value (R4). -/
def keyValue (w : WireFrame) : Nat :=
  w.kind.toNat * 16384 + w.prec.toNat * 64 + w.station.toNat

/-- The key, length and payload bits of a frame, in the order they are sent (R2). -/
def bodyBits (w : WireFrame) : List Level :=
  bitsOf 17 (keyValue w) ++ bitsOf 4 w.payload.length ++ w.payload.flatMap fun b => bitsOf 8 b.toNat

/-- One data bit into the CRC register (R3): compare with the top bit, shift toward the top with a 0
entering, and invert bits 12, 5 and 0 if the compared bits differed. -/
def crcStep (reg : BitVec 16) (b : Level) : BitVec 16 :=
  if reg.getLsbD 15 != b then (reg <<< 1) ^^^ 0x1021#16 else reg <<< 1

/-- The CRC over bits, from a register of all ones, with no final inversion (R3). -/
def crcOf (bits : List Level) : BitVec 16 := bits.foldl crcStep 0xFFFF#16

/-- The bits from the start bit through the last CRC bit, before stuffing (R2). -/
def frameBits (w : WireFrame) : List Level :=
  false :: (bodyBits w ++ bitsOf 16 (crcOf (bodyBits w)).toNat)

/-- Bit stuffing (R2): after five consecutive bits of one level a bit of the opposite level, which
counts as the first of the next run. `last` and `run` describe the run so far. -/
def stuff (last : Level) (run : Nat) : List Level → List Level
  | [] => []
  | b :: bs =>
    let run' := if b = last then run + 1 else 1
    if run' = 5 then b :: (!b) :: stuff (!b) 1 bs else b :: stuff b run' bs

/-- The seven recessive delimiter bits (R2). -/
def delimiter : List Level := List.replicate 7 true

/-- The levels a sender puts on the line for a frame: the stuffed part and the delimiter (R2). -/
def frameLevels (w : WireFrame) : List Level := stuff true 0 (frameBits w) ++ delimiter

/-! ### Reading a frame (R2, R3, R16) -/

/-- Takes `n` unstuffed bits from the levels read. `none` is a stuff error, or levels that end too
early. The result gives the bits, the run at their end, and the levels that follow. -/
def destuff : Nat → Level → Nat → List Level → Option (List Level × (Level × Nat) × List Level)
  | 0, last, run, ls => some ([], (last, run), ls)
  | _ + 1, _, _, [] => none
  | n + 1, last, run, b :: ls =>
    let run' := if b = last then run + 1 else 1
    if run' = 5 then
      match ls with
      | [] => none
      | c :: ls' =>
        if c = b then none
        else (destuff n c 1 ls').map fun r => (b :: r.1, r.2)
    else (destuff n b run' ls).map fun r => (b :: r.1, r.2)

/-- How a receiver finds a frame at its end (R2, R16). -/
inductive Reading where
  | inError
  | crcFailure
  | complete (w : WireFrame)
  deriving DecidableEq, Repr

/-- The payload bytes that `n` groups of eight bits spell. -/
def bytesOfBits : Nat → List Level → List Byte
  | 0, _ => []
  | n + 1, bs => BitVec.ofNat 8 (natOfBits (bs.take 8)) :: bytesOfBits n (bs.drop 8)

/-- The frame that 21 key and length bits and the payload bits spell. -/
def frameOfBits (head payload : List Level) (len : Nat) : WireFrame :=
  { kind := BitVec.ofNat 3 (natOfBits (head.take 3))
    prec := BitVec.ofNat 8 (natOfBits ((head.drop 3).take 8))
    station := BitVec.ofNat 6 (natOfBits ((head.drop 11).take 6))
    payload := bytesOfBits len payload }

/-- What a receiver makes of the levels from a start bit on (R2, R3): it removes stuff bits, wants a dominant start bit,
reads the length to know where the payload ends, checks the delimiter, and compares the CRC. Levels after the
delimiter are not the frame's. -/
def readLevels (ls : List Level) : Reading :=
  match destuff 22 true 0 ls with
  | none => .inError
  | some (front, (last, run), ls') =>
    if front.take 1 ≠ [false] then .inError else
    let head := front.drop 1
    let len := natOfBits (head.drop 17)
    match destuff (8 * len + 16) last run ls' with
    | none => .inError
    | some (tail, _, ls'') =>
      if ls''.take 7 = delimiter then
        let payload := tail.take (8 * len)
        if natOfBits (tail.drop (8 * len)) = (crcOf (head ++ payload)).toNat then
          .complete (frameOfBits head payload len)
        else .crcFailure
      else .inError

/-! ### Frame kinds (R5) -/

/-- Kind codes (R5). -/
def kindHalt : BitVec 3 := 0
def kindClaim : BitVec 3 := 1
def kindOrder : BitVec 3 := 2
def kindPose : BitVec 3 := 3
def kindPlan : BitVec 3 := 4
def kindRoll : BitVec 3 := 5

/-- A received frame with its kind. -/
def wire (kind : BitVec 3) (f : RxFrame) : WireFrame := ⟨kind, f.prec, f.station, f.payload⟩

/-- An ORDER frame: order-kind byte, then the bytes of the operand (R10). -/
def wireOrder (code : Byte) (f : RxFrame) : WireFrame :=
  ⟨kindOrder, f.prec, f.station, code :: f.payload⟩

/-- A PLAN frame: byte 0 is the op over the six low bits, then the bytes of the operand (R10). -/
def wirePlan (op : BitVec 2) (low : BitVec 6) (f : RxFrame) : WireFrame :=
  ⟨kindPlan, f.prec, f.station, (op ++ low) :: f.payload⟩

end Sys2Proof.Machine
end

