-- ==== Sys2Proof/Machine/Operands.lean ====
section
/-! DEFINITION. What frame payloads say: the codes of named values (R6), the payload layouts as built
and as read (R7 to R10), and which frames are malformed (R16). -/

namespace Sys2Proof.Machine

/-! ### Codes of named values (R6) -/

def modeCode : Mode → Nat
  | .rollcall => 0 | .barred => 1 | .unstaged => 2 | .moving => 3
  | .settled => 4 | .idle => 5 | .hold => 6 | .halted => 7

def modeOfCode : Nat → Option Mode
  | 0 => some .rollcall | 1 => some .barred | 2 => some .unstaged | 3 => some .moving
  | 4 => some .settled | 5 => some .idle | 6 => some .hold | 7 => some .halted
  | _ => none

def pawlCode : PawlState → Nat
  | .set => 0 | .withdrawing => 1 | .withdrawn => 2 | .setting => 3 | .stuck => 4

def pawlOfCode : Nat → Option PawlState
  | 0 => some .set | 1 => some .withdrawing | 2 => some .withdrawn | 3 => some .setting
  | 4 => some .stuck | _ => none

def dirCode : Direction → Nat
  | .none => 0 | .raise => 1 | .lower => 2

def dirOfCode : Nat → Option Direction
  | 0 => some .none | 1 => some .raise | 2 => some .lower | _ => none

def reasonCode : WaitReason → Nat
  | .none => 0 | .peers => 1 | .pawl => 2 | .dwell => 3 | .lead => 4 | .spacing => 5

def reasonOfCode : Nat → Option WaitReason
  | 0 => some .none | 1 => some .peers | 2 => some .pawl | 3 => some .dwell
  | 4 => some .lead | 5 => some .spacing | _ => none

def stageCode : StageIx → Nat
  | .stage k => k
  | .setdown => 31

def stageOfCode (c : Nat) : Option StageIx :=
  if c ≤ 16 then some (.stage c) else if c = 31 then some .setdown else none

def strokeCode : StrokeKind → Nat
  | .full => 0 | .chop => 1 | .tail => 2 | .nudge => 3 | .contact => 4

def strokeOfCode : Nat → Option StrokeKind
  | 0 => some .full | 1 => some .chop | 2 => some .tail | 3 => some .nudge
  | 4 => some .contact | _ => none

def orderCode : OrderKind → Nat
  | .advance => 0 | .retreat => 1 | .stop => 2 | .resume => 3

def orderOfCode : Nat → Option OrderKind
  | 0 => some .advance | 1 => some .retreat | 2 => some .stop | 3 => some .resume | _ => none

def rollModeCode : RollMode → Nat
  | .rollcall => 0 | .frozen => 1 | .barred => 2

def rollModeOfCode : Nat → Option RollMode
  | 0 => some .rollcall | 1 => some .frozen | 2 => some .barred | _ => none

/-- Fault-kind codes, also the bit numbers of every fault set (R6). -/
def faultCode : FaultKind → Fin 16
  | .emergency => 0 | .overload => 1 | .encoder => 2 | .stall => 3 | .drift => 4
  | .pawlStuck => 5 | .line => 6 | .loadShare => 7 | .peerSilent => 8 | .travelLimit => 9
  | .duplicate => 10 | .memberCount => 11 | .configMismatch => 12 | .retainedLost => 13
  | .stranger => 14 | .planMismatch => 15

/-- The sixteen kinds in the order of their codes. -/
def allKinds : List FaultKind :=
  [.emergency, .overload, .encoder, .stall, .drift, .pawlStuck, .line, .loadShare, .peerSilent,
   .travelLimit, .duplicate, .memberCount, .configMismatch, .retainedLost, .stranger, .planMismatch]

/-! ### What each kind of frame says -/

/-- A ROLL's content (R7). -/
structure RollMsg where
  serial  : BitVec 32
  car     : Nat
  feeder  : Nat
  share   : Nat
  mode    : RollMode
  tag     : Nat
  summary : Option (StageIx × Nat)
  deriving DecidableEq, Repr

/-- A POSE's content (R8). -/
structure PoseMsg where
  mode         : Mode
  pawl         : PawlState
  flight       : Direction
  rejoined     : Bool
  dir          : Direction
  reason       : WaitReason
  stage        : Option StageIx
  load         : Nat
  planTag      : Nat
  faults       : BitVec 16
  lift         : Option Int
  committedEnd : Option Int
  deriving DecidableEq, Repr

/-- A CLAIM's content (R9). -/
structure ClaimMsg where
  kind  : StrokeKind
  dir   : Direction
  final : Bool
  stage : StageIx
  start : Int
  stop  : Option Int
  deriving DecidableEq, Repr

/-- A plan operation (R10). -/
inductive PlanOp where
  | load (target : Nat) (carLead setLead : Option Nat)
  | clear
  | adopt
  deriving DecidableEq, Repr

/-- The content of a frame that passes the checks of R16. -/
inductive Content where
  | roll (m : RollMsg)
  | pose (m : PoseMsg)
  | claim (m : ClaimMsg)
  | order (k : OrderKind)
  | halt (cause : FaultKind)
  | plan (op : PlanOp)
  deriving DecidableEq, Repr

/-! ### Building payloads (R7 to R10) -/

/-- A ROLL payload (R7). -/
def rollPayload (m : RollMsg) : List Byte :=
  be32 m.serial.toNat
    ++ [BitVec.ofNat 8 (m.car * 16 + m.feeder), BitVec.ofNat 8 (m.share * 16 + rollModeCode m.mode)]
    ++ be16 m.tag
    ++ match m.summary with
       | none => [0]
       | some (k, tag) => BitVec.ofNat 8 (128 + stageCode k) :: be16 tag

/-- A POSE payload (R8). -/
def posePayload (m : PoseMsg) : List Byte :=
  [BitVec.ofNat 8 (modeCode m.mode * 32 + pawlCode m.pawl * 4 + dirCode m.flight),
   BitVec.ofNat 8 (m.lift.isSome.toNat * 128 + m.stage.isSome.toNat * 64 + m.rejoined.toNat * 32
     + dirCode m.dir * 8 + reasonCode m.reason),
   BitVec.ofNat 8 (match m.stage with | none => 0 | some k => stageCode k)]
    ++ be16 m.load ++ be16 m.planTag ++ be16 m.faults.toNat
    ++ match m.lift with
       | none => []
       | some h =>
         beInt24 h ++ match m.committedEnd with
           | none => []
           | some e => beInt24 e

/-- A CLAIM payload (R9). -/
def claimPayload (m : ClaimMsg) : List Byte :=
  [BitVec.ofNat 8 (strokeCode m.kind * 32 + dirCode m.dir * 8 + m.final.toNat * 4),
   BitVec.ofNat 8 (stageCode m.stage)]
    ++ beInt24 m.start ++ match m.stop with
       | none => []
       | some e => beInt24 e

/-- A lead of a PLAN LOAD, left out when absent (R10). -/
def leadBytes : Option Nat → List Byte
  | none => []
  | some v => be16 v

/-- A PLAN payload (R10). -/
def planPayload : PlanOp → List Byte
  | .load target carLead setLead =>
    BitVec.ofNat 8 (carLead.isSome.toNat * 2 + setLead.isSome.toNat)
      :: (be24 target ++ leadBytes carLead ++ leadBytes setLead)
  | .clear => [64]
  | .adopt => [128]

/-- The payload of a content (R7 to R10). -/
def payloadOf : Content → List Byte
  | .roll m => rollPayload m
  | .pose m => posePayload m
  | .claim m => claimPayload m
  | .order k => [BitVec.ofNat 8 (orderCode k)]
  | .halt k => [BitVec.ofNat 8 (faultCode k).val]
  | .plan op => planPayload op

/-- The kind code of a content (R5). -/
def kindOf : Content → BitVec 3
  | .roll _ => kindRoll
  | .pose _ => kindPose
  | .claim _ => kindClaim
  | .order _ => kindOrder
  | .halt _ => kindHalt
  | .plan _ => kindPlan

/-! ### Reading payloads (R7 to R10, R16): `none` is a malformed frame -/

/-- Bits `lo + n - 1` to `lo` of a byte. -/
def field (b : Byte) (lo n : Nat) : Nat := b.toNat / 2 ^ lo % 2 ^ n

/-- Whether a lift or committed end lies in its range (R8, R9). -/
def liftInRange (h : Int) : Bool := -liftBound ≤ h && h ≤ liftBound

/-- Reads a ROLL payload (R7). The stage index carries meaning only when the staged flag is 1, but a code that is
not listed makes the frame malformed either way (R6). -/
def readRoll : List Byte → Option RollMsg
  | s0 :: s1 :: s2 :: s3 :: g :: w :: t0 :: t1 :: c :: rest =>
    match rollModeOfCode (field w 0 2), stageOfCode (field c 0 5) with
    | some mode, some k =>
      if field w 4 4 = 0 then none else
      let m : RollMsg :=
        { serial := BitVec.ofNat 32 (beNat [s0, s1, s2, s3]), car := field g 4 4,
          feeder := field g 0 3, share := field w 4 4, mode := mode, tag := beNat [t0, t1],
          summary := none }
      if field c 7 1 = 0 then
        match rest with
        | [] => some m
        | _ => none
      else
        match rest with
        | [p0, p1] => some { m with summary := some (k, beNat [p0, p1]) }
        | _ => none
    | _, _ => none
  | _ => none

/-- Reads the optional lift and committed end of a POSE (R8): `flying` says that flight is not none. -/
def readLifts (present flying : Bool) (rest : List Byte) : Option (Option Int × Option Int) :=
  match present, flying, rest with
  | false, _, [] => some (none, none)
  | true, false, [a, b, c] =>
    let h := beToInt24 [a, b, c]
    if liftInRange h then some (some h, none) else none
  | true, true, [a, b, c, d, e, f] =>
    let h := beToInt24 [a, b, c]
    let z := beToInt24 [d, e, f]
    if liftInRange h && liftInRange z then some (some h, some z) else none
  | _, _, _ => none

/-- Reads the optional stage of a POSE (R8). Without the presence bit a listed code says nothing, and a code that is
not listed makes the frame malformed all the same (R6). -/
def readStage (present : Bool) (b : Byte) : Option (Option StageIx) :=
  (stageOfCode (field b 0 5)).map fun k => if present then some k else none

/-- Reads a POSE payload (R8). -/
def readPose : List Byte → Option PoseMsg
  | b0 :: b1 :: b2 :: l0 :: l1 :: t0 :: t1 :: f0 :: f1 :: rest =>
    match modeOfCode (field b0 5 3), pawlOfCode (field b0 2 3), dirOfCode (field b0 0 2),
      dirOfCode (field b1 3 2), reasonOfCode (field b1 0 3), readStage (field b1 6 1 == 1) b2 with
    | some mode, some pawl, some flight, some dir, some reason, some stage =>
      match readLifts (field b1 7 1 == 1) (flight != .none) rest with
      | none => none
      | some (lift, stop) =>
        some { mode := mode, pawl := pawl, flight := flight, rejoined := field b1 5 1 == 1,
               dir := dir, reason := reason, stage := stage, load := beNat [l0, l1] % 4096,
               planTag := beNat [t0, t1], faults := BitVec.ofNat 16 (beNat [f0, f1]),
               lift := lift, committedEnd := stop }
    | _, _, _, _, _, _ => none
  | _ => none

/-- Whether a CLAIM's direction fits its kind (R9). -/
def claimDirOk (k : StrokeKind) (d : Direction) : Bool :=
  match k, d with
  | _, .none => false
  | .contact, .lower => false
  | .nudge, .lower => false
  | _, _ => true

/-- Reads a CLAIM payload (R9). -/
def readClaim : List Byte → Option ClaimMsg
  | b0 :: b1 :: a :: b :: c :: rest =>
    match strokeOfCode (field b0 5 3), dirOfCode (field b0 3 2), stageOfCode (field b1 0 5) with
    | some kind, some dir, some stage =>
      let start := beToInt24 [a, b, c]
      let m : ClaimMsg :=
        { kind := kind, dir := dir, final := field b0 2 1 == 1, stage := stage, start := start,
          stop := none }
      if claimDirOk kind dir then
        if kind = .contact then
          match rest with
          | [] => if 0 ≤ start ∧ start ≤ liftBound then some m else none
          | _ => none
        else
          match rest with
          | [d, e, f] =>
            let z := beToInt24 [d, e, f]
            if liftInRange start && liftInRange z then some { m with stop := some z } else none
          | _ => none
      else none
    | _, _, _ => none
  | _ => none

/-- Reads an ORDER payload (R10). -/
def readOrder : List Byte → Option OrderKind
  | [b] => orderOfCode b.toNat
  | _ => none

/-- Reads a HALT payload: a cause of kind code 0 to 5 (R10). -/
def readHalt : List Byte → Option FaultKind
  | [b] => if b.toNat ≤ 5 then allKinds[b.toNat]? else none
  | _ => none

/-- Reads a PLAN payload (R10). -/
def readPlan : List Byte → Option PlanOp
  | b :: rest =>
    match field b 6 2 with
    | 0 =>
      match field b 1 1, field b 0 1, rest with
      | 0, 0, [x, y, z] => some (.load (beNat [x, y, z]) none none)
      | 1, 0, [x, y, z, c, d] => some (.load (beNat [x, y, z]) (some (beNat [c, d])) none)
      | 0, 1, [x, y, z, e, f] => some (.load (beNat [x, y, z]) none (some (beNat [e, f])))
      | 1, 1, [x, y, z, c, d, e, f] =>
        some (.load (beNat [x, y, z]) (some (beNat [c, d])) (some (beNat [e, f])))
      | _, _, _ => none
    | 1 => if rest = [] then some .clear else none
    | 2 => if rest = [] then some .adopt else none
    | _ => none
  | [] => none

/-- The content of a complete frame, or `none` when it is malformed (R16). -/
def contentOf (w : WireFrame) : Option Content :=
  if w.kind = kindClaim then (readClaim w.payload).map .claim
  else if w.prec ≠ 0 then none
  else if w.kind = kindHalt then (readHalt w.payload).map .halt
  else if w.kind = kindOrder then (readOrder w.payload).map .order
  else if w.kind = kindPose then (readPose w.payload).map .pose
  else if w.kind = kindPlan then (readPlan w.payload).map .plan
  else if w.kind = kindRoll then (readRoll w.payload).map .roll
  else none

/-- Whether a complete frame is malformed (R16). -/
def malformed (w : WireFrame) : Bool := (contentOf w).isNone

end Sys2Proof.Machine
end

