-- ==== Sys2Proof/Machine/Ops.lean ====
section
/-! DEFINITION. Stamps, compares and counters, the accessors that every block reads through, POSE and
ROLL requests, update notices, and the rows of the peer table with the self row filled in. -/

namespace Sys2Proof.Machine

/-! ### Stamps and compares (R19 to R21) -/

/-- A stamp written at `now` (R20). -/
def Stamp.written (now : Time) : Stamp := ⟨now, false⟩

/-- The age of a stamp, modulo 2^32 (R20). -/
def Stamp.age (now : Time) (st : Stamp) : Nat := (now - st.value).toNat

/-- "At least `units` since" a stamp: expired, or old enough (R20). -/
def Stamp.atLeast (now : Time) (units : Nat) (st : Stamp) : Bool :=
  st.expired || units ≤ st.age now

/-- The stamp's mark is due: not expired, and its age exceeds 100,000 units (R20). -/
def Stamp.markDue (now : Time) (st : Stamp) : Bool := !st.expired && expiryUnits < st.age now

/-- Sets the expired mark of a stamp whose mark is due; any other stamp stays (R20). -/
def Stamp.mark (now : Time) (st : Stamp) : Stamp :=
  if st.markDue now then { st with expired := true } else st

/-- A compare armed at `now` with an interval (R21). -/
def armed (now : Time) (units : Nat) : Compare := some (now + BitVec.ofNat 32 units)

/-- The compare is armed and the time base has reached its target (R21). The intervals armed are far
shorter than half the count's range, so a target lies behind exactly when the difference is small. -/
def due (now : Time) : Compare → Bool
  | none => false
  | some target => (now - target).toNat < 2147483648

/-! ### Counters -/

/-- One more, stopping at `cap`. -/
def bump (cap n : Nat) : Nat := if n < cap then n + 1 else n

/-! ### Accessors -/

/-- The station's own number (R22). -/
def State.own (s : State) : Nat := s.straps.number.val

/-- The values in force (R23). -/
def State.cfg (s : State) : Settings := s.settings.inForce

/-- The station mode. -/
def State.mode (s : State) : Mode := s.modeCtl.mode

/-- The stage record of a staged station. -/
def State.stagedRec (s : State) : Option StagedRec :=
  match s.stage.record with
  | .staged r => some r
  | _ => none

/-- The lift: travel minus contact zero while staged, else absent (R75). -/
def State.lift (s : State) : Option Int :=
  s.stagedRec.map fun r => (s.engine.travel : Int) - r.contactZero

/-- The stage index while staged (R73). -/
def State.stageIx (s : State) : Option StageIx := s.stagedRec.map (·.stage)

/-- The direction of a RUNNING stroke, none otherwise (R121). -/
def State.flight (s : State) : Direction :=
  match s.engine.stroke with
  | .running r _ => r.dir
  | _ => .none

/-- The committed end of a RUNNING stroke while the station is staged (R48, R121). -/
def State.committedEnd (s : State) : Option Int :=
  match s.engine.stroke, s.lift with
  | .running r _, some _ => r.stop
  | _, _ => none

/-- The stroke engine is CLAIMING. -/
def State.claiming (s : State) : Bool :=
  match s.engine.stroke with
  | .claiming _ => true
  | _ => false

/-- The fault record of a kind. -/
def State.fault (s : State) (k : FaultKind) : FaultRec := s.faults[faultCode k]

/-- The latched flag of a kind (R180). -/
def State.latched (s : State) (k : FaultKind) : Bool := (s.fault k).latched

/-- The active flag of a kind (R182). -/
def State.active (s : State) (k : FaultKind) : Bool := (s.fault k).active

/-- The bit of a kind in a fault set (R6). -/
def kindBit (k : FaultKind) : BitVec 16 := BitVec.ofNat 16 (2 ^ (faultCode k).val)

/-- Whether a fault set holds a kind (R6). -/
def inSet (set : BitVec 16) (k : FaultKind) : Bool := set.getLsbD (faultCode k).val

/-- The set of the kinds for which `p` holds. -/
def setOf (p : FaultKind → Bool) : BitVec 16 :=
  allKinds.foldl (fun acc k => if p k then acc ||| kindBit k else acc) 0

/-- The latched fault set (R8, R181). -/
def latchedSet (s : State) : BitVec 16 := setOf s.latched

/-! ### The rows with the self row filled in (R48) -/

/-- The self row's reported fields: the station's own state (R48). -/
def selfReport (s : State) : Report :=
  { mode := s.mode, lift := s.lift, flight := s.flight, committedEnd := s.committedEnd,
    load := s.loadMon.present, pawl := s.pawl.state, stage := s.stageIx, dir := s.stage.dir,
    planTag := s.plan.tag, faults := latchedSet s, rejoined := s.modeCtl.rejoined }

/-- The self row of a table. -/
def selfRow (s : State) (t : PeerTable) : Row := ⟨t.selfFixed, selfReport s, t.selfMarks⟩

/-- The peers' rows; none while the table is absent (R45). -/
def peerRows (s : State) : List Row :=
  match s.table with
  | none => []
  | some t => t.peers

/-- Every row, the self row first; none while the table is absent (R45). -/
def allRows (s : State) : List Row :=
  match s.table with
  | none => []
  | some t => selfRow s t :: t.peers

/-- A row is LIVE. -/
def Row.isLive (r : Row) : Bool := r.marks.live == .live

/-- A row is staged when its lift is present (R46). -/
def Row.isStaged (r : Row) : Bool := r.report.lift.isSome

/-- Whether a station number is a member (R17). -/
def isMember (s : State) (n : Nat) : Bool := (allRows s).any fun r => r.fixed.number == n

/-- A member's row by number. -/
def rowOf (s : State) (n : Nat) : Option Row := (allRows s).find? fun r => r.fixed.number == n

/-! ### Update notices and requests -/

/-- Something that the readers of R58 and R87 must be told of has changed. -/
def notify (s : State) : State := { s with notice := true }

/-- The frame now on the line is of a kind. -/
def sendingKind (s : State) (k : BitVec 3) : Bool :=
  match s.line.attempt with
  | some w => w.kind == k
  | none => false

/-- A POSE request (R12): merged with the pending mark, or kept for after the POSE now being sent.
POSE sending begins when the station leaves ROLLCALL, so in ROLLCALL a request is dropped. -/
def requestPose (s : State) : State :=
  if s.mode = .rollcall then s
  else if sendingKind s kindPose then { s with line := { s.line with poseAgain := true } }
  else { s with line := { s.line with posePending := true } }

/-- Marks the ROLL slot (R12): merged, or kept for after the ROLL now being sent. -/
def requestRoll (s : State) : State :=
  if sendingKind s kindRoll then { s with line := { s.line with rollAgain := true } }
  else { s with line := { s.line with rollPending := true } }

/-- One more discarded frame (R16). -/
def countDiscarded (s : State) : State :=
  { s with line := { s.line with discarded := bump 65535 s.line.discarded } }

/-! ### Fault classes (R180) -/

/-- The halt class. -/
def haltClass : FaultKind → Bool
  | .emergency | .overload | .encoder | .stall | .drift | .pawlStuck | .line => true
  | _ => false

/-- The hold class. -/
def holdClass : FaultKind → Bool
  | .loadShare | .peerSilent | .travelLimit => true
  | _ => false

/-- The roll class. -/
def rollClass : FaultKind → Bool
  | .duplicate | .memberCount | .configMismatch | .retainedLost => true
  | _ => false

/-- The condition kinds; the others are event kinds. -/
def conditionKind : FaultKind → Bool
  | .emergency | .overload | .line | .loadShare | .peerSilent => true
  | _ => false

end Sys2Proof.Machine
end

