-- ==== Sys2Proof/Machine/Views.lean ====
section
/-! DEFINITION. The group views of the peer table (R59 to R64). A view is a function of the rows, so it
is current at every moment; while the table is absent each test reads false and each total 0 (R45). -/

namespace Sys2Proof.Machine

/-- A yes-or-no view: false while the table is absent (R45). -/
def viewTest (s : State) (p : List Row → Bool) : Bool := s.table.isSome && p (allRows s)

/-- All-live (R59). -/
def allLive (s : State) : Bool := viewTest s fun rows => rows.all Row.isLive

/-- Plan-agreed (R59). -/
def planAgreed (s : State) : Bool :=
  viewTest s fun rows => rows.all fun r => !r.isLive || r.report.planTag == s.plan.tag

/-- The lowest-numbered LIVE row whose plan tag differs from the station's own (R169). -/
def firstDisagreeing (s : State) : Option Nat :=
  ((allRows s).filter fun r => r.isLive && r.report.planTag != s.plan.tag).map (·.fixed.number)
    |>.min?

/-- Rest(k) (R60). -/
def restAt (s : State) (k : Nat) : Bool :=
  viewTest s fun rows => rows.all fun r =>
    r.isLive && (r.report.mode == .settled || r.report.mode == .idle)
      && r.report.stage == some (.stage k)

/-- All-unstaged (R60). -/
def allUnstaged (s : State) : Bool :=
  viewTest s fun rows => rows.all fun r => r.isLive && r.report.mode == .unstaged

/-- Lowering-ready (R61). -/
def loweringReady (s : State) : Bool :=
  viewTest s fun rows => rows.all fun r =>
    r.isLive && r.report.pawl == .withdrawn && r.report.flight == .none

/-- A fault set holds a kind of the halt class or the hold class (R62). -/
def stoppingSet (set : BitVec 16) : Bool :=
  allKinds.any fun k => (haltClass k || holdClass k) && inSet set k

/-- Peer-fault (R62). -/
def peerFault (s : State) : Bool :=
  viewTest s fun rows => rows.any fun r => r.isLive && stoppingSet r.report.faults

/-- Any-hold (R62). -/
def anyHold (s : State) : Bool :=
  viewTest s fun rows => rows.any fun r =>
    r.isLive && r.report.mode == .hold && r.report.stage == s.stageIx

/-- Any-halted (R62). -/
def anyHalted (s : State) : Bool :=
  viewTest s fun rows => rows.any fun r => r.isLive && r.report.mode == .halted

/-- The lifts of the LIVE staged peers, all of them or those of the station's car group (R63). -/
def peerLifts (s : State) (carOnly : Bool) : List Int :=
  ((peerRows s).filter fun r =>
      r.isLive && (!carOnly || r.fixed.car == s.straps.car.val)).filterMap (·.report.lift)

/-- The lift floors (R63); a floor over no rows is absent. -/
def carMin (s : State) : Option Int := (peerLifts s true).min?
def carMax (s : State) : Option Int := (peerLifts s true).max?
def setMin (s : State) : Option Int := (peerLifts s false).min?
def setMax (s : State) : Option Int := (peerLifts s false).max?

/-- The rows that enter the car-group totals (R64). -/
def carRows (s : State) : List Row :=
  (allRows s).filter fun r => r.isLive && r.isStaged && r.fixed.car == s.straps.car.val

/-- The load total W, the share total U and the count n (R64). -/
def totalW (s : State) : Nat := ((carRows s).map (·.report.load)).sum
def totalU (s : State) : Nat := ((carRows s).map (·.fixed.share)).sum
def totalN (s : State) : Nat := (carRows s).length

/-- The self row is LIVE (R160). -/
def selfLive (s : State) : Bool :=
  match s.table with
  | none => false
  | some t => t.selfMarks.live == .live

end Sys2Proof.Machine
end

