-- ==== Sys2Proof/Machine/Flags.lean ====
section
/-! DEFINITION. The fault record's latched and active flags: what an occurrence writes (R181), conditions
(R182) and acknowledgement (R171, R183). What mode control then does stands in ModeCtl.lean. -/

namespace Sys2Proof.Machine

/-- Replaces the record of one kind. -/
def setFault (k : FaultKind) (r : FaultRec) (s : State) : State :=
  { s with faults := s.faults.set (faultCode k).val r (faultCode k).isLt }

/-- Where the column stands: the lift while staged, else the travel (R181). -/
def placeNow (s : State) : Place :=
  match s.lift with
  | some h => .lift h
  | none => .travel s.engine.travel

/-- The record of a kind after an occurrence (R181). -/
def occurred (now : Time) (place : Place) (peer : Option Nat) (r : FaultRec) : FaultRec :=
  { r with
    first := if r.latched then r.first else some ⟨Stamp.written now, place, peer⟩
    latched := true
    count := bump 255 r.count }

/-- An occurrence at the fault record, with the place given (R181): the record is written, and when the
latched set changes the self row takes it and a POSE is requested. -/
def latchAt (place : Place) (peer : Option Nat) (k : FaultKind) (s : State) : State :=
  let s' := setFault k (occurred s.timeBase place peer (s.fault k)) s
  if s.latched k then s' else requestPose (notify s')

/-- Sets or ends a condition (R182). -/
def setActive (k : FaultKind) (on : Bool) (s : State) : State :=
  setFault k { s.fault k with active := on } s

/-- Clears the latched flags for which `p` holds; a change of the latched set goes to the self row and
requests a POSE (R171, R183). -/
def unlatch (p : FaultKind → Bool) (s : State) : State :=
  let s' := allKinds.foldl
    (fun acc k => if p k then setFault k { acc.fault k with latched := false } acc else acc) s
  if latchedSet s' = latchedSet s then s' else requestPose (notify s')

/-- A kind of the halt class or the hold class is latched (R168, OWN_FAULT). -/
def ownFault (s : State) : Bool := allKinds.any fun k => (haltClass k || holdClass k) && s.latched k

/-- A halt-class condition is active (R172). -/
def haltConditionActive (s : State) : Bool := allKinds.any fun k => haltClass k && s.active k

/-- A halt-class or hold-class condition is active (R171). -/
def stopConditionActive (s : State) : Bool :=
  allKinds.any fun k => (haltClass k || holdClass k) && s.active k

/-- A roll-class fault is latched (R32). -/
def rollFaultLatched (s : State) : Bool := allKinds.any fun k => rollClass k && s.latched k

/-- The lowest-coded latched kind of the halt class (R167). -/
def firstHaltKind (s : State) : Option FaultKind :=
  allKinds.find? fun k => haltClass k && s.latched k

end Sys2Proof.Machine
end

