-- ==== Sys2Proof/Machine/Motion.lean ====
section
/-! DEFINITION. What stops a stroke, a jog or a claim: withdrawal of a queued claim (R113, R114), the
ends of a running stroke (R129 to R134), the short stop (R132) and the end of a jog (R140). -/

namespace Sys2Proof.Machine

/-! ### Drive (R123) -/

/-- The drive command that the selected source gives (R123). -/
def driveOf (source : Source) (stroke : StrokeState) (jog : JogState) : Drive :=
  match source with
  | .stroke =>
    match stroke with
    | .running r _ =>
      match r.dir with
      | .raise => .runUp
      | .lower => .runDown
      | .none => .off
    | _ => .off
  | .jog =>
    match jog with
    | .up => .runUp
    | .down => .runDown
    | _ => .off

/-! ### Withdrawal of a claim (R113, R114) -/

/-- A withdrawal that takes effect (R114): slot EMPTY, stroke engine REST, one more withdrawal, the
held-withdrawal mark false. -/
def withdrawNow (s : State) : State :=
  notify { s with
    line := { s.line with claim := .empty }
    engine :=
      { s.engine with
        stroke := .rest, drive := driveOf s.engine.source .rest s.engine.jog }
    spacing := { s.spacing with withdrawals := bump 255 s.spacing.withdrawals, held := false } }

/-- A withdrawal request and the answer by the slot's phase (R14, R113). -/
def requestWithdrawal (s : State) : State :=
  match s.line.claim with
  | .empty => s
  | .waiting _ => withdrawNow s
  | .contending f _ => { s with line := { s.line with claim := .contending f true } }
  | .committed _ => { s with spacing := { s.spacing with held := true } }

/-- A cause of withdrawal acts only while the stroke engine is CLAIMING (R112). -/
def causeOfWithdrawal (s : State) : State := if s.claiming then requestWithdrawal s else s

/-! ### Ends of a running stroke -/

/-- What every end of a stroke does (R129 to R134): drive OFF, REST, time limit disarmed, rest reference
at the present travel, last stroke recorded, dwell armed for T_rev, contact watch disarmed (R157), and
a POSE requested. -/
def stopRun (dir : Direction) (s : State) : State :=
  requestPose <| notify { s with
    engine :=
      { s.engine with
        stroke := .rest
        limit := none
        restRef := s.engine.travel
        lastDir := dir
        lastEnd := Stamp.written s.timeBase
        dwell := armed s.timeBase (10 * s.cfg.trev)
        drive := driveOf s.engine.source .rest s.engine.jog }
    loadMon := { s.loadMon with watch := false } }

/-- Aborts a stroke that is RUNNING; anything else stays (R134). -/
def abortStroke (s : State) : State :=
  match s.engine.stroke with
  | .running r _ => stopRun r.dir s
  | _ => s

/-- Cuts a lowering stroke that is RUNNING (R133). -/
def cutStroke (s : State) : State :=
  match s.engine.stroke with
  | .running r _ => if r.dir = .lower then stopRun r.dir s else s
  | _ => s

/-- The short stop (R132): the remaining count becomes at most A, and a staged stroke's committed end
moves to where the shortened stroke ends. -/
def shortStop (s : State) : State :=
  match s.engine.stroke with
  | .running r remaining =>
    let left := min remaining s.cfg.a
    let stop' :=
      match s.lift, r.stop with
      | some h, some _ => some (if r.dir = .lower then h - left else h + left)
      | _, _ => r.stop
    requestPose <| notify { s with
      engine := { s.engine with stroke := .running { r with stop := stop' } left } }
  | _ => s

/-! ### End of a jog (R140) -/

/-- The stroke engine's part of a jog end: drive OFF, source STROKE, rest reference at the present travel,
jog state NONE (R140). The pawl's part is given by the callers. -/
def dropJog (s : State) : State :=
  { s with
    engine :=
      { s.engine with
        jog := .none
        source := .stroke
        drive := driveOf .stroke s.engine.stroke .none
        restRef := s.engine.travel } }

/-- The jog state is DOWN-WAIT or DOWN (R140). -/
def jogLowers : JogState → Bool
  | .downWait | .down => true
  | _ => false

end Sys2Proof.Machine
end

