-- ==== Sys2Proof/Machine/PawlCtl.lean ====
section
/-! DEFINITION. The pawl controller's commands and reports (R142 to R147). Becoming STUCK and what mode
control makes of it stand in ModeCtl.lean; the hand-over that stage control makes at SET is made by the
readers of Settle.lean. -/

namespace Sys2Proof.Machine

/-- The actuator output follows the commanded state (R142): ENGAGE is `false`, RELEASE is `true`. -/
def actuatorReleases (s : State) : Bool := s.pawl.commanded == .withdrawn

/-- The stroke engine's part of a pawl report (R133, R139): a lowering stroke is cut on any state but
WITHDRAWN; a jog goes from DOWN-WAIT to DOWN on WITHDRAWN with JOG DOWN still held; a jog in DOWN ends
on any other state, its set command finding the pawl already off WITHDRAWN. -/
def engineOnPawl (p : PawlState) (s : State) : State :=
  if p = .withdrawn then
    if s.engine.jog = .downWait ∧ s.pendant.levels.jogDown then
      { s with
        engine :=
          { s.engine with jog := .down, drive := driveOf s.engine.source s.engine.stroke .down } }
    else s
  else
    let s := cutStroke s
    if s.engine.jog = .down then
      dropJog { s with pawl := { s.pawl with commanded := .set, pendingWithdraw := false } }
    else s

/-- A change of pawl state with its report (R147): self row and ceiling unit by notice, a claim in
CLAIMING withdrawn, the stroke engine's part, nudge-due cleared on WITHDRAWN, POSE requested. -/
def reportPawl (p : PawlState) (s : State) : State :=
  let s := requestPose (notify { s with pawl := { s.pawl with state := p } })
  let s := causeOfWithdrawal s
  let s := engineOnPawl p s
  if p = .withdrawn then { s with ceiling := { s.ceiling with nudgeDue := false } } else s

/-- Arms the pawl time limit for T_pw (R146). -/
def armPawlLimit (s : State) : State :=
  { s with pawl := { s.pawl with limit := armed s.timeBase (10 * s.cfg.tpw) } }

/-- Disarms the pawl time limit. -/
def disarmPawlLimit (s : State) : State := { s with pawl := { s.pawl with limit := none } }

/-- Gives the commanded state. -/
def commandPawl (c : PawlCommand) (s : State) : State :=
  { s with pawl := { s.pawl with commanded := c } }

/-- A withdraw is permitted in MOVING, or with the jog state DOWN-WAIT (R143). -/
def withdrawPermitted (s : State) : Bool := s.mode == .moving || s.engine.jog == .downWait

/-- A withdraw command (R143). -/
def pawlWithdraw (s : State) : State :=
  if withdrawPermitted s then
    match s.pawl.state with
    | .set => reportPawl .withdrawing (armPawlLimit (commandPawl .withdrawn s))
    | .setting => { s with pawl := { s.pawl with pendingWithdraw := true } }
    | _ => s
  else s

/-- A set command (R144). -/
def pawlSet (s : State) : State :=
  let s := { s with pawl := { s.pawl with pendingWithdraw := false } }
  match s.pawl.state with
  | .set | .setting => s
  | .withdrawing =>
    let s := reportPawl .setting (armPawlLimit (commandPawl .set s))
    if s.pawl.setClosed then reportPawl .set (disarmPawlLimit s) else s
  | .withdrawn => reportPawl .setting (armPawlLimit (commandPawl .set s))
  | .stuck => commandPawl .set s

/-- The pawl reaches SET at the end of SETTING: the limit is disarmed, SET is reported, and a pending
withdraw is taken as a fresh command (R145). -/
def pawlReachesSet (s : State) : State :=
  let pend := s.pawl.pendingWithdraw
  let s := reportPawl .set (disarmPawlLimit { s with pawl := { s.pawl with pendingWithdraw := false } })
  if pend then pawlWithdraw s else s

/-- The pawl is WITHDRAWN while the commanded state is SET: it is reported WITHDRAWN and goes at once to
SETTING with the time limit armed (R152). -/
def pawlFoundWithdrawn (s : State) : State :=
  let s := reportPawl .withdrawn (commandPawl .set s)
  reportPawl .setting (armPawlLimit s)

/-- A RESUME at the pawl controller: only STUCK is left, by the stored switch levels (R152). -/
def pawlOnResume (s : State) : State :=
  if s.pawl.state = .stuck then
    match s.pawl.setClosed, s.pawl.withdrawnClosed with
    | true, false => reportPawl .set s
    | false, true => pawlFoundWithdrawn s
    | _, _ => s
  else s

/-- Ends a jog in progress (R140): the stroke engine's part, and a set command after a jog down. -/
def endJog (s : State) : State :=
  match s.engine.jog with
  | .none => s
  | j => if jogLowers j then pawlSet (dropJog s) else dropJog s

end Sys2Proof.Machine
end

