-- ==== Sys2Proof/Machine/Stage.lean ====
section
/-! DEFINITION. Stage control's record: retained content handed over (R41), the plan tag (R72), stage
targets and the travel clamp (R74, R79), stage entry (R76), and the ceiling unit's and lamp unit's state
as modes change it. -/

namespace Sys2Proof.Machine

/-! ### Retained content (R41) -/

/-- The retained fields as they stand: stage record, direction and active plan (R40). -/
def retainedNow (s : State) : RetContent :=
  { staged :=
      match s.stage.record with
      | .staged r => some ⟨r.contactZero, r.stage⟩
      | .restored r => some r
      | .unstaged => none
    dir := s.stage.dir
    plan := s.plan.active }

/-- A write begins: the marker is made invalid first, and the write carries the content it begins with
(R41). -/
def beginWrite (s : State) : State :=
  { s with retained := { s.retained with marker := false, writing := some s.retained.content } }

/-- New content handed to settings memory (R41): the retained content is updated at once; a write begins
in IDLE, and in WRITING a rewrite is owed. -/
def handRetained (s : State) : State :=
  let s := { s with retained := { s.retained with content := retainedNow s } }
  match s.retained.writing with
  | none => beginWrite s
  | some _ => { s with retained := { s.retained with rewriteOwed := true } }

/-! ### Plan tag (R72) -/

/-- An entry's value: target plus 3 times the car lead plus 5 times the set lead, absent leads 0 (R72). -/
def entryValue (e : PlanEntry) : Nat := e.target + 3 * e.carLead.getD 0 + 5 * e.setLead.getD 0

/-- The plan tag of a bank (R72). -/
def planTag (plan : List PlanEntry) : Nat :=
  (plan.length + (plan.mapIdx fun i e => (i + 1) * entryValue e).sum) % 65536

/-! ### Stages and targets (R74, R79) -/

/-- The active entry of a plan stage (R74). -/
def stageEntryOf (s : State) : StageIx → Option PlanEntry
  | .stage (k + 1) => s.plan.active[k]?
  | _ => none

/-- The target lift T of a stage (R74). -/
def stageTarget (s : State) (k : StageIx) : Int :=
  match k with
  | .setdown => -(s.cfg.d : Int)
  | k =>
    match stageEntryOf s k with
    | some e => e.target
    | none => 0

/-- The effective target: T held to the lifts the screw can reach (R79). -/
def clampTarget (contactZero : Nat) (t : Int) : Int :=
  if (topTravel : Int) - contactZero < t then topTravel - contactZero
  else if t < -(contactZero : Int) then -contactZero
  else t

/-- The stage record on entering a stage or at rejoin (R73, R76). -/
def stagedAt (s : State) (contactZero : Nat) (k : StageIx) : StagedRec :=
  { contactZero := contactZero, stage := k, target := stageTarget s k,
    effTarget := clampTarget contactZero (stageTarget s k), limitReported := false }

/-- The direction from one target to another (R76). -/
def directionTo (old new : Int) : Direction :=
  if old < new then .raise else if new < old then .lower else .none

/-- Stage entry (R76), which also clears the lowering-release flag (R95). -/
def stageEntry (k : StageIx) (s : State) : State :=
  match s.stage.record with
  | .staged r =>
    handRetained <| notify { s with
      stage :=
        { s.stage with
          record := .staged (stagedAt s r.contactZero k)
          dir := directionTo r.target (stageTarget s k) }
      ceiling := { s.ceiling with release := false } }
  | _ => s

/-! ### Ceiling unit and wait stamp (R86, R191) -/

/-- Writes the wait reason. A change from NONE writes the wait stamp; NONE ends a long wait (R191). -/
def setReason (r : WaitReason) (s : State) : State :=
  let begins := r ≠ .none ∧ s.ceiling.reason = .none
  let goesOn := r != .none && s.ceiling.reason != .none
  { s with
    ceiling := { s.ceiling with reason := r }
    lamps :=
      { s.lamps with
        waitStamp := if begins then Stamp.written s.timeBase else s.lamps.waitStamp
        waitingLong := goesOn && s.lamps.waitingLong } }

/-- The ceiling unit becomes IDLE with no offer, and the spacing compare is disarmed (R86, R110). -/
def ceilingIdle (s : State) : State :=
  let s := setReason .none s
  { s with
    ceiling := { s.ceiling with outcome := .idle }
    spacing := { s.spacing with offer := none, instant := none } }

end Sys2Proof.Machine
end

