-- ==== Sys2Proof/Machine/ModeCtl.lean ====
section
/-! DEFINITION. Mode control: entry to each mode with its actions on the other blocks (R166), the stop and
refusal records (R165), what an occurrence of a fault kind does (R167, R175, R177), arrival (R80 to R82)
and the end of staging (R84). -/

namespace Sys2Proof.Machine

/-! ### Records (R165) -/

/-- Writes the last stop record (R165). -/
def recordStop (entered : Mode) (origin : StopOrigin) (kind : Option FaultKind) (station : Option Nat)
    (s : State) : State :=
  { s with modeCtl :=
      { s.modeCtl with
        lastStop := some ⟨entered, origin, kind, station, Stamp.written s.timeBase⟩ } }

/-- Writes the last refused order record (R168). -/
def refuse (kind : RefusedKind) (reason : Reason) (originator : Nat) (s : State) : State :=
  { s with modeCtl :=
      { s.modeCtl with
        lastRefused := some ⟨kind, reason, originator, Stamp.written s.timeBase⟩ } }

/-! ### Mode entries (R166) -/

/-- A change of mode: self row by notice, POSE requested, and stage control's wait for the pawl ended
(R82, R166). -/
def setMode (m : Mode) (s : State) : State :=
  requestPose <| notify { s with
    modeCtl := { s.modeCtl with mode := m }
    stage := { s.stage with awaitingSet := false } }

/-- Entry to UNSTAGED (R78, R95, R97, R148, R166). A direction left over is changed to none and handed to
settings memory. -/
def enterUnstaged (s : State) : State :=
  let s := setMode .unstaged s
  let s :=
    if s.stage.dir = .none then s
    else handRetained { s with stage := { s.stage with dir := .none } }
  let s := { s with ceiling := { s.ceiling with nudgeDue := false, release := false } }
  pawlSet (ceilingIdle s)

/-- Entry to SETTLED (R166). -/
def enterSettled (s : State) : State := pawlSet (ceilingIdle (setMode .settled s))

/-- Entry to IDLE (R166). -/
def enterIdle (s : State) : State := setMode .idle s

/-- Entry to HOLD: short stop, claim withdrawn, ceiling unit IDLE, pawl commanded SET (R166). -/
def enterHold (s : State) : State :=
  pawlSet (ceilingIdle (causeOfWithdrawal (shortStop (setMode .hold s))))

/-- Entry to HALTED: a jog ends, a running stroke is aborted, a claim withdrawn, ceiling unit IDLE, pawl
commanded SET (R166). -/
def enterHalted (s : State) : State :=
  pawlSet (ceilingIdle (causeOfWithdrawal (abortStroke (endJog (setMode .halted s)))))

/-! ### Occurrences (R167, R175, R177, R181) -/

/-- The HALT frame of a cause (R10). -/
def haltFrame (s : State) (k : FaultKind) : WireFrame :=
  ⟨kindHalt, 0, BitVec.ofNat 6 s.own, [BitVec.ofNat 8 (faultCode k).val]⟩

/-- Fills the HALT slot, for every halt-class kind but LINE; a full slot keeps its frame (R11, R177). -/
def placeHalt (k : FaultKind) (s : State) : State :=
  if k = .line then s
  else
    match s.line.haltSlot with
    | some _ => s
    | none => { s with line := { s.line with haltSlot := some (haltFrame s k) } }

/-- What mode control does at an occurrence, by class and mode (R167, R175, R177). -/
def modeOnFault (k : FaultKind) (s : State) : State :=
  if haltClass k then
    match s.mode with
    | .rollcall | .barred | .halted => placeHalt k s
    | _ => placeHalt k (recordStop .halted .fault (some k) none (enterHalted s))
  else if holdClass k && s.mode == .moving then
    recordStop .hold .fault (some k) none (enterHold s)
  else s

/-- An occurrence with the place that its record takes: the fault record first, then mode control (R181). -/
def reportAt (place : Place) (k : FaultKind) (peer : Option Nat) (s : State) : State :=
  modeOnFault k (latchAt place peer k s)

/-- An occurrence at the place where the column stands (R181). -/
def report (k : FaultKind) (peer : Option Nat) (s : State) : State := reportAt (placeNow s) k peer s

/-- The place in the record of an ENCODER occurrence after start: the travel (R124), and with it the lift while the
station is staged (R181). Neither rule keeps the other's value out of the record (assumption 35). -/
def encoderPlace (s : State) : Place :=
  match s.lift with
  | some h => .liftAndTravel h s.engine.travel
  | none => .travel s.engine.travel

/-- An occurrence of ENCODER after start (R124). -/
def reportEncoder (s : State) : State := reportAt (encoderPlace s) .encoder none s

/-- Entry to STUCK (R146): limit disarmed, pending withdraw false, the change reported, and an occurrence
of PAWL_STUCK. -/
def pawlStuck (s : State) : State :=
  report .pawlStuck none <| reportPawl .stuck
    { s with pawl := { s.pawl with limit := none, pendingWithdraw := false } }

/-! ### Share check (R160 to R162) -/

/-- The share check is active (R160). -/
def shareActive (s : State) : Bool :=
  s.stagedRec.isSome && (s.mode == .moving || s.mode == .settled) && selfLive s
    && s.cfg.wmin ≤ totalW s

/-- The share state that the loads give (R161). -/
def shareOf (s : State) : ShareState :=
  if shareActive s then
    let own := 16 * s.loadMon.present * totalU s
    let part := s.straps.share.val * totalW s
    if (16 + s.cfg.b) * part < own then .over
    else if own < (16 - s.cfg.b) * part then .under
    else .inBand
  else .inactive

/-- Out of band (R162). -/
def outOfBand : ShareState → Bool
  | .over | .under => true
  | _ => false

/-- Writes the share state and the totals that the evaluation reads (R162). -/
def writeShare (s : State) : State :=
  { s with loadMon :=
    { s.loadMon with
      share := shareOf s, totalW := totalW s, totalU := totalU s, totalN := totalN s } }

/-- The share evaluation (R162): a column that leaves its band is an occurrence of LOAD_SHARE with its condition
active, and the condition ends when the column is back in band or the check is no longer active. -/
def shareEval (s : State) : State :=
  let was := outOfBand s.loadMon.share
  let now := outOfBand (shareOf s)
  if now && !was then report .loadShare none (setActive .loadShare true (writeShare s))
  else if was && !now then setActive .loadShare false (writeShare s)
  else writeShare s

/-! ### Arrival (R80 to R82, R84) -/

/-- The end of staging (R84), with the entry to UNSTAGED. -/
def endStaging (s : State) : State :=
  enterUnstaged <| handRetained <| notify { s with
    stage := { record := .unstaged, dir := .none, awaitingSet := false } }

/-- An arrival handed to mode control (R82, R173): SETTLED at stage 0 to n, end of staging at SETDOWN. -/
def handOverArrival (s : State) : State :=
  match s.stageIx with
  | some .setdown => endStaging s
  | some (.stage _) => enterSettled s
  | none => s

/-- Stage control hands an arrival over: at once unless lowering, and then only with the pawl SET; else it
waits, commanding the pawl SET if it is not so commanded (R82). -/
def arrive (s : State) : State :=
  if s.stage.dir ≠ .lower ∨ s.pawl.state = .set then handOverArrival s
  else
    let s := { s with stage := { s.stage with awaitingSet := true } }
    if s.pawl.commanded = .set then s else pawlSet s

/-- Sets the limit-reported flag (R80). -/
def markLimitReported (s : State) : State :=
  match s.stage.record with
  | .staged r =>
    { s with stage := { s.stage with record := .staged { r with limitReported := true } } }
  | _ => s

/-- The arrival test, made while staged and in MOVING (R80, R81). -/
def arrivalTest (s : State) : State :=
  match s.stagedRec, s.lift with
  | some r, some h =>
    if s.mode = .moving then
      let e := r.effTarget - h
      let a : Int := s.cfg.a
      if -a ≤ e ∧ e ≤ a then
        if r.effTarget ≠ r.target ∧ r.limitReported = false then
          report .travelLimit none (markLimitReported s)
        else arrive s
      else if (s.stage.dir = .raise ∧ a < e) ∨ (s.stage.dir = .lower ∧ e < -a) then s
      else report .drift none s
    else s
  | _, _ => s

/-- Entry to MOVING (R166): a jog ends; nudge-due is set when staged with direction lower (R97); the share evaluation
is made at once (R163), and a staged station that stays in MOVING has its arrival test. The ceiling unit evaluates at
the notice. -/
def enterMoving (s : State) : State :=
  let s := setMode .moving (endJog s)
  let s :=
    if s.stagedRec.isSome ∧ s.stage.dir = .lower then
      { s with ceiling := { s.ceiling with nudgeDue := true } }
    else s
  arrivalTest (shareEval s)

/-- Take-up begins (R77). -/
def takeUp (s : State) : State :=
  enterMoving <| handRetained <| notify { s with stage := { s.stage with dir := .raise } }

/-! ### Stroke end and contact (R129 to R131) -/

/-- A stroke end (R129): the engine's part, then in MOVING the nudge-due flag, auto-set and the arrival
test. -/
def strokeEnd (r : Stroke) (s : State) : State :=
  let s := stopRun r.dir s
  if s.mode = .moving then
    let s :=
      if r.kind = .nudge then { s with ceiling := { s.ceiling with nudgeDue := false } } else s
    let s := if r.dir = .lower ∧ r.final then pawlSet s else s
    arrivalTest s
  else s

/-- Contact capture (R77, R130): the stroke ends, the station is staged at stage 0 with the present travel
as contact zero, and the new content is handed to settings memory; in MOVING the arrival test follows. -/
def captureContact (s : State) : State :=
  let s := stopRun .raise s
  let s := handRetained <| notify { s with
    stage := { s.stage with record := .staged ⟨s.engine.travel, .stage 0, 0, 0, false⟩ } }
  arrivalTest s

/-- A contact report at the stroke engine: acts only while a contact stroke is RUNNING (R130). -/
def contactReport (s : State) : State :=
  match s.engine.stroke with
  | .running r _ => if r.kind = .contact then captureContact s else s
  | _ => s

/-- The top of travel on a contact stroke (R131). -/
def topOfTravel (s : State) : State := report .travelLimit none (stopRun .raise s)

/-- The contact test: passed at W_c or more, it disarms the watch and sends the contact report (R157). -/
def contactTest (s : State) : State :=
  if s.loadMon.watch ∧ s.cfg.wc ≤ s.loadMon.present then
    contactReport { s with loadMon := { s.loadMon with watch := false } }
  else s

end Sys2Proof.Machine
end

