-- ==== Sys2Proof/Machine/Spacing.lean ====
section
/-! DEFINITION. The spacing unit: the gap test (R109), queueing a claim (R111), hand-overs from the ceiling
unit (R110), a failed attempt (R115) and the stamps (R108). -/

namespace Sys2Proof.Machine

/-- The gap test (R109). -/
def gapPassed (s : State) : Bool :=
  s.spacing.feederStamp.atLeast s.timeBase (10 * s.cfg.gl)
    && s.spacing.lineStamp.atLeast s.timeBase (10 * s.cfg.gs)

/-- What is left of one gap; 0 once its condition holds (R109). -/
def gapLeft (s : State) (ms : Nat) (st : Stamp) : Nat :=
  if st.atLeast s.timeBase (10 * ms) then 0 else 10 * ms - st.age s.timeBase

/-- The remaining time (R109). -/
def remainingGap (s : State) : Nat :=
  max (gapLeft s s.cfg.gl s.spacing.feederStamp) (gapLeft s s.cfg.gs s.spacing.lineStamp)

/-- The claim message of a stroke (R9). -/
def claimMsg (r : Stroke) : ClaimMsg := ⟨r.kind, r.dir, r.final, r.stage, r.start, r.stop⟩

/-- The precedence of a claim queued with `w` withdrawals (R5, R119). -/
def claimPrec (w : Nat) : Nat := 255 - min 255 w

/-- The CLAIM frame of a stroke, with the precedence of the withdrawal count at queueing (R5, R111). -/
def claimFrame (s : State) (r : Stroke) : WireFrame :=
  { kind := kindClaim, prec := BitVec.ofNat 8 (claimPrec s.spacing.withdrawals),
    station := BitVec.ofNat 6 s.own, payload := claimPayload (claimMsg r) }

/-- Queues the current offer (R111). The rules do not say what the latest admission report of a claim is while the
ceiling unit has made none since it was queued (R115): the offer admitted it, so it is taken as admitted (DESIGN
CHOICE, assumption 34). -/
def queueClaim (r : Stroke) (s : State) : State :=
  { s with
    engine := { s.engine with stroke := .claiming r }
    line := { s.line with claim := .waiting (claimFrame s r) }
    spacing := { s.spacing with instant := none, held := false, admitted := true } }

/-- The gap test and what follows, when an offer is held at REST in MOVING with the CLAIM slot EMPTY
(R110). -/
def tryQueue (s : State) : State :=
  match s.spacing.offer with
  | none => s
  | some r =>
    if s.engine.stroke = .rest ∧ s.mode = .moving ∧ s.line.claim = .empty then
      if gapPassed s then queueClaim r s
      else
        { s with spacing :=
            { s.spacing with instant := armed s.timeBase (remainingGap s) } }
    else s

/-- A hand-over from the ceiling unit: with an offer the gap test is made; without one the compare is
disarmed (R107, R110). -/
def handOffer (o : Option Stroke) (s : State) : State :=
  match o with
  | none => { s with spacing := { s.spacing with offer := none, instant := none } }
  | some r => tryQueue { s with spacing := { s.spacing with offer := some r } }

/-- Whether a claim stands after a failed attempt (R115). -/
def claimStands (s : State) : Bool :=
  !s.spacing.held && s.mode == .moving && s.spacing.admitted

/-- Writes the stamps at a CLAIM's arrival (R108); `feeder` is the sender's feeder group. -/
def stampClaim (feeder : Nat) (s : State) : State :=
  let st := Stamp.written s.timeBase
  { s with spacing :=
      { s.spacing with
        lineStamp := st
        feederStamp := if feeder = s.straps.feeder.val then st else s.spacing.feederStamp } }

/-- A CLAIM from another member withdraws a queued claim: always from the station's own feeder, and from
another feeder when G_S is greater than 0 (R112). -/
def withdrawForClaim (feeder : Nat) (s : State) : State :=
  if feeder = s.straps.feeder.val ∨ 0 < s.cfg.gs then causeOfWithdrawal s else s

end Sys2Proof.Machine
end

