-- ==== Sys2Proof/Machine/CeilingUnit.lean ====
section
/-! DEFINITION. The ceiling unit: effective leads (R88), lead terms (R89), preconditions (R94 to R96), stroke
choice (R90 to R93, R98 to R100), the pawl request (R101) and admission of a queued claim (R103). -/

namespace Sys2Proof.Machine

/-! ### Leads and terms (R88, R89) -/

/-- A value held between two bounds: raised to `lo`, then lowered to `hi` (R88). -/
def heldIn (lo hi v : Nat) : Nat := if v < lo then lo else if hi < v then hi else v

/-- The effective set lead of a stroke toward a stage (R88). -/
def setLeadEff (s : State) (k : StageIx) : Nat :=
  match stageEntryOf s k with
  | some e =>
    match e.setLead with
    | some v => heldIn s.cfg.l 8000 v
    | none => s.cfg.sl
  | none => s.cfg.sl

/-- The effective car lead of a stroke toward a stage (R88). -/
def carLeadEff (s : State) (k : StageIx) : Nat :=
  match stageEntryOf s k with
  | some e => heldIn s.cfg.l (setLeadEff s k) (e.carLead.getD s.cfg.cl)
  | none => s.cfg.cl

/-- A term from a floor, left out when the floor is absent (R89). -/
def minTerm (floor : Option Int) (lead : Nat) (c : Int) : Int :=
  match floor with
  | some m => min c (m + lead)
  | none => c

/-- The lowering counterpart of `minTerm` (R89). -/
def maxTerm (floor : Option Int) (lead : Nat) (f : Int) : Int :=
  match floor with
  | some m => max f (m - lead)
  | none => f

/-- The lead ceiling of a raising stroke (R89). -/
def leadCeiling (s : State) (r : StagedRec) : Int :=
  minTerm (setMin s) (setLeadEff s r.stage) (minTerm (carMin s) (carLeadEff s r.stage) r.effTarget)

/-- The floor of a lowering stroke (R89). -/
def leadFloor (s : State) (r : StagedRec) : Int :=
  maxTerm (setMax s) (setLeadEff s r.stage) (maxTerm (carMax s) (carLeadEff s r.stage) r.effTarget)

/-- A lift no greater than a raising term, which holds when the term's floor is absent (R99). -/
def underTerm (floor : Option Int) (lead : Nat) (x : Int) : Bool :=
  match floor with
  | some m => x ≤ m + lead
  | none => true

/-- The room test of a nudge's end (R99). -/
def nudgeFits (s : State) (x : Int) : Bool :=
  underTerm (carMin s) s.cfg.cl x && underTerm (setMin s) s.cfg.sl x

/-! ### Stroke classes and preconditions (R91, R94 to R96) -/

/-- The four stroke classes (R91). -/
inductive StrokeClass where
  | contact | raising | nudge | lowering
  deriving DecidableEq, Repr

/-- The class of a claimed stroke. -/
def classOf (r : Stroke) : StrokeClass :=
  match r.kind with
  | .contact => .contact
  | .nudge => .nudge
  | _ => if r.dir = .lower then .lowering else .raising

/-- The direction of a class: only a lowering stroke lowers (R91). -/
def classDir : StrokeClass → Direction
  | .lowering => .lower
  | _ => .raise

/-- The pawl state a class needs (R96, R126). -/
def classPawl : StrokeClass → PawlState
  | .lowering => .withdrawn
  | _ => .set

/-- The PEERS check passes (R94). -/
def peersPass (s : State) (c : StrokeClass) : Bool :=
  allLive s && !peerFault s && !anyHold s && !anyHalted s
    && (c != .lowering || s.ceiling.release || loweringReady s)

/-- The DWELL check passes (R96). -/
def dwellPass (s : State) (c : StrokeClass) : Bool :=
  s.engine.lastDir == .none || s.engine.lastDir == classDir c
    || s.engine.lastEnd.atLeast s.timeBase (10 * s.cfg.trev)

/-- The first precondition that fails, or NONE (R91). -/
def precondition (s : State) (c : StrokeClass) : WaitReason :=
  if !peersPass s c then .peers
  else if s.pawl.state != classPawl c then .pawl
  else if !dwellPass s c then .dwell
  else .none

/-! ### Stroke choice (R90, R92, R93, R98) -/

/-- Whether a stroke's end lies within A of T_eff (R93). -/
def isFinal (s : State) (r : StagedRec) (stop : Int) : Bool :=
  -(s.cfg.a : Int) ≤ r.effTarget - stop && r.effTarget - stop ≤ s.cfg.a

/-- A stroke toward the target of a kind and length (R98). -/
def towardTarget (s : State) (r : StagedRec) (h : Int) (kind : StrokeKind) (dir : Direction)
    (len : Nat) : Stroke :=
  let stop := if dir = .lower then h - len else h + len
  { kind := kind, dir := dir, start := h, stop := some stop, final := isFinal s r stop,
    stage := r.stage, length := len }

/-- The choice of a raising or lowering stroke from distance and room (R92). -/
def chooseStroke (s : State) (r : StagedRec) (h d g : Int) (dir : Direction) : Option Stroke :=
  if d ≤ s.cfg.l ∧ d ≤ g then some (towardTarget s r h .tail dir d.toNat)
  else if (s.cfg.l : Int) ≤ g then some (towardTarget s r h .full dir s.cfg.l)
  else if (s.settings.chop : Int) ≤ g then some (towardTarget s r h .chop dir s.settings.chop)
  else none

/-- The distance to T_eff in the stage's direction (R90). -/
def distance (s : State) (r : StagedRec) (h : Int) : Int :=
  if s.stage.dir = .lower then h - r.effTarget else r.effTarget - h

/-- A station with direction none, with d at most A, or with stage control waiting for the pawl to be SET, counts as
ARRIVED (R90). -/
def countsArrived (s : State) (r : StagedRec) (h : Int) : Bool :=
  s.stage.awaitingSet || s.stage.dir == .none || distance s r h ≤ s.cfg.a

/-- The length of a nudge (R99): N, or the room the screw has left. -/
def nudgeLength (s : State) : Nat := min s.cfg.n (topTravel - s.engine.travel)

/-- A nudge stroke (R98, R99). -/
def nudgeStroke (s : State) (r : StagedRec) (h : Int) : Stroke :=
  { kind := .nudge, dir := .raise, start := h, stop := some (h + nudgeLength s), final := false,
    stage := r.stage, length := nudgeLength s }

/-- A contact stroke (R98, R100). -/
def contactStroke (s : State) : Stroke :=
  { kind := .contact, dir := .raise, start := s.engine.travel, stop := none, final := false,
    stage := .stage 0, length := s.cfg.l }

/-! ### Evaluation (R86, R87, R102) -/

/-- Hands an offer on: outcome OFFER, wait reason SPACING (R102). -/
def giveOffer (r : Stroke) (s : State) : State :=
  let s := setReason .spacing s
  handOffer (some r) { s with ceiling := { s.ceiling with outcome := .offer r } }

/-- Outcome WAIT with its reason, and no offer (R102). -/
def giveWait (reason : WaitReason) (s : State) : State :=
  let s := setReason reason s
  handOffer none { s with ceiling := { s.ceiling with outcome := .wait } }

/-- Outcome ARRIVED, wait reason NONE, and no offer (R102). -/
def giveArrived (s : State) : State :=
  let s := setReason .none s
  handOffer none { s with ceiling := { s.ceiling with outcome := .arrived } }

/-- An offer, or a wait with reason LEAD (R92, R99). -/
def offerOrLead (o : Option Stroke) (s : State) : State :=
  match o with
  | some r => giveOffer r s
  | none => giveWait .lead s

/-- The evaluation of a station taking up (R100). -/
def evalTakeUp (s : State) : State :=
  if topTravel ≤ s.engine.travel then report .travelLimit none (giveWait .lead s)
  else
    match precondition s .contact with
    | .none => giveOffer (contactStroke s) s
    | reason => giveWait reason s

/-- The evaluation of a raising stroke (R91, R92). -/
def evalRaise (r : StagedRec) (h : Int) (s : State) : State :=
  match precondition s .raising with
  | .none => offerOrLead (chooseStroke s r h (distance s r h) (leadCeiling s r - h) .raise) s
  | reason => giveWait reason s

/-- The conditions of the pawl request that rest on the group and the pawl (R101). -/
def mayAskWithdraw (s : State) : Bool :=
  s.pawl.state == .set && allLive s && !peerFault s && !anyHold s && !anyHalted s

/-- The evaluation of a lowering stroke (R91, R92), with the pawl request of R101. -/
def evalLower (r : StagedRec) (h : Int) (s : State) : State :=
  let ask := mayAskWithdraw s
  let s' :=
    match precondition s .lowering with
    | .none => offerOrLead (chooseStroke s r h (distance s r h) (h - leadFloor s r) .lower) s
    | reason => giveWait reason s
  if ask then pawlWithdraw s' else s'

/-- Sets the lowering-release flag where R95 says so. -/
def markRelease (s : State) : State :=
  if s.stage.dir = .lower ∧ !s.ceiling.nudgeDue ∧ loweringReady s then
    { s with ceiling := { s.ceiling with release := true } }
  else s

/-- The evaluation of a nudge (R91, R99). A nudge of length 0 is skipped, and the lowering class is
evaluated at once. -/
def evalNudge (r : StagedRec) (h : Int) (s : State) : State :=
  match precondition s .nudge with
  | .none =>
    if nudgeLength s = 0 then
      let s := notify { s with ceiling := { s.ceiling with nudgeDue := false } }
      evalLower r h (markRelease s)
    else if nudgeFits s (h + nudgeLength s) then giveOffer (nudgeStroke s r h) s
    else giveWait .lead s
  | reason => giveWait reason s

/-- A full evaluation at REST in MOVING (R90, R91). -/
def evalAtRest (s : State) : State :=
  match s.stagedRec, s.lift with
  | some r, some h =>
    let s := markRelease s
    if countsArrived s r h then giveArrived s
    else
      match s.stage.dir with
      | .lower => if s.ceiling.nudgeDue then evalNudge r h s else evalLower r h s
      | _ => evalRaise r h s
  | _, _ => evalTakeUp s

/-- Whether a queued claim's end lies within the present lead terms of its class (R103). -/
def endFits (s : State) (c : Stroke) : Bool :=
  match classOf c, s.stagedRec, c.stop with
  | .contact, _, _ => true
  | .nudge, some _, some z => nudgeFits s z
  | .raising, some r, some z => z ≤ leadCeiling s r
  | .lowering, some r, some z => leadFloor s r ≤ z
  | _, _, _ => false

/-- Whether the ceiling unit still admits a queued claim (R103). -/
def admits (s : State) (c : Stroke) : Bool := peersPass s (classOf c) && endFits s c

/-- An evaluation (R86): IDLE outside MOVING and in RUNNING; in CLAIMING only the admission test. -/
def evaluate (s : State) : State :=
  if s.mode = .moving then
    match s.engine.stroke with
    | .running _ _ => ceilingIdle s
    | .claiming c =>
      let ok := admits s c
      let s := { s with spacing := { s.spacing with admitted := ok } }
      if ok then s else requestWithdrawal s
    | .rest => evalAtRest s
  else ceilingIdle s

end Sys2Proof.Machine
end

