-- ==== Sys2Proof/Machine/Settle.lean ====
section
/-! DEFINITION. How one command settles: the readers of an update notice (R58, R87), the line-busy limit (R15)
and the lamps (R191). -/

namespace Sys2Proof.Machine

/-! ### Readers of a notice -/

/-- Stage control's wait for the pawl ends in a hand-over at SET while still in MOVING (R82). -/
def awaitTest (s : State) : State :=
  if s.stage.awaitingSet ∧ s.mode = .moving ∧ s.pawl.state = .set then
    handOverArrival { s with stage := { s.stage with awaitingSet := false } }
  else s

/-- A SETTLED station that finds rest(k) at its own stage enters IDLE (R173). -/
def restTest (s : State) : State :=
  match s.stageIx with
  | some (.stage k) => if s.mode = .settled ∧ restAt s k then enterIdle s else s
  | _ => s

/-- The readers of a notice, in one fixed order; R58 needs none between them. The share evaluation comes first, so
that a column out of its band is found before a hand-over or rest takes the check away. -/
def readers (s : State) : State := evaluate (restTest (awaitTest (shareEval s)))

/-- Lets the readers take notices until none is outstanding. Each round that leaves a new notice has used
up something a command cannot give back (a claim, a wait, MOVING, SETTLED, a pawl at SET, a due nudge),
so a few rounds suffice; the first argument bounds them. -/
def settle : Nat → State → State
  | 0, s => s
  | n + 1, s => if s.notice then settle n (readers { s with notice := false }) else s

/-- Rounds enough for every command. -/
def settleRounds : Nat := 12

/-! ### Line-busy limit (R15) -/

/-- A frame is ready to be offered (R12). -/
def frameReady (s : State) : Bool :=
  s.line.haltSlot.isSome || s.line.claim != .empty || !s.line.orderQueue.isEmpty
    || s.line.posePending || !s.line.planQueue.isEmpty || s.line.rollPending

/-- Arms the line-busy limit when a frame is ready and the line is not idle (R15). -/
def armBusy (s : State) : State :=
  if s.line.busyLimit = none ∧ s.line.idle = false ∧ frameReady s then
    { s with line := { s.line with busyLimit := armed s.timeBase busyLimitUnits } }
  else s

/-! ### Lamps (R191) -/

/-- The lamp indication of the first row of R191 that applies. -/
def indicationOf (s : State) : Indication :=
  match s.mode with
  | .halted => .redSteady
  | .barred => .redFlashing
  | .rollcall => .greenAmberAlternating
  | .hold => .amberSteady
  | .moving => if s.lamps.waitingLong then .amberSteady else .greenFlashing
  | .settled => .greenFlashingAmberSteady
  | .idle => .greenSteady
  | .unstaged => .amberFlashing

/-- The lamps follow the state. -/
def refreshLamps (s : State) : State :=
  { s with lamps := { s.lamps with shown := indicationOf s } }

/-- A flashing lamp is lit: in the first or in the second 250 ms of the flash, as the free value says (R191). -/
def flashOn (s : State) : Bool := decide (s.lamps.flash < flashUnits) == Config.flashLitFirst

/-- The green, amber and red lamps (R191). -/
def lampLevels (s : State) : Bool × Bool × Bool :=
  match s.lamps.shown with
  | .redSteady => (false, false, true)
  | .redFlashing => (false, false, flashOn s)
  | .greenAmberAlternating => (flashOn s, !flashOn s, false)
  | .amberSteady => (false, true, false)
  | .greenFlashing => (flashOn s, false, false)
  | .greenFlashingAmberSteady => (flashOn s, true, false)
  | .greenSteady => (true, false, false)
  | .amberFlashing => (false, flashOn s, false)

/-- No notice is outstanding. -/
def clearNotice (s : State) : State := { s with notice := false }

/-- What ends every command: notices settle, the line-busy limit is armed where R15 asks, and the lamps
follow. -/
def finish (s : State) : State := refreshLamps (armBusy (clearNotice (settle settleRounds s)))

end Sys2Proof.Machine
end

