-- ==== Sys2Proof/Machine/LineCtl.lean ====
section
/-! DEFINITION. The line controller: the offer at a start bit and the assembly of POSE and ROLL (R8, R12,
R30), lost and won arbitration (R13, R14), bit errors and the line-busy limit (R13, R15), bad and
malformed frames (R16), and the completion of an own frame (R13). -/

namespace Sys2Proof.Machine

/-! ### Assembly (R12, R30) -/

/-- A frame of the station's own, precedence 0 (R4, R5). -/
def ownFrame (s : State) (kind : BitVec 3) (payload : List Byte) : WireFrame :=
  ⟨kind, 0, BitVec.ofNat 6 s.own, payload⟩

/-- The POSE content at this moment (R8). -/
def poseNow (s : State) : PoseMsg :=
  { mode := s.mode, pawl := s.pawl.state, flight := s.flight, rejoined := s.modeCtl.rejoined,
    dir := s.stage.dir, reason := s.ceiling.reason, stage := s.stageIx,
    load := s.loadMon.present, planTag := s.plan.tag, faults := latchedSet s, lift := s.lift,
    committedEnd := s.committedEnd }

/-- The sender mode of the station's ROLL frames (R30). -/
def rollModeNow (s : State) : RollMode :=
  match s.mode with
  | .rollcall => .rollcall
  | .barred => .barred
  | _ => .frozen

/-- The retained summary: stage index and plan tag of staged retained content (R30). -/
def summaryOf (c : RetContent) : Option (StageIx × Nat) :=
  c.staged.map fun r => (r.stage, planTag c.plan)

/-- The ROLL content at this moment (R30). -/
def rollNow (s : State) : RollMsg :=
  { serial := s.serial, car := s.straps.car.val, feeder := s.straps.feeder.val,
    share := s.straps.share.val, mode := rollModeNow s, tag := s.settings.tag,
    summary := summaryOf s.retained.content }

/-- The frame that the line controller offers: that of the first place that is not empty (R11, R12). -/
def offerNow (s : State) : Option WireFrame :=
  match s.line.haltSlot with
  | some w => some w
  | none =>
    match s.line.claim with
    | .waiting w => some w
    | _ =>
      match s.line.orderQueue with
      | w :: _ => some w
      | [] =>
        if s.line.posePending then some (ownFrame s kindPose (posePayload (poseNow s)))
        else
          match s.line.planQueue with
          | w :: _ => some w
          | [] =>
            if s.line.rollPending then some (ownFrame s kindRoll (rollPayload (rollNow s)))
            else none

/-- A waiting claim that is offered is on the line (R14). -/
def contend (c : ClaimSlot) : ClaimSlot :=
  match c with
  | .waiting f => .contending f false
  | c => c

/-- A start bit (R1, R12, R14, R15): the line is idle, so the line-busy limit is disarmed; the first place
that is not empty is offered, and a claim that waits is on the line unless a HALT goes before it. The
line is busy again when this or another station sends. -/
def startFrame (peerStarts : Bool) (s : State) : State :=
  { s with line :=
      { s.line with
        idle := (offerNow s).isNone && !peerStarts
        attempt := offerNow s
        claim := if s.line.haltSlot.isNone then contend s.line.claim else s.line.claim
        busyLimit := none } }

/-- LINE_IDLE_START_BIT (R1, R12). While an own frame is on the line it cannot be idle, and nothing
happens. -/
def execLineIdleStartBit (peerStarts : Bool) (s : State) : Host.Outcome State Fault Refusal :=
  if s.line.attempt.isSome then .next s else .next (finish (startFrame peerStarts s))

/-! ### How an attempt ends (R13, R14) -/

/-- The CLAIM slot and the held answer when a claim leaves the line without completing (R14, R113): a
withdrawal held in CONTENDING takes effect; otherwise the claim waits again. -/
def claimOffLine (s : State) : State :=
  match s.line.claim with
  | .contending f held =>
    let s := { s with line := { s.line with claim := .waiting f } }
    if held then requestWithdrawal s else s
  | .committed f => { s with line := { s.line with claim := .waiting f } }
  | _ => s

/-- The claim in the slot has won arbitration (R14). -/
def claimCommitted (s : State) : Bool :=
  match s.line.claim with
  | .committed _ => true
  | _ => false

/-- The own frame on the line is the claim (R14). -/
def claimOnLine (s : State) : Bool :=
  match s.line.claim with
  | .contending _ _ | .committed _ => true
  | _ => false

/-- The own frame leaves the line without completing (R12, R13): its pending mark stands, and takes in a
request that arrived while the frame was on the line. -/
def dropAttempt (s : State) : State :=
  { s with line :=
      { s.line with
        attempt := none
        posePending := s.line.posePending || s.line.poseAgain
        poseAgain := false
        rollPending := s.line.rollPending || s.line.rollAgain
        rollAgain := false } }

/-- LOST_ARBITRATION (R13, R14): the frame stays in its place; a claim returns to WAITING or is withdrawn.
A claim that has already won the key cannot lose it. -/
def execLostArbitration (s : State) : Host.Outcome State Fault Refusal :=
  if s.line.attempt.isNone || claimCommitted s then .next s
  else .next (finish (claimOffLine (dropAttempt s)))

/-- WON_ARBITRATION (R14): a CONTENDING claim is COMMITTED, and a held request is answered "committed",
which sets the held-withdrawal mark (R113). -/
def execWonArbitration (s : State) : Host.Outcome State Fault Refusal :=
  match s.line.attempt, s.line.claim with
  | some _, .contending f held =>
    .next <| finish { s with
      line := { s.line with claim := .committed f }
      spacing := { s.spacing with held := s.spacing.held || held } }
  | _, _ => .next s

/-- One transmit failure (R15): the count stays at 16; reaching it makes LINE active and reports an
occurrence. -/
def countFailure (s : State) : State :=
  let n := bump 16 s.line.failures
  let t := { s with line := { s.line with failures := n } }
  if s.line.failures < 16 ∧ n = 16 then report .line none (setActive .line true t) else t

/-- The failed attempt of a claim at the spacing unit (R115): a held request is answered "withdrawn"; else
the claim stands or is withdrawn. -/
def failedClaim (s : State) : State :=
  let t := claimOffLine s
  match t.line.claim with
  | .waiting _ => if claimStands t then t else requestWithdrawal t
  | _ => t

/-- The attempt ends in a bit error (R13, R15): the line is busy until idle, a claim's failed attempt goes to
the spacing unit, and one failure is counted. -/
def failAttempt (s : State) : State :=
  let t := dropAttempt { s with line := { s.line with idle := false } }
  countFailure (if claimOnLine s then failedClaim t else t)

/-- BIT_ERROR (R13, R14, R15). -/
def execBitError (s : State) : Host.Outcome State Fault Refusal :=
  if s.line.attempt.isNone then .next s else .next (finish (failAttempt s))

/-- LINE_BUSY_LIMIT_EXPIRY (R15): one failure, and the compare is armed again for 10 ms. -/
def execLineBusyLimitExpiry (s : State) : Host.Outcome State Fault Refusal :=
  if due s.timeBase s.line.busyLimit then
    .next <| finish <| countFailure
      { s with line := { s.line with busyLimit := armed s.timeBase busyLimitUnits } }
  else .next s

/-! ### Frames not delivered (R16) -/

/-- BAD_FRAME (R16): levels that a receiver reads as a frame in error, or one that fails its CRC, count one
bad frame. The line is busy until it is found idle again. -/
def execBadFrame (levels : List Level) (s : State) : Host.Outcome State Fault Refusal :=
  match readLevels levels with
  | .complete _ => .next s
  | _ =>
    .next <| finish { s with
      line := { s.line with idle := false, badFrames := bump 65535 s.line.badFrames } }

/-- A frame has completed: the line is not idle until the intermission is over (R1). -/
def lineBusy (s : State) : State := { s with line := { s.line with idle := false } }

/-- MALFORMED_FRAME (R16): counts one discarded frame. A frame that is not malformed is not this command's,
and changes nothing. -/
def execMalformedFrame (w : WireFrame) (s : State) : Host.Outcome State Fault Refusal :=
  if malformed w then .next <| finish (countDiscarded (lineBusy s)) else .next s

/-! ### Completion of an own frame (R13) -/

/-- The frame that completes is the one this station has on the line: same key. -/
def isOwnAttempt (s : State) (w : WireFrame) : Bool :=
  match s.line.attempt with
  | some a => a.kind == w.kind && a.prec == w.prec && a.station == w.station
  | none => false

/-- The frame leaves its place (R12, R13). A POSE re-arms the pose period; a mark asked for during the
transmission stays pending. A CLAIM leaves its slot at the claim taken (R118). -/
def leavePlace (kind : BitVec 3) (s : State) : State :=
  let l := s.line
  let l :=
    if kind = kindHalt then { l with haltSlot := none }
    else if kind = kindOrder then { l with orderQueue := l.orderQueue.tail }
    else if kind = kindPlan then { l with planQueue := l.planQueue.tail }
    else if kind = kindPose then
      { l with posePending := l.poseAgain, poseAgain := false,
               posePeriod := armed s.timeBase (10 * s.cfg.p) }
    else if kind = kindRoll then { l with rollPending := l.rollAgain, rollAgain := false }
    else l
  { s with line := l }

/-- An own transmission completes (R13, R15): the failure count returns to 0 and the LINE condition ends. -/
def completeOwn (kind : BitVec 3) (s : State) : State :=
  setActive .line false <| leavePlace kind
    { s with line := { s.line with attempt := none, failures := 0 } }

/-- A frame completes on the line: if it is the station's own, its transmission completes (R13). -/
def frameArrives (w : WireFrame) (s : State) : State :=
  if isOwnAttempt s w && w.kind != kindClaim then completeOwn w.kind (lineBusy s) else lineBusy s

/-- POSE_PERIOD_EXPIRY (R12): the POSE slot is marked pending. -/
def execPosePeriodExpiry (s : State) : Host.Outcome State Fault Refusal :=
  if due s.timeBase s.line.posePeriod then
    .next <| finish <| requestPose { s with line := { s.line with posePeriod := none } }
  else .next s

end Sys2Proof.Machine
end

