-- ==== Sys2Proof/Machine/RollCall.lean ====
section
/-! DEFINITION. The roll-call unit: candidates (R28, R31), entry to BARRED (R34), freeze, the retained decision
and rejoin (R35 to R37, R47, R54, R167), ROLL answers (R38, R39), and the roll compares (R32, R33). -/

namespace Sys2Proof.Machine

/-! ### Entry to BARRED (R34) -/

/-- POSE sending begins: the slot is marked pending and the pose period armed (R12). -/
def beginPose (s : State) : State :=
  { s with line :=
      { s.line with posePending := true, posePeriod := armed s.timeBase (10 * s.cfg.p) } }

/-- Disarms the roll quiet and roll limit compares (R34, R35). -/
def closeWindow (s : State) : State := { s with roll := { s.roll with quiet := none, limit := none } }

/-- Entry to BARRED (R34, R45, R166): window closed, table discarded, staged content dropped without a
hand-over, POSE sending begun, pawl commanded SET. -/
def enterBarred (s : State) : State :=
  let s := closeWindow s
  let s := { s with
    table := none
    stage := { record := .unstaged, dir := .none, awaitingSet := false } }
  pawlSet (ceilingIdle (beginPose (setMode .barred s)))

/-! ### Candidates (R28, R31) -/

/-- Puts a candidate in its place by number, replacing one of the same number. -/
def insertCandidate (c : Candidate) : List Candidate → List Candidate
  | [] => [c]
  | d :: ds =>
    if c.number < d.number then c :: d :: ds
    else if c.number = d.number then c :: ds
    else d :: insertCandidate c ds

/-- A candidate entry from a ROLL (R28). -/
def candidateOf (now : Time) (n : Nat) (m : RollMsg) : Candidate :=
  { number := n, serial := m.serial, car := m.car, feeder := m.feeder, share := m.share,
    mode := m.mode, summary := m.summary, lastRoll := Stamp.written now }

/-- The candidate of a number. -/
def candidate (s : State) (n : Nat) : Option Candidate :=
  s.roll.candidates.find? fun c => c.number == n

/-- Arms the roll quiet compare for R_q. -/
def armQuiet (s : State) : State :=
  { s with roll := { s.roll with quiet := armed s.timeBase (10 * s.cfg.rq) } }

/-- Replaces the candidate set. -/
def setCandidates (cs : List Candidate) (s : State) : State :=
  { s with roll := { s.roll with candidates := cs } }

/-- A ROLL in ROLLCALL (R31). -/
def rollInWindow (n : Nat) (m : RollMsg) (s : State) : State :=
  if 48 ≤ n then report .configMismatch (some n) s
  else if m.tag ≠ s.settings.tag then report .configMismatch (some n) s
  else
    let new := insertCandidate (candidateOf s.timeBase n m) s.roll.candidates
    match candidate s n with
    | some c =>
      if c.serial = m.serial then setCandidates new s else report .duplicate (some n) s
    | none =>
      let s := armQuiet (setCandidates new s)
      if s.cfg.m < s.roll.candidates.length then enterBarred (report .memberCount none s) else s

/-! ### Freeze (R35, R47, R54) -/

/-- The interval a row's silence compare is armed with at freeze (R54). -/
def silenceAtFreeze (s : State) (st : Stamp) : Nat :=
  if st.expired then 0 else s.cfg.s * s.cfg.p * 10 - st.age s.timeBase

/-- A row's fixed fields from its candidate (R35). -/
def fixedOf (c : Candidate) : RowFixed := ⟨c.number, c.car, c.feeder, c.share, c.serial⟩

/-- A row's marks at freeze (R47, R54). -/
def marksAtFreeze (s : State) (c : Candidate) : RowMarks :=
  { live := .live, lastHeard := c.lastRoll, lastClaim := Stamp.unwritten,
    silence := armed s.timeBase (silenceAtFreeze s c.lastRoll) }

/-- Adds the PEER_SILENT mark to a fault set when the mode is ROLLCALL or BARRED (R53). -/
def markSilent (mode : Mode) (set : BitVec 16) : BitVec 16 :=
  if mode = .rollcall ∨ mode = .barred then set ||| kindBit .peerSilent else set

/-- A peer row's first reported values (R47, R53). -/
def reportAtFreeze (c : Candidate) : Report :=
  let mode : Mode := if c.mode = .barred then .barred else .rollcall
  { mode := mode, lift := none, flight := .none, committedEnd := none, load := 0, pawl := .set,
    stage := c.summary.map (·.1), dir := .none, planTag := (c.summary.map (·.2)).getD 0,
    faults := markSilent mode 0, rejoined := false }

/-- The table built at freeze (R35, R47). -/
def tableAtFreeze (s : State) : PeerTable :=
  let self := (candidate s s.own).getD
    ⟨s.own, s.serial, s.straps.car.val, s.straps.feeder.val, s.straps.share.val, .rollcall, none,
     Stamp.unwritten⟩
  { selfFixed := fixedOf self
    selfMarks := marksAtFreeze s self
    peers := (s.roll.candidates.filter fun c => c.number != s.own).map fun c =>
      ⟨fixedOf c, reportAtFreeze c, marksAtFreeze s c⟩ }

/-- The rejoin check (R37). -/
def rejoinAgrees (s : State) (r : RetStage) : Bool :=
  s.roll.candidates.all fun c =>
    c.number == s.own ||
      match c.summary with
      | none => true
      | some (k, tag) => k == r.stage && tag == s.plan.tag

/-- Leaves ROLLCALL for a mode with a table, or for HALTED when a halt-class kind is latched (R167). -/
def leaveRollcall (enter : State → State) (s : State) : State :=
  let s :=
    match firstHaltKind s with
    | some k => recordStop .halted .fault (some k) none (enterHalted s)
    | none => enter s
  beginPose s

/-- BARRED with RETAINED_LOST (R36). -/
def retainedLost (s : State) : State := enterBarred (report .retainedLost none s)

/-- The rejoin (R37, R73): the retained stage is taken as the station's stage, and the rejoined flag set. -/
def rejoin (r : RetStage) (s : State) : State :=
  leaveRollcall enterHold { s with
    stage := { s.stage with record := .staged (stagedAt s r.contactZero r.stage) }
    modeCtl := { s.modeCtl with rejoined := true } }

/-- The retained decision (R36). -/
def retainedDecision (s : State) : State :=
  if s.retained.validAtStart then
    match s.stage.record with
    | .restored r => if rejoinAgrees s r then rejoin r s else retainedLost s
    | _ => leaveRollcall enterUnstaged s
  else if s.loadMon.present < s.cfg.wc then leaveRollcall enterUnstaged s
  else retainedLost s

/-- Freeze (R35): window closed, table built, members kept, and the retained decision. -/
def freeze (s : State) : State :=
  let s := closeWindow s
  retainedDecision { s with
    table := some (tableAtFreeze s)
    roll := { s.roll with members := s.roll.candidates.map (·.number) } }

/-- ROLL_QUIET_EXPIRY (R32). -/
def execRollQuietExpiry (s : State) : Host.Outcome State Fault Refusal :=
  if due s.timeBase s.roll.quiet then
    let s := { s with roll := { s.roll with quiet := none } }
    .next <| finish <|
      if s.mode = .rollcall ∧ s.roll.candidates.length = s.cfg.m then
        if rollFaultLatched s then enterBarred s else freeze s
      else s
  else .next s

/-- ROLL_LIMIT_EXPIRY (R33). -/
def execRollLimitExpiry (s : State) : Host.Outcome State Fault Refusal :=
  if due s.timeBase s.roll.limit then
    let s := { s with roll := { s.roll with limit := none } }
    .next <| finish <|
      if s.mode = .rollcall then enterBarred (report .memberCount none s) else s
  else .next s

/-! ### Answers (R38, R39) -/

/-- Arms the pacing compare for 250 ms. -/
def armPacing (s : State) : State :=
  { s with roll := { s.roll with pacing := armed s.timeBase pacingUnits } }

/-- An answerable ROLL (R38): answered at once while the pacing compare is disarmed, else owed. -/
def answerRoll (s : State) : State :=
  match s.roll.pacing with
  | none => armPacing (requestRoll s)
  | some _ => { s with roll := { s.roll with answerOwed := true } }

/-- ROLL_PACING_EXPIRY (R29, R38). -/
def execRollPacingExpiry (s : State) : Host.Outcome State Fault Refusal :=
  if due s.timeBase s.roll.pacing then
    let s := { s with roll := { s.roll with pacing := none } }
    .next <| finish <|
      if s.mode = .rollcall then armPacing (requestRoll s)
      else if s.roll.answerOwed then
        armPacing (requestRoll { s with roll := { s.roll with answerOwed := false } })
      else s
  else .next s

/-- A barred station recognises its candidates, or, barred for an invalid strap, every sender numbered 0
to 47 (R38). -/
def recognisedBarred (s : State) (n : Nat) : Bool :=
  if 48 ≤ s.own then n < 48 else s.roll.candidates.any fun c => c.number == n

/-- A ROLL in BARRED (R38). Whether a frame comes from another station is judged by its number alone, so a ROLL with
the station's own number is never answered, also where another module sent it (DESIGN CHOICE, assumption 36). -/
def rollInBarred (n : Nat) (m : RollMsg) (s : State) : State :=
  if n ≠ s.own ∧ m.mode = .rollcall ∧ recognisedBarred s n then answerRoll s else s

end Sys2Proof.Machine
end

