-- ==== Sys2Proof/Machine/Frames.lean ====
section
/-! DEFINITION. Frames as the peer table and the spacing unit take them: delivery (R17, R18), signs of life
and row updates (R49 to R53, R56), silence (R55), claims (R108, R118, R126, R127), and the frame
commands ROLL, POSE, CLAIM and CLAIM TAKEN. -/

namespace Sys2Proof.Machine

/-! ### Rows (R49, R56) -/

/-- Changes one row's marks. -/
def mapMarks (n : Nat) (f : RowMarks → RowMarks) (t : PeerTable) : PeerTable :=
  if t.selfFixed.number = n then { t with selfMarks := f t.selfMarks }
  else
    { t with peers := t.peers.map fun r => if r.fixed.number = n then { r with marks := f r.marks } else r }

/-- Changes one peer's reported fields; the self row's are the station's own state (R48). -/
def mapReport (n : Nat) (f : Report → Report) (t : PeerTable) : PeerTable :=
  { t with
    peers := t.peers.map fun r => if r.fixed.number = n then { r with report := f r.report } else r }

/-- Changes the table, if there is one, with its notice (R58). -/
def onTable (f : PeerTable → PeerTable) (s : State) : State :=
  notify { s with table := s.table.map f }

/-- The silence limit, S × P, in time-base units (R54). -/
def silenceUnits (s : State) : Nat := s.cfg.s * s.cfg.p * 10

/-- A sign of life (R49, R56): the last-heard stamp, LIVE, the silence compare; when the last LOST row
becomes LIVE the PEER_SILENT condition ends. -/
def signOfLife (n : Nat) (s : State) : State :=
  let wasLost := (allRows s).any fun r => r.fixed.number == n && !r.isLive
  let s := onTable (mapMarks n fun m =>
    { m with
      live := .live
      lastHeard := Stamp.written s.timeBase
      silence := armed s.timeBase (silenceUnits s) }) s
  if wasLost && allLive s then setActive .peerSilent false s else s

/-- SILENCE_EXPIRY (R55, R57): the row becomes LOST, PEER_SILENT becomes active if this is the only LOST
row, and an occurrence naming the member is reported. -/
def execSilenceExpiry (n : Nat) (s : State) : Host.Outcome State Fault Refusal :=
  match rowOf s n with
  | none => .next s
  | some r =>
    if due s.timeBase r.marks.silence then
      let others := (allRows s).all fun q => q.fixed.number == n || q.isLive
      let s := onTable (mapMarks n fun m => { m with live := .lost, silence := none }) s
      let s := if others then setActive .peerSilent true s else s
      .next <| finish (report .peerSilent (some n) s)
    else .next s

/-! ### Delivery (R16, R17) -/

/-- A frame of any kind but ROLL: dropped without a count in ROLLCALL and BARRED; else a member's frame is
a sign of life and acts, and a non-member's counts one discarded frame (R17, R49). -/
def deliver (n : Nat) (act : State → State) (s : State) : State :=
  if s.mode = .rollcall ∨ s.mode = .barred then s
  else if isMember s n then act (signOfLife n s)
  else countDiscarded s

/-- Reception of a complete frame: the line's part, then the content, or one discarded frame when it is
malformed (R13, R16). An own RESUME that completes while LINE is active ends the condition and is acted on at one
moment, without an order (R13, R15, R171, R172): the condition ends first (DESIGN CHOICE, assumption 32). -/
def receive (w : WireFrame) (act : Content → State → State) (s : State) :
    Host.Outcome State Fault Refusal :=
  let s := frameArrives w s
  .next <| finish <|
    match contentOf w with
    | none => countDiscarded s
    | some c => act c s

/-! ### ROLL (R31, R38, R39, R52) -/

/-- A member's ROLL at the peer table, its serial being right (R52, R53). -/
def rollToRow (n : Nat) (mode : RollMode) (s : State) : State :=
  match mode with
  | .frozen => s
  | m =>
    let mode : Mode := if m = .barred then .barred else .rollcall
    onTable (mapReport n fun r =>
      { r with mode := mode, lift := none, committedEnd := none, stage := none, flight := .none,
               faults := markSilent mode r.faults }) s

/-- A member's ROLL after freeze (R38, R39, R52). Whether it comes from another station is judged by its number
(DESIGN CHOICE, assumption 36). -/
def rollFromMember (n : Nat) (m : RollMsg) (r : Row) (s : State) : State :=
  let s := signOfLife n s
  if r.fixed.serial = m.serial then
    let s := rollToRow n m.mode s
    if n ≠ s.own ∧ m.mode = .rollcall then answerRoll s else s
  else report .stranger (some n) s

/-- A ROLL by mode and sender (R17). -/
def takeRoll (n : Nat) (m : RollMsg) (s : State) : State :=
  match s.mode with
  | .rollcall => rollInWindow n m s
  | .barred => rollInBarred n m s
  | _ =>
    match rowOf s n with
    | some r => rollFromMember n m r s
    | none => report .stranger (some n) s

/-- A ROLL's content at the roll-call unit and the peer table. -/
def actRoll (n : Nat) (c : Content) (s : State) : State :=
  match c with
  | .roll m => takeRoll n m s
  | _ => s

/-- ROLL_FRAME (R31, R38, R39, R52). -/
def execRollFrame (f : RxFrame) (s : State) : Host.Outcome State Fault Refusal :=
  receive (wire kindRoll f) (actRoll f.station.toNat) s

/-! ### CLAIM (R51, R108, R112) -/

/-- A member's row as its CLAIM is heard (R51). -/
def claimToRow (m : ClaimMsg) (r : Report) : Report :=
  if m.kind = .contact then { r with flight := m.dir, lift := none, committedEnd := none }
  else { r with flight := m.dir, lift := some m.start, committedEnd := m.stop }

/-- Writes a row's last-claim stamp (R51). -/
def stampRowClaim (n : Nat) (s : State) : State :=
  onTable (mapMarks n fun m => { m with lastClaim := Stamp.written s.timeBase }) s

/-- A CLAIM from a member at the peer table and the spacing unit (R51, R108, R112). A frame with the
station's own number that it did not send moves the stamps only. -/
def takeClaim (n : Nat) (m : ClaimMsg) (s : State) : State :=
  match rowOf s n with
  | none => s
  | some r =>
    let s := stampClaim r.fixed.feeder (stampRowClaim n s)
    if n = s.own then s
    else withdrawForClaim r.fixed.feeder (onTable (mapReport n (claimToRow m)) s)

/-- A CLAIM's content, delivered. -/
def actClaim (n : Nat) (c : Content) (s : State) : State :=
  match c with
  | .claim m => deliver n (takeClaim n m) s
  | _ => s

/-- CLAIM_FRAME (R108): a CLAIM from another station. -/
def execClaimFrame (f : RxFrame) (s : State) : Host.Outcome State Fault Refusal :=
  receive (wire kindClaim f) (actClaim f.station.toNat) s

/-! ### The claim taken (R118, R126, R127) -/

/-- How far the column has moved in the stroke's direction since the stroke's start was taken (R126). -/
def movedSince (s : State) (r : Stroke) : Int :=
  let here : Int :=
    match r.kind, s.lift with
    | .contact, _ => s.engine.travel
    | _, some h => h
    | _, none => s.engine.travel
  if r.dir = .lower then r.start - here else here - r.start

/-- The starting remaining count (R126). -/
def startingCount (s : State) (r : Stroke) : Int := r.length - movedSince s r

/-- The stroke runs (R126): RUNNING with its remaining count, time limit armed, drive on, ceiling unit IDLE
(R86); a contact stroke arms the contact watch, which tests at once (R157). -/
def runStroke (r : Stroke) (count : Nat) (s : State) : State :=
  let s := ceilingIdle <| notify { s with
    engine :=
      { s.engine with
        stroke := .running r count
        limit := armed s.timeBase (10 * s.cfg.tst)
        drive := driveOf s.engine.source (.running r count) s.engine.jog } }
  if r.kind = .contact then contactTest { s with loadMon := { s.loadMon with watch := true } }
  else s

/-- A void claim (R127): REST, record discarded, POSE requested; a starting count above L + A is DRIFT. -/
def voidClaim (tooFar : Bool) (s : State) : State :=
  let s := requestPose (notify { s with engine := { s.engine with stroke := .rest } })
  if tooFar then report .drift none s else s

/-- The stroke engine at the claim taken (R126, R127). `held` is the held-withdrawal mark as it stood. -/
def engineOnClaim (held : Bool) (s : State) : State :=
  match s.engine.stroke with
  | .claiming r =>
    let count := startingCount s r
    let tooFar : Bool := ((s.cfg.l : Int) + s.cfg.a) < count
    if s.mode = .moving ∧ held = false ∧ s.pawl.state = classPawl (classOf r) ∧ tooFar = false then
      if count ≤ 0 then strokeEnd r s else runStroke r count.toNat s
    else voidClaim tooFar s
  | _ => s

/-- The own CLAIM completes (R13, R14, R118). -/
def claimIsTaken (s : State) : State :=
  let held := s.spacing.held
  let s := lineBusy s
  let s := completeOwn kindClaim { s with line := { s.line with claim := .empty } }
  if s.mode = .rollcall ∨ s.mode = .barred then s
  else
    let s := stampRowClaim s.own (signOfLife s.own s)
    let s := stampClaim s.straps.feeder.val s
    engineOnClaim held { s with spacing := { s.spacing with withdrawals := 0, held := false } }

/-- CLAIM_TAKEN (R118): an own CLAIM completes only from COMMITTED (R14). -/
def execClaimTaken (s : State) : Host.Outcome State Fault Refusal :=
  match s.line.claim with
  | .committed _ => .next (finish (claimIsTaken s))
  | _ => .next s

/-- SPACING_INSTANT_EXPIRY (R110). -/
def execSpacingInstantExpiry (s : State) : Host.Outcome State Fault Refusal :=
  if due s.timeBase s.spacing.instant then
    .next <| finish <| tryQueue { s with spacing := { s.spacing with instant := none } }
  else .next s

end Sys2Proof.Machine
end

