-- ==== Sys2Proof/Machine/Orders.lean ====
section
/-! DEFINITION. Mode control and the plan store at frames from members: orders (R168 to R172), POSE with
contagion and catch-up join (R50, R174 to R176), HALT (R178), and plan operations (R66 to R70). -/

namespace Sys2Proof.Machine

/-! ### Checks and stages (R169) -/

/-- The refusal of an order for plan disagreement also reports PLAN_MISMATCH (R169, R171). -/
def refuseOrder (kind : RefusedKind) (reason : Reason) (n : Nat) (s : State) : State :=
  let s := refuse kind reason n s
  if reason = .planDisagree then report .planMismatch (firstDisagreeing s) s else s

/-- The checks that every order in IDLE makes: all-live, plan-agreed, no own fault (R169). -/
def groupCheck (s : State) : Option Reason :=
  if !allLive s then some .notAllLive
  else if !planAgreed s then some .planDisagree
  else if ownFault s then some .ownFault
  else none

/-- The stage that an ADVANCE from the present stage enters; none at the last stage (R169). -/
def stageAbove (s : State) : Option StageIx :=
  match s.stageIx with
  | some (.stage k) => if k < s.plan.active.length then some (.stage (k + 1)) else none
  | _ => none

/-- The stage that a RETREAT from the present stage enters (R169). -/
def stageBelow (s : State) : Option StageIx :=
  match s.stageIx with
  | some (.stage (k + 1)) => some (.stage k)
  | some (.stage 0) => some .setdown
  | _ => none

/-- A stage entry followed by MOVING (R76, R169). -/
def moveTo (k : StageIx) (s : State) : State := enterMoving (stageEntry k s)

/-- ADVANCE at mode control (R169). -/
def takeAdvance (n : Nat) (s : State) : State :=
  match s.mode with
  | .unstaged =>
    if !allUnstaged s then refuseOrder .advance .notAllUnstaged n s
    else if ownFault s then refuseOrder .advance .ownFault n s
    else takeUp s
  | .idle =>
    match stageAbove s with
    | none => refuseOrder .advance .lastStage n s
    | some k =>
      match groupCheck s with
      | some why => refuseOrder .advance why n s
      | none => moveTo k s
  | _ => refuseOrder .advance .mode n s

/-- RETREAT at mode control (R169). -/
def takeRetreat (n : Nat) (s : State) : State :=
  match s.mode with
  | .idle =>
    match groupCheck s with
    | some why => refuseOrder .retreat why n s
    | none =>
      match stageBelow s with
      | some k => moveTo k s
      | none => refuseOrder .retreat .mode n s
  | _ => refuseOrder .retreat .mode n s

/-- STOP at mode control (R170). -/
def takeStop (n : Nat) (s : State) : State :=
  if s.mode = .moving then recordStop .hold .stopOrder none (some n) (enterHold s) else s

/-- The acknowledgement of a RESUME (R171): every latched kind whose condition is not active. -/
def acknowledge (s : State) : State :=
  unlatch (fun k => s.latched k && !(conditionKind k && s.active k)) s

/-- Staged at stage 0 to n, arrived within A of T_eff with the pawl SET, and T_eff either T or reported
(R172). -/
def settledInPlace (s : State) : Bool :=
  match s.stagedRec, s.lift with
  | some r, some h =>
    r.stage != .setdown
      && (-(s.cfg.a : Int) ≤ r.effTarget - h && r.effTarget - h ≤ s.cfg.a)
      && s.pawl.state == .set && (r.effTarget == r.target || r.limitReported)
  | _, _ => false

/-- Leaving HALTED (R172). -/
def leaveHalted (s : State) : State :=
  if s.stagedRec.isNone then enterUnstaged s
  else if settledInPlace s then enterSettled s
  else enterHold s

/-- The mode step of a RESUME (R171, R172). -/
def resumeMode (n : Nat) (s : State) : State :=
  match s.mode with
  | .hold =>
    if !allLive s then refuseOrder .resume .notAllLive n s
    else if !planAgreed s then refuseOrder .resume .planDisagree n s
    else if stopConditionActive s then refuseOrder .resume .conditionActive n s
    else enterMoving s
  | .halted =>
    if haltConditionActive s then refuseOrder .resume .conditionActive n s
    else if s.pawl.state = .stuck then refuseOrder .resume .pawl n s
    else leaveHalted s
  | _ => s

/-- RESUME at mode control: pawl step, acknowledgement, mode (R171). -/
def takeResume (n : Nat) (s : State) : State := resumeMode n (acknowledge (pawlOnResume s))

/-- An ORDER frame: delivered to the peer table and to mode control (R17, R18). -/
def receiveOrder (code : Byte) (act : Nat → State → State) (f : RxFrame) (s : State) :
    Host.Outcome State Fault Refusal :=
  receive (wireOrder code f) (fun _ => deliver f.station.toNat (act f.station.toNat)) s

/-- ADVANCE (R169). -/
def execAdvance (f : RxFrame) (s : State) : Host.Outcome State Fault Refusal :=
  receiveOrder 0 takeAdvance f s

/-- RETREAT (R169). -/
def execRetreat (f : RxFrame) (s : State) : Host.Outcome State Fault Refusal :=
  receiveOrder 1 takeRetreat f s

/-- STOP (R170). -/
def execStop (f : RxFrame) (s : State) : Host.Outcome State Fault Refusal :=
  receiveOrder 2 takeStop f s

/-- RESUME (R171). -/
def execResume (f : RxFrame) (s : State) : Host.Outcome State Fault Refusal :=
  receiveOrder 3 takeResume f s

/-! ### HALT (R178) -/

/-- The modes that a HALT frame or halt contagion takes to HALTED (R176, R178). -/
def canHalt (s : State) : Bool :=
  match s.mode with
  | .rollcall | .barred | .halted => false
  | _ => true

/-- HALT at mode control (R178). -/
def takeHalt (n : Nat) (cause : FaultKind) (s : State) : State :=
  if canHalt s then recordStop .halted .haltFrame (some cause) (some n) (enterHalted s) else s

/-- A HALT's content, delivered. -/
def actHalt (n : Nat) (c : Content) (s : State) : State :=
  match c with
  | .halt cause => deliver n (takeHalt n cause) s
  | _ => s

/-- HALT_FRAME (R178). -/
def execHaltFrame (f : RxFrame) (s : State) : Host.Outcome State Fault Refusal :=
  receive (wire kindHalt f) (actHalt f.station.toNat) s

/-! ### POSE (R50, R174 to R176) -/

/-- A peer's reported fields from its POSE (R50, R53). A POSE of mode ROLLCALL, which no LS-48 sends, falls under the
first sentence of R53, which marks the row, and under its last, which does not: it is marked (DESIGN CHOICE,
assumption 33). -/
def reportOf (m : PoseMsg) : Report :=
  { mode := m.mode, lift := m.lift, flight := m.flight, committedEnd := m.committedEnd,
    load := m.load, pawl := m.pawl, stage := m.stage, dir := m.dir, planTag := m.planTag,
    faults := markSilent m.mode m.faults, rejoined := m.rejoined }

/-- The peer's mode is one that shows it acted on the order (R174). -/
def actedMode (m : Mode) : Bool := m == .moving || m == .settled || m == .idle

/-- The POSE shows that the peer has begun or finished take-up (R174). -/
def showsTakeUp (m : PoseMsg) : Bool :=
  m.dir == .raise &&
    ((m.mode == .moving && m.stage == none)
      || ((m.mode == .settled || m.mode == .idle) && m.stage == some (.stage 0)))

/-- The stage of a catch-up join in IDLE or SETTLED: the one above or below that the POSE shows (R174). -/
def catchUpStage (m : PoseMsg) (s : State) : Option StageIx :=
  if m.planTag = s.plan.tag ∧ actedMode m.mode ∧ m.stage ≠ none then
    if m.stage = stageAbove s then stageAbove s
    else if m.stage = stageBelow s then stageBelow s
    else none
  else none

/-- Catch-up join (R174). -/
def catchUp (m : PoseMsg) (s : State) : State :=
  match s.mode with
  | .unstaged => if showsTakeUp m ∧ allLive s ∧ !ownFault s then takeUp s else s
  | .idle | .settled =>
    match catchUpStage m s, groupCheck s with
    | some k, none => moveTo k s
    | _, _ => s
  | _ => s

/-- Mode control at a POSE from a peer: halt contagion (R176), hold contagion (R175), catch-up join
(R174). The three ask for different modes of the peer or of the station. -/
def modeOnPose (n : Nat) (m : PoseMsg) (s : State) : State :=
  if m.mode = .halted ∧ canHalt s then
    recordStop .halted .contagion none (some n) (enterHalted s)
  else if m.mode = .hold ∧ s.mode = .moving ∧ m.stage = s.stageIx then
    recordStop .hold .contagion none (some n) (enterHold s)
  else catchUp m s

/-- A POSE from a member (R50): the station's own is a sign of life only. -/
def takePose (n : Nat) (m : PoseMsg) (s : State) : State :=
  if n = s.own then s
  else modeOnPose n m (onTable (mapReport n fun _ => reportOf m) s)

/-- A POSE's content, delivered. -/
def actPose (n : Nat) (c : Content) (s : State) : State :=
  match c with
  | .pose m => deliver n (takePose n m) s
  | _ => s

/-- POSE_FRAME (R50). -/
def execPoseFrame (f : RxFrame) (s : State) : Host.Outcome State Fault Refusal :=
  receive (wire kindPose f) (actPose f.station.toNat) s

/-! ### Plan store (R66 to R70) -/

/-- The entry formed from a LOAD (R66). -/
def entryOf (target : Nat) (car set : Option Nat) : PlanEntry :=
  ⟨min target 200000, car.map (min · 8000), set.map (min · 8000)⟩

/-- LOAD at the staging bank (R67). -/
def takeLoad (e : PlanEntry) (s : State) : State :=
  if s.plan.staging.length < 16 then
    { s with plan := { s.plan with staging := s.plan.staging ++ [e] } }
  else
    { s with plan := { s.plan with staging := s.plan.staging.take 15 ++ [e], overrun := true } }

/-- CLEAR at the staging bank (R68). -/
def takeClear (s : State) : State := { s with plan := { s.plan with staging := [], overrun := false } }

/-- The first check of R69 that an ADOPT fails. -/
def adoptCheck (s : State) : Option Reason :=
  if ¬ (s.mode = .unstaged ∨ (s.mode = .idle ∧ s.stageIx = some (.stage 0))) then some .mode
  else if s.plan.staging.isEmpty then some .stagingEmpty
  else if s.plan.overrun then some .stagingOverrun
  else none

/-- ADOPT at the plan store (R69, R70). -/
def takeAdopt (n : Nat) (s : State) : State :=
  match adoptCheck s with
  | some why => refuse .adopt why n s
  | none =>
    requestPose <| handRetained <| notify { s with
      plan := { s.plan with active := s.plan.staging, tag := planTag s.plan.staging } }

/-- A plan operation at the plan store. -/
def takePlan (n : Nat) (op : PlanOp) (s : State) : State :=
  match op with
  | .load target carLead setLead => takeLoad (entryOf target carLead setLead) s
  | .clear => takeClear s
  | .adopt => takeAdopt n s

/-- A PLAN's content, delivered to the peer table and to the plan store (R17). -/
def actPlan (n : Nat) (c : Content) (s : State) : State :=
  match c with
  | .plan op => deliver n (takePlan n op) s
  | _ => s

/-- LOAD (R67). -/
def execLoad (low : BitVec 6) (f : RxFrame) (s : State) : Host.Outcome State Fault Refusal :=
  receive (wirePlan 0 low f) (actPlan f.station.toNat) s

/-- CLEAR (R68). -/
def execClear (low : BitVec 6) (f : RxFrame) (s : State) : Host.Outcome State Fault Refusal :=
  receive (wirePlan 1 low f) (actPlan f.station.toNat) s

/-- ADOPT (R69, R70). -/
def execAdopt (low : BitVec 6) (f : RxFrame) (s : State) : Host.Outcome State Fault Refusal :=
  receive (wirePlan 2 low f) (actPlan f.station.toNat) s

end Sys2Proof.Machine
end

