-- ==== Sys2Proof/Machine/Column.lean ====
section
/-! DEFINITION. The column I/O commands: encoder counts and errors (R124, R128, R131, R136, R138, R139), the
stroke time limit and the reversal dwell (R96, R135), load readings (R154, R155, R159), pawl switches and
the pawl time limit (R142, R145, R146). -/

namespace Sys2Proof.Machine

/-! ### Encoder counts (R124, R128, R131, R136) -/

/-- The travel after a count, or `none` when the count is refused (R124). -/
def countTravel (up : Bool) (x : Nat) : Option Nat :=
  if up then (if x < topTravel then some (x + 1) else none)
  else (if 0 < x then some (x - 1) else none)

/-- A count goes in a stroke's direction (R128). -/
def countForward (up : Bool) (r : Stroke) : Bool := up == (r.dir == .raise)

/-- The remaining count of a RUNNING stroke at a count (R128, R131). -/
def countRunning (up : Bool) (r : Stroke) (remaining : Nat) (s : State) : State :=
  if r.kind = .contact ∧ s.engine.travel = topTravel then topOfTravel s
  else if countForward up r then
    if remaining ≤ 1 then strokeEnd r s
    else { s with engine := { s.engine with stroke := .running r (remaining - 1) } }
  else if s.cfg.l + s.cfg.a ≤ remaining then report .drift none (stopRun r.dir s)
  else { s with engine := { s.engine with stroke := .running r (remaining + 1) } }

/-- The creep test (R136). -/
def creepTest (s : State) : State :=
  let off : Int := (s.engine.travel : Int) - s.engine.restRef
  if (s.cfg.a : Int) < off ∨ off < -(s.cfg.a : Int) then
    let s := report .drift none s
    { s with engine := { s.engine with restRef := s.engine.travel } }
  else s

/-- A jog reaches the end of the screw's travel (R138, R139). -/
def jogTravelTest (s : State) : State :=
  match s.engine.jog with
  | .up => if s.engine.travel = topTravel then endJog s else s
  | .down => if s.engine.travel = 0 then endJog s else s
  | _ => s

/-- What a count that changed travel does, by the stroke and jog state (R124). -/
def afterCount (up : Bool) (s : State) : State :=
  match s.engine.stroke with
  | .running r remaining => countRunning up r remaining s
  | _ => if s.engine.jog = .none then creepTest s else jogTravelTest s

/-- COUNT_EVENT (R124): a refused count is an occurrence of ENCODER; any other changes
travel, and with it the lift of a staged station (R75). -/
def execCountEvent (up : Bool) (s : State) : Host.Outcome State Fault Refusal :=
  .next <| finish <|
    match countTravel up s.engine.travel with
    | none => reportEncoder s
    | some x =>
      let s := { s with engine := { s.engine with travel := x } }
      afterCount up (if s.stagedRec.isSome then notify s else s)

/-- ENCODER_ERROR (R124): an assertion of the error line is an occurrence of ENCODER. -/
def execEncoderError (s : State) : Host.Outcome State Fault Refusal :=
  .next (finish (reportEncoder s))

/-- STROKE_TIME_LIMIT_EXPIRY (R135): a RUNNING stroke is aborted with STALL. -/
def execStrokeTimeLimitExpiry (s : State) : Host.Outcome State Fault Refusal :=
  if due s.timeBase s.engine.limit then
    let s := { s with engine := { s.engine with limit := none } }
    .next <| finish <|
      match s.engine.stroke with
      | .running r _ => report .stall none (stopRun r.dir s)
      | _ => s
  else .next s

/-- REVERSAL_DWELL_EXPIRY (R96, R121): a trigger for a fresh evaluation. -/
def execReversalDwellExpiry (s : State) : Host.Outcome State Fault Refusal :=
  if due s.timeBase s.engine.dwell then
    .next (finish (notify { s with engine := { s.engine with dwell := none } }))
  else .next s

/-! ### Load readings (R154, R155, R159) -/

/-- A reading above the rated load (R155). -/
def aboveRated (s : State) : Bool := s.cfg.wr < s.loadMon.present

/-- The OVERLOAD test (R155). -/
def overloadTest (s : State) : State :=
  let now := aboveRated s
  let was := s.loadMon.above
  let s := { s with loadMon := { s.loadMon with above := now } }
  if now && !was then report .overload none (setActive .overload true s)
  else if was && !now then setActive .overload false s
  else s

/-- One reading both begins OVERLOAD and passes the contact test (R159). -/
def orderOpen (s : State) : Bool :=
  aboveRated s && !s.loadMon.above && s.loadMon.watch && s.cfg.wc ≤ s.loadMon.present

/-- The OVERLOAD test and the contact test. Where both act, the free value says which reaches the stroke
engine first (R159). With contact first, OVERLOAD is reported after the capture, so that its first-occurrence record
takes the lift 0 and not the travel (DESIGN CHOICE, assumption 37). -/
def loadTests (s : State) : State :=
  if orderOpen s then
    let s' := { s with openOrders := s.openOrders + 1 }
    if Config.contactBeforeHalt s.openOrders then overloadTest (contactTest s')
    else contactTest (overloadTest s')
  else contactTest (overloadTest s)

/-- The load test of a jog up (R138). -/
def jogLoadTest (s : State) : State :=
  if s.engine.jog = .up ∧ s.cfg.wc ≤ s.loadMon.present then endJog s else s

/-- Sets the present reading and the over-range flag; a value that changes the self row's load is a change
of the self row (R154). -/
def takeReading (v : Nat) (s : State) : State :=
  let t := { s with loadMon := { s.loadMon with present := v, overRange := v == 4095 } }
  if s.table.isSome ∧ v ≠ s.loadMon.present then notify t else t

/-- LOAD_READING (R154). -/
def execLoadReading (v : Fin 4096) (s : State) : Host.Outcome State Fault Refusal :=
  .next <| finish <| shareEval <| jogLoadTest <| loadTests <| takeReading v.val s

/-! ### Pawl switches (R142, R145, R146) -/

/-- The stored level of a switch. -/
def switchLevel (s : State) : PawlSwitch → Bool
  | .set => s.pawl.setClosed
  | .withdrawn => s.pawl.withdrawnClosed

/-- Stores the level of a switch (R142). -/
def storeSwitch (sw : PawlSwitch) (closed : Bool) (s : State) : State :=
  match sw with
  | .set => { s with pawl := { s.pawl with setClosed := closed } }
  | .withdrawn => { s with pawl := { s.pawl with withdrawnClosed := closed } }

/-- The pawl reaches WITHDRAWN (R145). -/
def pawlReachesWithdrawn (s : State) : State := reportPawl .withdrawn (disarmPawlLimit s)

/-- A switch event at the pawl state, the stored level already updated (R145). -/
def pawlOnSwitch (sw : PawlSwitch) (closed : Bool) (s : State) : State :=
  match s.pawl.state, sw, closed with
  | .set, .withdrawn, true => pawlStuck s
  | .set, .set, false => pawlStuck s
  | .withdrawing, .withdrawn, true =>
    if s.pawl.setClosed then pawlStuck s else pawlReachesWithdrawn s
  | .withdrawn, .set, true => pawlStuck s
  | .withdrawn, .withdrawn, false => pawlStuck s
  | .setting, .set, true =>
    if s.pawl.withdrawnClosed then pawlStuck s else pawlReachesSet s
  | _, _, _ => s

/-- SWITCH_EVENT (R142, R145): a filtered change of a pawl switch. A level that the switch already has is
no change. -/
def execSwitchEvent (sw : PawlSwitch) (closed : Bool) (s : State) :
    Host.Outcome State Fault Refusal :=
  if switchLevel s sw = closed then .next s
  else .next (finish (pawlOnSwitch sw closed (storeSwitch sw closed s)))

/-- PAWL_TIME_LIMIT_EXPIRY (R146). -/
def execPawlTimeLimitExpiry (s : State) : Host.Outcome State Fault Refusal :=
  if due s.timeBase s.pawl.limit then
    let s := disarmPawlLimit s
    .next <| finish <|
      match s.pawl.state with
      | .withdrawing | .setting => pawlStuck s
      | _ => s
  else .next s

end Sys2Proof.Machine
end

