-- ==== Sys2Proof/Machine/PendantPort.lean ====
section
/-! DEFINITION. The pendant port (R184): order buttons (R185), jog buttons and key switch (R137 to R140),
and the emergency contact (R179). A level that an input already has is no change, and does nothing. -/

namespace Sys2Proof.Machine

/-! ### Filtered levels (R184) -/

/-- Changes the filtered levels. -/
def setLevels (f : PendantLevels → PendantLevels) (s : State) : State :=
  { s with pendant := { s.pendant with levels := f s.pendant.levels } }

/-- The filtered level of an order button. -/
def buttonLevel (s : State) : OrderButton → Bool
  | .up => s.pendant.levels.up
  | .down => s.pendant.levels.down
  | .stop => s.pendant.levels.stop
  | .resume => s.pendant.levels.resume

/-- The levels with one order button's level replaced. -/
def withButton (b : OrderButton) (pressed : Bool) (l : PendantLevels) : PendantLevels :=
  match b with
  | .up => { l with up := pressed }
  | .down => { l with down := pressed }
  | .stop => { l with stop := pressed }
  | .resume => { l with resume := pressed }

/-! ### Order buttons (R185) -/

/-- The order kind that a button gives (R185). -/
def orderOfButton : OrderButton → OrderKind
  | .up => .advance
  | .down => .retreat
  | .stop => .stop
  | .resume => .resume

/-- A press is queued with the key on, in the modes that have a table (R185). -/
def pressQueues (s : State) : Bool :=
  s.pendant.levels.key && s.mode != .rollcall && s.mode != .barred

/-- The ORDER frame of a press (R10, R185). -/
def orderFrame (s : State) (b : OrderButton) : WireFrame :=
  ownFrame s kindOrder (payloadOf (.order (orderOfButton b)))

/-- Queues a press's ORDER frame, or discards and counts the press when the queue holds 4 (R11, R185). -/
def queueOrder (b : OrderButton) (s : State) : State :=
  if s.line.orderQueue.length < 4 then
    { s with line := { s.line with orderQueue := s.line.orderQueue ++ [orderFrame s b] } }
  else { s with pendant := { s.pendant with discards := bump 65535 s.pendant.discards } }

/-- ORDER_BUTTON_PRESS (R184, R185): a press queues an ORDER frame where R185 says so; a release changes
the level alone. -/
def execOrderButtonPress (b : OrderButton) (pressed : Bool) (s : State) :
    Host.Outcome State Fault Refusal :=
  if buttonLevel s b = pressed then .next s
  else
    let s := setLevels (withButton b pressed) s
    .next <| finish (if pressed && pressQueues s then queueOrder b s else s)

/-! ### Jog (R137 to R140) -/

/-- The conditions of R137 that both jog buttons share, less the other button's. -/
def jogMayBegin (s : State) : Bool :=
  s.mode == .unstaged && s.pendant.levels.key && s.engine.stroke == .rest && s.engine.jog == .none

/-- The jog state changes under source JOG, and the drive follows (R123, R137). -/
def setJog (j : JogState) (s : State) : State :=
  { s with
    engine :=
      { s.engine with jog := j, source := .jog, drive := driveOf .jog s.engine.stroke j } }

/-- A press of JOG UP that may begin a jog (R137). -/
def jogUp (s : State) : State :=
  if s.loadMon.present < s.cfg.wc ∧ s.engine.travel < topTravel then setJog .up s else s

/-- A press of JOG DOWN that may begin a jog (R137). -/
def jogDown (s : State) : State :=
  if 0 < s.engine.travel then
    if s.pawl.state = .withdrawn then setJog .down s else pawlWithdraw (setJog .downWait s)
  else s

/-- JOG_UP_PRESS (R137, R139). -/
def execJogUpPress (s : State) : Host.Outcome State Fault Refusal :=
  if s.pendant.levels.jogUp then .next s
  else
    let s := setLevels (fun l => { l with jogUp := true }) s
    .next <| finish <|
      if jogLowers s.engine.jog then endJog s
      else if jogMayBegin s && !s.pendant.levels.jogDown then jogUp s
      else s

/-- JOG_DOWN_PRESS (R137, R138). -/
def execJogDownPress (s : State) : Host.Outcome State Fault Refusal :=
  if s.pendant.levels.jogDown then .next s
  else
    let s := setLevels (fun l => { l with jogDown := true }) s
    .next <| finish <|
      if s.engine.jog = .up then endJog s
      else if jogMayBegin s && !s.pendant.levels.jogUp then jogDown s
      else s

/-- JOG_UP_RELEASE (R138). -/
def execJogUpRelease (s : State) : Host.Outcome State Fault Refusal :=
  if s.pendant.levels.jogUp then
    let s := setLevels (fun l => { l with jogUp := false }) s
    .next (finish (if s.engine.jog = .up then endJog s else s))
  else .next s

/-- JOG_DOWN_RELEASE (R139). -/
def execJogDownRelease (s : State) : Host.Outcome State Fault Refusal :=
  if s.pendant.levels.jogDown then
    let s := setLevels (fun l => { l with jogDown := false }) s
    .next (finish (if jogLowers s.engine.jog then endJog s else s))
  else .next s

/-! ### Key switch and emergency contact (R140, R179, R184) -/

/-- KEY_SWITCH (R140, R184): the key turned off ends a jog. -/
def execKeySwitch (on : Bool) (s : State) : Host.Outcome State Fault Refusal :=
  if s.pendant.levels.key = on then .next s
  else
    let s := setLevels (fun l => { l with key := on }) s
    .next (finish (if on then s else endJog s))

/-- An opening of the emergency contact (R179). -/
def emergencyOpens (s : State) : State := report .emergency none (setActive .emergency true s)

/-- EMERGENCY_OPEN (R179). -/
def execEmergencyOpen (s : State) : Host.Outcome State Fault Refusal :=
  if s.pendant.levels.emergencyClosed then
    .next <| finish <| emergencyOpens <|
      setLevels (fun l => { l with emergencyClosed := false }) s
  else .next s

/-- EMERGENCY_CLOSE (R179, R182): the condition ends. -/
def execEmergencyClose (s : State) : Host.Outcome State Fault Refusal :=
  if s.pendant.levels.emergencyClosed then .next s
  else
    .next <| finish <| setActive .emergency false <|
      setLevels (fun l => { l with emergencyClosed := true }) s

end Sys2Proof.Machine
end

