-- ==== Sys2Proof/Machine/Timers.lean ====
section
/-! DEFINITION. What time and the settings memory bring about: the completion of a retained write (R43),
expired marks (R20), a long wait (R191), the events that are due at a time-base value, and the tick. -/

namespace Sys2Proof.Machine

/-! ### Retained write (R43) -/

/-- A write completes (R41, R43): the record holds the content the write began with and its marker is
valid; an owed rewrite begins at once, else the write state is IDLE. -/
def completeWrite (c : RetContent) (s : State) : State :=
  let owed := s.retained.rewriteOwed
  let s := { s with retained :=
    { s.retained with marker := true, record := c, writing := none, rewriteOwed := false } }
  if owed then beginWrite s else s

/-- WRITE_COMPLETION (R43). With no write in flight there is none to complete. -/
def execWriteCompletion (s : State) : Host.Outcome State Fault Refusal :=
  match s.retained.writing with
  | none => .next s
  | some c => .next (finish (completeWrite c s))

/-! ### Expired marks (R20) -/

/-- Marks a row's stamps: `claim` picks the last-claim stamp, else the last-heard stamp. -/
def markRow (now : Time) (claim : Bool) (m : RowMarks) : RowMarks :=
  if claim then { m with lastClaim := m.lastClaim.mark now }
  else { m with lastHeard := m.lastHeard.mark now }

/-- Marks the stamp that a reference names, if its mark is due (R20). No view reads a row's stamps, so a
row's mark sends no notice. -/
def markStamp (ref : StampRef) (s : State) : State :=
  let now := s.timeBase
  match ref with
  | .candidate n =>
    setCandidates (s.roll.candidates.map fun c =>
      if c.number = n then { c with lastRoll := c.lastRoll.mark now } else c) s
  | .lastHeard n => { s with table := s.table.map (mapMarks n (markRow now false)) }
  | .lastClaim n => { s with table := s.table.map (mapMarks n (markRow now true)) }
  | .line => { s with spacing := { s.spacing with lineStamp := s.spacing.lineStamp.mark now } }
  | .feeder => { s with spacing := { s.spacing with feederStamp := s.spacing.feederStamp.mark now } }
  | .strokeEnd => { s with engine := { s.engine with lastEnd := s.engine.lastEnd.mark now } }
  | .wait => { s with lamps := { s.lamps with waitStamp := s.lamps.waitStamp.mark now } }
  | .refusedOrder =>
    { s with modeCtl :=
        { s.modeCtl with
          lastRefused := s.modeCtl.lastRefused.map fun r => { r with stamp := r.stamp.mark now } } }
  | .stopRecord =>
    { s with modeCtl :=
        { s.modeCtl with
          lastStop := s.modeCtl.lastStop.map fun r => { r with stamp := r.stamp.mark now } } }
  | .firstRecord k =>
    setFault k
      { s.fault k with first := (s.fault k).first.map fun r => { r with stamp := r.stamp.mark now } } s

/-- STAMP_EXPIRED (R20). -/
def execStampExpired (ref : StampRef) (s : State) : Host.Outcome State Fault Refusal :=
  .next (finish (markStamp ref s))

/-! ### A long wait (R191) -/

/-- The station is waiting long (R191). -/
def waitsLong (s : State) : Bool :=
  s.ceiling.reason != .none && s.lamps.waitStamp.atLeast s.timeBase longWaitUnits

/-- WAITING_LONG (R191). -/
def execWaitingLong (s : State) : Host.Outcome State Fault Refusal :=
  if waitsLong s then .next (finish { s with lamps := { s.lamps with waitingLong := true } })
  else .next s

/-! ### Events that are due (R20, R21, R191) -/

/-- One event with whether it is due. -/
abbrev Timed := Bool × Instr

/-- The compares, in the order in which R21 lists them; of the silence compares, the self row's comes first and then
the peers' in rising number (DESIGN CHOICE, assumption 2). -/
def timedCompares (s : State) : List Timed :=
  [(due s.timeBase s.line.posePeriod, .posePeriodExpiry),
   (due s.timeBase s.line.busyLimit, .lineBusyLimitExpiry),
   (due s.timeBase s.roll.quiet, .rollQuietExpiry),
   (due s.timeBase s.roll.limit, .rollLimitExpiry),
   (due s.timeBase s.roll.pacing, .rollPacingExpiry)]
    ++ (allRows s).map (fun r => (due s.timeBase r.marks.silence, .silenceExpiry r.fixed.number))
    ++ [(due s.timeBase s.spacing.instant, .spacingInstantExpiry),
        (due s.timeBase s.engine.limit, .strokeTimeLimitExpiry),
        (due s.timeBase s.engine.dwell, .reversalDwellExpiry),
        (due s.timeBase s.pawl.limit, .pawlTimeLimitExpiry)]

/-- The mark of an optional record's stamp is due. -/
def recordDue (now : Time) (st : Option Stamp) : Bool :=
  match st with
  | some st => st.markDue now
  | none => false

/-- The stored stamps whose marks may be due (R20). -/
def timedStamps (s : State) : List Timed :=
  let now := s.timeBase
  s.roll.candidates.map (fun c => (c.lastRoll.markDue now, .stampExpired (.candidate c.number)))
    ++ (allRows s).map
        (fun r => (r.marks.lastHeard.markDue now, .stampExpired (.lastHeard r.fixed.number)))
    ++ (allRows s).map
        (fun r => (r.marks.lastClaim.markDue now, .stampExpired (.lastClaim r.fixed.number)))
    ++ [(s.spacing.lineStamp.markDue now, .stampExpired .line),
        (s.spacing.feederStamp.markDue now, .stampExpired .feeder),
        (s.engine.lastEnd.markDue now, .stampExpired .strokeEnd),
        (s.lamps.waitStamp.markDue now, .stampExpired .wait),
        (recordDue now (s.modeCtl.lastRefused.map (·.stamp)), .stampExpired .refusedOrder),
        (recordDue now (s.modeCtl.lastStop.map (·.stamp)), .stampExpired .stopRecord)]
    ++ allKinds.map
        (fun k => (recordDue now ((s.fault k).first.map (·.stamp)), .stampExpired (.firstRecord k)))

/-- The waits that are no compare of R21: a wait that becomes long (R191), and the gap in a service record (R187). -/
def timedWaits (s : State) : List Timed :=
  [(waitsLong s && !s.lamps.waitingLong, .waitingLong),
   (due s.timeBase s.service.gap, .serviceByteGap)]

/-- The first event that the time base brings about at its present value, or none: a due compare, a due
mark, a wait that has become long, or a service record whose gap has passed. -/
def dueEvent (s : State) : Option Instr :=
  ((timedCompares s ++ timedStamps s ++ timedWaits s).find? fun t => t.1).map fun t => t.2

/-- The time base goes up by 1 (R19), and the flash of the lamps runs on (R191). -/
def tick (s : State) : State :=
  { s with
    timeBase := s.timeBase + 1
    lamps := { s.lamps with flash := (s.lamps.flash + 1) % flashPeriod } }

end Sys2Proof.Machine
end

