-- ==== Sys2Proof/Machine/ServicePort.lean ====
section
/-! DEFINITION. The service port: records (R186, R187), how requests wait (R187), the replies (R188, R189),
acknowledgement (R183), setting writes (R27) and plan requests (R190). -/

namespace Sys2Proof.Machine

/-! ### Reply encodings (R188) -/

/-- A flag or a filtered level (R188). -/
def flagByte (b : Bool) : List Byte := [if b then 1 else 0]

/-- A number or code below 256. -/
def num8 (n : Nat) : List Byte := [BitVec.ofNat 8 n]

/-- A field that may be absent: a presence byte, then the field (R188). -/
def optField {α : Type} (f : α → List Byte) : Option α → List Byte
  | none => [0]
  | some a => 1 :: f a

/-- A stamp in 4 bytes (R188). -/
def stampBytes (st : Stamp) : List Byte := be32 st.value.toNat

/-- A stamp's age in ms, 65,535 when expired (R188). -/
def ageBytes (now : Time) (st : Stamp) : List Byte :=
  be16 (if st.expired then 65535 else st.age now / 10)

/-- Order kinds with ADOPT as 4 (R188). -/
def refusedKindCode : RefusedKind → Nat
  | .advance => 0 | .retreat => 1 | .resume => 3 | .adopt => 4

/-- A refusal reason's position in the list of R168. -/
def refusalCode : Reason → Nat
  | .mode => 0 | .lastStage => 1 | .notAllUnstaged => 2 | .notAllLive => 3 | .planDisagree => 4
  | .ownFault => 5 | .conditionActive => 6 | .pawl => 7 | .stagingEmpty => 8
  | .stagingOverrun => 9

/-- A stop origin's position in the list of R165. -/
def originCode : StopOrigin → Nat
  | .stopOrder => 0 | .fault => 1 | .haltFrame => 2 | .contagion => 3

/-- A drive command's position in the list of R121. -/
def driveCode : Drive → Nat
  | .runUp => 0 | .runDown => 1 | .off => 2

/-- A source's position in the list of R121. -/
def sourceCode : Source → Nat
  | .stroke => 0 | .jog => 1

/-- A share state's position in the list of R160. -/
def shareCode : ShareState → Nat
  | .inactive => 0 | .inBand => 1 | .over => 2 | .under => 3

/-- A liveness's position in the list of R46. -/
def livenessCode : Liveness → Nat
  | .live => 0 | .lost => 1

/-- A last refused order record (R165, R189). -/
def refusedBytes (r : RefusedOrder) : List Byte :=
  num8 (refusedKindCode r.kind) ++ num8 (refusalCode r.reason) ++ num8 r.originator
    ++ stampBytes r.stamp

/-- A last stop record (R165, R189). R6 lists no field "mode entered": HOLD and HALTED are sent with the codes that R6
gives the station mode (DESIGN CHOICE, assumption 39). -/
def stopBytes (r : StopRecord) : List Byte :=
  num8 (modeCode r.entered) ++ num8 (originCode r.origin)
    ++ optField (fun k => num8 (faultCode k).val) r.kind ++ optField num8 r.station
    ++ stampBytes r.stamp

/-- Where the column stood, its value and then the marker: 0 lift, 1 travel (R181, R188). Of a record that holds both,
the free value says which is sent (assumption 35). -/
def placeBytes : Place → List Byte
  | .lift h => beInt24 h ++ num8 0
  | .travel x => beInt24 x ++ num8 1
  | .liftAndTravel h x =>
    if Config.encoderReplyLift then beInt24 h ++ num8 0 else beInt24 x ++ num8 1

/-- A first-occurrence record (R181, R188). -/
def firstBytes (r : FirstRecord) : List Byte :=
  stampBytes r.stamp ++ placeBytes r.place ++ optField num8 r.peer

/-- A plan entry (R188). -/
def entryBytes (e : PlanEntry) : List Byte :=
  be24 e.target ++ optField be16 e.carLead ++ optField be16 e.setLead

/-! ### Reply contents -/

/-- The eight pendant levels, in the order in which R184 lists the inputs. -/
def levelBytes (l : PendantLevels) : List Byte :=
  flagByte l.up ++ flagByte l.down ++ flagByte l.stop ++ flagByte l.resume ++ flagByte l.jogUp
    ++ flagByte l.jogDown ++ flagByte l.key ++ flagByte l.emergencyClosed

/-- The STATUS content (R189). In ROLLCALL the staged flag, stage index and contact zero are those taken
from the retained record (R73). Of the two pawl switches, whose order R189 leaves open, the set switch comes first
(DESIGN CHOICE, assumption 20). -/
def statusBytes (s : State) : List Byte :=
  let ret := (retainedNow s).staged
  num8 (modeCode s.mode) ++ flagByte s.modeCtl.rejoined
    ++ optField refusedBytes s.modeCtl.lastRefused ++ optField stopBytes s.modeCtl.lastStop
    ++ flagByte ret.isSome ++ optField (fun r => num8 (stageCode r.stage)) ret
    ++ num8 (dirCode s.stage.dir)
    ++ optField (fun r : StagedRec => beInt24 r.target) s.stagedRec
    ++ optField (fun r : StagedRec => beInt24 r.effTarget) s.stagedRec
    ++ optField (fun r => be24 r.contactZero) ret
    ++ be24 s.engine.travel ++ optField beInt24 s.lift ++ num8 (driveCode s.engine.drive)
    ++ num8 (sourceCode s.engine.source) ++ num8 (pawlCode s.pawl.state)
    ++ be16 s.loadMon.present ++ flagByte s.loadMon.overRange ++ num8 (shareCode s.loadMon.share)
    ++ be24 s.loadMon.totalW ++ be16 s.loadMon.totalU ++ num8 s.loadMon.totalN
    ++ num8 (reasonCode s.ceiling.reason) ++ num8 s.spacing.withdrawals ++ num8 (dirCode s.flight)
    ++ be16 s.plan.tag ++ be16 s.settings.tag ++ flagByte s.settings.adjusted
    ++ be16 s.line.badFrames ++ be16 s.line.discarded ++ num8 s.line.failures
    ++ be16 s.pendant.discards
    ++ levelBytes s.pendant.levels ++ flagByte s.pawl.setClosed ++ flagByte s.pawl.withdrawnClosed
    ++ be32 s.timeBase.toNat

/-- The PEER content: the fields of R46 in order, stamps as ages (R188). The mark of R53 stands in the
fault set. -/
def peerBytes (now : Time) (r : Row) : List Byte :=
  num8 r.fixed.number ++ num8 r.fixed.car ++ num8 r.fixed.feeder ++ num8 r.fixed.share
    ++ be32 r.fixed.serial.toNat
    ++ num8 (modeCode r.report.mode) ++ optField beInt24 r.report.lift
    ++ num8 (dirCode r.report.flight) ++ optField beInt24 r.report.committedEnd
    ++ be16 r.report.load ++ num8 (pawlCode r.report.pawl)
    ++ optField (fun k => num8 (stageCode k)) r.report.stage ++ num8 (dirCode r.report.dir)
    ++ be16 r.report.planTag ++ be16 r.report.faults.toNat ++ flagByte r.report.rejoined
    ++ num8 (livenessCode r.marks.live) ++ ageBytes now r.marks.lastHeard
    ++ ageBytes now r.marks.lastClaim

/-- One kind of the READ FAULTS content (R188). -/
def faultBytes (k : FaultKind) (r : FaultRec) : List Byte :=
  flagByte r.latched ++ flagByte (conditionKind k && r.active) ++ num8 r.count
    ++ optField firstBytes r.first

/-- The READ FAULTS content (R183, R188). -/
def faultsBytes (s : State) : List Byte := allKinds.flatMap fun k => faultBytes k (s.fault k)

/-- The PLAN READ content of the staging bank (R188). -/
def stagingBytes (s : State) : List Byte :=
  num8 s.plan.staging.length ++ flagByte s.plan.overrun ++ s.plan.staging.flatMap entryBytes

/-- The PLAN READ content of the active bank (R188). -/
def activeBytes (s : State) : List Byte :=
  num8 s.plan.active.length ++ be16 s.plan.tag ++ s.plan.active.flatMap entryBytes

/-- The twenty values in force, in table order (R23). -/
def settingsList (v : Settings) : List Nat :=
  [v.m, v.cl, v.sl, v.l, v.a, v.n, v.d, v.gl, v.gs, v.p, v.s, v.tst, v.tpw, v.trev, v.wc, v.wr,
   v.b, v.wmin, v.rq, v.rmax]

/-- The SETTINGS READ content (R27, R188). -/
def settingsBytes (s : State) : List Byte :=
  (List.zip s.settings.stored.toList (settingsList s.cfg)).flatMap
      (fun p => be16 p.1.value ++ be16 p.2)
    ++ be16 s.settings.tag ++ flagByte s.settings.adjusted

/-! ### Records and replies (R186 to R188) -/

/-- The byte that makes bytes add up to 0 modulo 256 (R186). -/
def sumByte (bs : List Byte) : Byte := -(bs.foldl (· + ·) 0)

/-- A whole record: start byte, kind, length, payload and sum (R186). -/
def recordOf (kind : Nat) (payload : List Byte) : List Byte :=
  let body := BitVec.ofNat 8 kind :: BitVec.ofNat 8 payload.length :: payload
  126 :: (body ++ [sumByte body])

/-- Reply statuses (R186). -/
inductive Reply where
  | done (content : List Byte)
  | busy
  | bad
  | refused
  deriving DecidableEq, Repr

/-- The reply record: kind plus 128, status, content with DONE (R186, R188). -/
def replyRecord (kind : Nat) : Reply → List Byte
  | .done content => recordOf (kind + 128) (0 :: content)
  | .busy => recordOf (kind + 128) [1]
  | .bad => recordOf (kind + 128) [2]
  | .refused => recordOf (kind + 128) [3]

/-! ### Requests (R27, R183, R188 to R190) -/

/-- PEER (R188). -/
def askPeer (n : Nat) (s : State) : Reply :=
  if 47 < n then .bad
  else
    match rowOf s n with
    | none => .refused
    | some r => .done (peerBytes s.timeBase r)

/-- READ FAULTS: every count goes to its snapshot count (R183). -/
def takeSnapshots (s : State) : State :=
  { s with faults := s.faults.map fun r => { r with snapshot := r.count } }

/-- The kinds that an ACK of a set clears (R183). -/
def ackClears (set : BitVec 16) (s : State) (k : FaultKind) : Bool :=
  inSet set k && s.latched k && (s.fault k).count == (s.fault k).snapshot
    && !(conditionKind k && s.active k)

/-- PLAN READ (R188). -/
def askPlan (bank : Nat) (s : State) : Reply :=
  match bank with
  | 0 => .done (stagingBytes s)
  | 1 => .done (activeBytes s)
  | _ => .bad

/-- SETTING WRITE is within its parameter's range (R27, R188). -/
def writeAllowed (number value : Nat) : Bool :=
  1 ≤ number && number ≤ 20
    && (paramRow (number - 1)).low ≤ value && value ≤ (paramRow (number - 1)).high

/-- SETTING WRITE at settings memory: the stored value and its check (R27). -/
def storeSetting (number value : Nat) (s : State) : State :=
  { s with settings :=
      { s.settings with stored := s.settings.stored.setIfInBounds (number - 1) ⟨value, true⟩ } }

/-- The PLAN LOAD payload as the line carries it: the presence bits and the values as given (R190). -/
def loadPayload : List Byte → List Byte
  | [] => []
  | b :: rest => (b &&& 3) :: rest

/-- A plan request queues one PLAN frame (R190). -/
def askPlanFrame (payload : List Byte) (s : State) : Reply × State :=
  if s.mode = .rollcall ∨ s.mode = .barred then (.refused, s)
  else if 4 ≤ s.line.planQueue.length then (.busy, s)
  else
    (.done [],
     { s with line :=
        { s.line with planQueue := s.line.planQueue ++ [ownFrame s kindPlan payload] } })

/-- A request is taken: its reply and its effect (R188). The payload has the length its kind calls for. -/
def answer (r : Request) (s : State) : Reply × State :=
  match r.kind, r.payload with
  | 1, _ => (.done (statusBytes s), s)
  | 2, [n] => (askPeer n.toNat s, s)
  | 3, _ => (.done (faultsBytes s), takeSnapshots s)
  | 4, [a, b] =>
    let clears := ackClears (BitVec.ofNat 16 (beNat [a, b])) s
    (.done (be16 (setOf clears).toNat), unlatch clears s)
  | 5, [bank] => (askPlan bank.toNat s, s)
  | 6, payload => askPlanFrame (loadPayload payload) s
  | 7, _ => askPlanFrame (planPayload .clear) s
  | 8, _ => askPlanFrame (planPayload .adopt) s
  | 9, _ => (.done (settingsBytes s), s)
  | 10, [n, a, b] =>
    if writeAllowed n.toNat (beNat [a, b]) then
      (.done [], storeSetting n.toNat (beNat [a, b]) s)
    else (.bad, s)
  | _, _ => (.bad, s)

/-- Takes a request: its effect, and its reply sent at once (R187). -/
def takeRequest (r : Request) (s : State) : State :=
  let a := answer r s
  { a.2 with service := { a.2.service with sending := some (replyRecord r.kind a.1) } }

/-- A request that completes: taken, or made to wait, or dropped (R187). -/
def acceptRequest (r : Request) (s : State) : State :=
  match s.service.sending, s.service.waiting with
  | none, _ => takeRequest r s
  | some _, none => { s with service := { s.service with waiting := some r } }
  | some _, some _ => s

/-! ### The receiver (R187) -/

/-- The payload length is the one the kind calls for (R188). -/
def lengthFits (kind : Nat) (payload : List Byte) : Bool :=
  match kind with
  | 1 | 3 | 7 | 8 | 9 => payload.length == 0
  | 2 | 5 => payload.length == 1
  | 4 => payload.length == 2
  | 6 =>
    match payload with
    | [] => false
    | b :: _ => payload.length == 4 + 2 * field b 1 1 + 2 * field b 0 1
  | 10 => payload.length == 3
  | _ => false

/-- The request in a complete record's bytes after the start byte, if it is one (R187). -/
def requestOf (bytes : List Byte) : Option Request :=
  match bytes with
  | kind :: _ :: rest =>
    let payload := rest.dropLast
    if bytes.foldl (· + ·) 0 = 0 ∧ lengthFits kind.toNat payload then
      some ⟨kind.toNat, payload⟩
    else none
  | _ => none

/-- The bytes after the start byte make a complete record (R187). -/
def recordComplete (bytes : List Byte) : Bool :=
  match bytes with
  | _ :: len :: rest => rest.length == len.toNat + 1
  | _ => false

/-- The receiver hunts (R187). -/
def hunt (s : State) : State := { s with service := { s.service with collecting := none, gap := none } }

/-- The receiver has taken the bytes of a record so far, and the gap to the next byte is timed (R187). -/
def collect (bs : List Byte) (s : State) : State :=
  { s with service := { s.service with collecting := some bs, gap := armed s.timeBase byteGapUnits } }

/-- A record whose gap has passed is broken off (R187). -/
def breakOff (s : State) : State := if due s.timeBase s.service.gap then hunt s else s

/-- One byte at the receiver (R187): hunting, it skips every byte but 126; collecting, it takes the byte, and a
complete record that is a request is accepted. -/
def feedByte (s : State) (b : Byte) : State :=
  match s.service.collecting with
  | none => if b = 126 then collect [] s else s
  | some bs =>
    let bs := bs ++ [b]
    if recordComplete bs then
      match requestOf bs with
      | some r => acceptRequest r (hunt s)
      | none => hunt s
    else collect bs s

/-- Bytes arrive together at the receiver (R187). Each row of the table gives the bytes that end in a request of its
kind; the receiver takes whatever request the bytes make. -/
def feed (bytes : List Byte) (s : State) : Host.Outcome State Fault Refusal :=
  .next (finish (bytes.foldl feedByte (breakOff s)))

/-! ### The commands -/

/-- STATUS (R189). -/
def execStatus (bytes : List Byte) (s : State) : Host.Outcome State Fault Refusal := feed bytes s

/-- PEER (R188). -/
def execPeer (bytes : List Byte) (s : State) : Host.Outcome State Fault Refusal := feed bytes s

/-- READ_FAULTS (R183). -/
def execReadFaults (bytes : List Byte) (s : State) : Host.Outcome State Fault Refusal := feed bytes s

/-- ACK (R183). -/
def execAck (bytes : List Byte) (s : State) : Host.Outcome State Fault Refusal := feed bytes s

/-- PLAN_READ (R188). -/
def execPlanRead (bytes : List Byte) (s : State) : Host.Outcome State Fault Refusal := feed bytes s

/-- PLAN_LOAD (R190). -/
def execPlanLoad (bytes : List Byte) (s : State) : Host.Outcome State Fault Refusal := feed bytes s

/-- PLAN_CLEAR (R190). -/
def execPlanClear (bytes : List Byte) (s : State) : Host.Outcome State Fault Refusal := feed bytes s

/-- PLAN_ADOPT (R190). -/
def execPlanAdopt (bytes : List Byte) (s : State) : Host.Outcome State Fault Refusal := feed bytes s

/-- SETTINGS_READ (R27). -/
def execSettingsRead (bytes : List Byte) (s : State) : Host.Outcome State Fault Refusal := feed bytes s

/-- SETTING_WRITE (R27). -/
def execSettingWrite (bytes : List Byte) (s : State) : Host.Outcome State Fault Refusal := feed bytes s

/-- SERVICE_BYTE_GAP (R187): 10 ms after a byte of a record, the record is dropped, and the receiver hunts. -/
def execServiceByteGap (s : State) : Host.Outcome State Fault Refusal :=
  if due s.timeBase s.service.gap then .next (finish (hunt s)) else .next s

/-- REPLY_SENT (R187): the reply is out, and a request that waits is taken. -/
def execReplySent (s : State) : Host.Outcome State Fault Refusal :=
  match s.service.sending with
  | none => .next s
  | some _ =>
    let s := { s with service := { s.service with sending := none } }
    .next <| finish <|
      match s.service.waiting with
      | none => s
      | some r => takeRequest r { s with service := { s.service with waiting := none } }

end Sys2Proof.Machine
end

