-- ==== Sys2Proof/Machine/StartUp.lean ====
section
/-! DEFINITION. START: straps (R22), the values in force (R24 to R26), the retained record (R42, R44), what
the connectors show (R124, R141, R155, R179), and the roll window or BARRED (R22, R29). -/

namespace Sys2Proof.Machine

/-! ### Configuration (R24 to R26) -/

/-- One value in force after the range clamp (R24). -/
def clampParam (row : ParamRow) (p : StoredParam) : Nat :=
  if p.ok then max row.low (min p.value row.high) else row.dflt

/-- The twenty values after the range clamps, by symbol (R24). -/
def rangeClamped (stored : Vector StoredParam 20) : Settings :=
  let v := fun (i : Fin 20) => clampParam (paramRow i.val) stored[i]
  { m := v 0, cl := v 1, sl := v 2, l := v 3, a := v 4, n := v 5, d := v 6, gl := v 7, gs := v 8,
    p := v 9, s := v 10, tst := v 11, tpw := v 12, trev := v 13, wc := v 14, wr := v 15, b := v 16,
    wmin := v 17, rq := v 18, rmax := v 19 }

/-- The five cross-clamps, one after another (R25). -/
def crossClamped (v : Settings) : Settings :=
  let v := { v with sl := max v.sl v.cl }
  let v := { v with l := min v.l v.cl }
  let v := { v with a := min v.a (v.l / 2 - 1) }
  let v := { v with n := min v.n v.cl }
  { v with gs := min v.gs v.gl }

/-- The config tag (R26). -/
def configTag (v : Settings) : Nat :=
  ((settingsList v).mapIdx fun i x => (i + 1) * x).sum % 65536

/-- Some value in force differs from its stored value (R24). -/
def differsFromStored (stored : Vector StoredParam 20) (v : Settings) : Bool :=
  stored.toList.map (·.value) != settingsList v

/-- The configuration record at a start (R24 to R26); `shareZero` says that the share strap was 0. -/
def startSettings (stored : Vector StoredParam 20) (shareZero : Bool) : SettingsMem :=
  let v := crossClamped (rangeClamped stored)
  { stored := stored, inForce := v, chop := v.l / 2, tag := configTag v,
    adjusted := differsFromStored stored v || shareZero }

/-! ### Straps, retained record, pawl, load -/

/-- The straps as used: a share weight of 0 is taken as 1 (R22). -/
def usedStraps (t : Straps) : Straps := if t.share = 0 then { t with share := 1 } else t

/-- Staged at a plan stage above the number of entries of its own plan (R42). -/
def stageOutOfPlan (c : RetContent) : Bool :=
  match c.staged with
  | some ⟨_, .stage k⟩ => c.plan.length < k
  | _ => false

/-- The record at a start counts as valid (R36, R42). -/
def readsValid (r : Retained) : Bool := r.marker && !stageOutOfPlan r.record

/-- Settings memory at a start (R40, R42, R44): a write in flight is abandoned, which leaves the marker
invalid, and no write begins. -/
def startRetained (r : Retained) : Retained :=
  { marker := r.marker, record := r.record,
    content := if readsValid r then r.record else RetContent.blank,
    writing := none, rewriteOwed := false, validAtStart := readsValid r }

/-- The pawl state from the switches at a start (R141); one found WITHDRAWN is SETTING at once. -/
def startPawlState (setClosed withdrawnClosed : Bool) : PawlState :=
  match setClosed, withdrawnClosed with
  | true, false => .set
  | true, true => .stuck
  | false, _ => .setting

/-- The pawl controller at a start (R141). -/
def startPawl (v : Settings) (setClosed withdrawnClosed : Bool) : Pawl :=
  { state := startPawlState setClosed withdrawnClosed, commanded := .set, pendingWithdraw := false,
    limit := if setClosed then none else armed 0 (10 * v.tpw),
    setClosed := setClosed, withdrawnClosed := withdrawnClosed }

/-- The travel at a start: the encoder's value, or the nearer bound (R124). -/
def startTravel (x : Int) : Nat := min x.toNat topTravel

/-- The load monitor after the first conversion (R153 to R155, R160, R162). -/
def startLoad (v : Settings) (load : Nat) : LoadMon :=
  { present := load, overRange := load == 4095, above := v.wr < load, watch := false,
    share := .inactive, totalW := 0, totalU := 0, totalN := 0 }

/-! ### The state found, before any occurrence -/

/-- Every block at its values after start, with what the connectors and settings memory give, in
ROLLCALL and before the roll window opens. Settings memory's stored values and retained record, the
factory number and the commands that wait outlast a start; so does the model's own count. R187 says of the service
port only that it hunts after start: that a start also drops the reply being sent and the request that waits is the
model's choice (DESIGN CHOICE, assumption 38). -/
def startState (i : StartInputs) (s : State) : State :=
  let settings := startSettings s.settings.stored (i.straps.share = 0)
  let retained := startRetained s.retained
  let content := retained.content
  { pending := s.pending
    timeBase := 0
    serial := s.serial
    straps := usedStraps i.straps
    line :=
      { idle := false, attempt := none, haltSlot := none, claim := .empty, orderQueue := [],
        posePending := false, poseAgain := false, planQueue := [], rollPending := false,
        rollAgain := false, posePeriod := none, busyLimit := none, failures := 0, badFrames := 0,
        discarded := 0 }
    roll :=
      { candidates := [], members := [], answerOwed := false, quiet := none, limit := none,
        pacing := none }
    settings := settings
    retained := retained
    table := none
    plan := ⟨[], false, content.plan, planTag content.plan⟩
    stage :=
      { record := match content.staged with | some r => .restored r | none => .unstaged
        dir := content.dir
        awaitingSet := false }
    ceiling := ⟨.idle, .none, false, false⟩
    spacing := ⟨Stamp.unwritten, Stamp.unwritten, none, none, 0, false, false⟩
    engine :=
      { stroke := .rest, limit := none, travel := startTravel i.encoder,
        restRef := startTravel i.encoder, lastDir := .none, lastEnd := Stamp.unwritten,
        dwell := none, jog := .none, source := .stroke, drive := .off }
    pawl := startPawl settings.inForce i.setClosed i.withdrawnClosed
    loadMon := startLoad settings.inForce i.load.val
    modeCtl := ⟨.rollcall, false, none, none⟩
    faults := Vector.replicate 16 FaultRec.clear
    pendant := ⟨i.pendant, 0⟩
    service := ⟨none, none, none, none⟩
    lamps := ⟨Stamp.unwritten, false, .greenAmberAlternating, 0⟩
    notice := false
    openOrders := s.openOrders }

/-! ### Occurrences found at a start (R22, R124, R141, R155, R179) -/

/-- An encoder value outside the screw's travel, with the value read in the record (R124). -/
def startEncoderTest (x : Int) (s : State) : State :=
  if x < 0 ∨ (topTravel : Int) < x then
    reportAt (.travel x) .encoder none s
  else s

/-- Both pawl switches closed (R141). -/
def startPawlTest (s : State) : State :=
  if s.pawl.state = .stuck then report .pawlStuck none s else s

/-- An emergency contact found open counts as an opening (R179, R184). -/
def startEmergencyTest (s : State) : State :=
  if s.pendant.levels.emergencyClosed then s else emergencyOpens s

/-- A first reading above W_r (R155). -/
def startLoadTest (s : State) : State :=
  if s.loadMon.above then report .overload none (setActive .overload true s) else s

/-- An invalid station number (R22). -/
def startStrapTest (s : State) : State :=
  if 48 ≤ s.own then report .configMismatch (some s.own) s else s

/-- The occurrences found at a start, in one order; R29 gives none. -/
def startTests (x : Int) (s : State) : State :=
  startStrapTest (startLoadTest (startEmergencyTest (startPawlTest (startEncoderTest x s))))

/-! ### The roll window (R29) -/

/-- The station's own candidate entry (R29). -/
def ownCandidate (s : State) : Candidate :=
  { number := s.own, serial := s.serial, car := s.straps.car.val, feeder := s.straps.feeder.val,
    share := s.straps.share.val, mode := .rollcall, summary := summaryOf s.retained.content,
    lastRoll := Stamp.unwritten }

/-- Opens the roll window (R29). -/
def openWindow (s : State) : State :=
  requestRoll { s with roll :=
    { s.roll with
      candidates := [ownCandidate s]
      quiet := armed s.timeBase (10 * s.cfg.rq)
      limit := armed s.timeBase (10 * s.cfg.rmax)
      pacing := armed s.timeBase pacingUnits } }

/-- START (R22, R29): ROLLCALL with the roll window open, or BARRED for an invalid station number. -/
def execStart (i : StartInputs) (s : State) : Host.Outcome State Fault Refusal :=
  let s := startTests i.encoder (startState i s)
  .next (finish (if 48 ≤ s.own then enterBarred s else openWindow s))

end Sys2Proof.Machine
end

