-- ==== Sys2Proof/Machine/Dispatch.lean ====
section
/-! DEFINITION. One arm per command: its meaning. -/

namespace Sys2Proof.Machine

def exec (i : Instr) (s : State) : Host.Outcome State Fault Refusal :=
  match i with
  | .start inputs => Sys2Proof.Machine.execStart inputs s
  | .lineIdleStartBit peerStarts => Sys2Proof.Machine.execLineIdleStartBit peerStarts s
  | .lostArbitration => Sys2Proof.Machine.execLostArbitration s
  | .wonArbitration => Sys2Proof.Machine.execWonArbitration s
  | .bitError => Sys2Proof.Machine.execBitError s
  | .lineBusyLimitExpiry => Sys2Proof.Machine.execLineBusyLimitExpiry s
  | .badFrame levels => Sys2Proof.Machine.execBadFrame levels s
  | .rollFrame f => Sys2Proof.Machine.execRollFrame f s
  | .poseFrame f => Sys2Proof.Machine.execPoseFrame f s
  | .claimFrame f => Sys2Proof.Machine.execClaimFrame f s
  | .claimTaken => Sys2Proof.Machine.execClaimTaken s
  | .advance f => Sys2Proof.Machine.execAdvance f s
  | .retreat f => Sys2Proof.Machine.execRetreat f s
  | .stop f => Sys2Proof.Machine.execStop f s
  | .resume f => Sys2Proof.Machine.execResume f s
  | .haltFrame f => Sys2Proof.Machine.execHaltFrame f s
  | .load low f => Sys2Proof.Machine.execLoad low f s
  | .clear low f => Sys2Proof.Machine.execClear low f s
  | .adopt low f => Sys2Proof.Machine.execAdopt low f s
  | .posePeriodExpiry => Sys2Proof.Machine.execPosePeriodExpiry s
  | .rollQuietExpiry => Sys2Proof.Machine.execRollQuietExpiry s
  | .rollLimitExpiry => Sys2Proof.Machine.execRollLimitExpiry s
  | .rollPacingExpiry => Sys2Proof.Machine.execRollPacingExpiry s
  | .silenceExpiry n => Sys2Proof.Machine.execSilenceExpiry n s
  | .spacingInstantExpiry => Sys2Proof.Machine.execSpacingInstantExpiry s
  | .strokeTimeLimitExpiry => Sys2Proof.Machine.execStrokeTimeLimitExpiry s
  | .reversalDwellExpiry => Sys2Proof.Machine.execReversalDwellExpiry s
  | .pawlTimeLimitExpiry => Sys2Proof.Machine.execPawlTimeLimitExpiry s
  | .countEvent up => Sys2Proof.Machine.execCountEvent up s
  | .encoderError => Sys2Proof.Machine.execEncoderError s
  | .loadReading v => Sys2Proof.Machine.execLoadReading v s
  | .switchEvent sw closed => Sys2Proof.Machine.execSwitchEvent sw closed s
  | .orderButtonPress b pressed => Sys2Proof.Machine.execOrderButtonPress b pressed s
  | .jogUpPress => Sys2Proof.Machine.execJogUpPress s
  | .jogDownPress => Sys2Proof.Machine.execJogDownPress s
  | .jogUpRelease => Sys2Proof.Machine.execJogUpRelease s
  | .jogDownRelease => Sys2Proof.Machine.execJogDownRelease s
  | .keySwitch on => Sys2Proof.Machine.execKeySwitch on s
  | .emergencyOpen => Sys2Proof.Machine.execEmergencyOpen s
  | .emergencyClose => Sys2Proof.Machine.execEmergencyClose s
  | .writeCompletion => Sys2Proof.Machine.execWriteCompletion s
  | .stampExpired ref => Sys2Proof.Machine.execStampExpired ref s
  | .waitingLong => Sys2Proof.Machine.execWaitingLong s
  | .status bytes => Sys2Proof.Machine.execStatus bytes s
  | .peer bytes => Sys2Proof.Machine.execPeer bytes s
  | .readFaults bytes => Sys2Proof.Machine.execReadFaults bytes s
  | .ack bytes => Sys2Proof.Machine.execAck bytes s
  | .planRead bytes => Sys2Proof.Machine.execPlanRead bytes s
  | .planLoad bytes => Sys2Proof.Machine.execPlanLoad bytes s
  | .planClear bytes => Sys2Proof.Machine.execPlanClear bytes s
  | .planAdopt bytes => Sys2Proof.Machine.execPlanAdopt bytes s
  | .settingsRead bytes => Sys2Proof.Machine.execSettingsRead bytes s
  | .settingWrite bytes => Sys2Proof.Machine.execSettingWrite bytes s
  | .serviceByteGap => Sys2Proof.Machine.execServiceByteGap s
  | .replySent => Sys2Proof.Machine.execReplySent s
  | .malformedFrame w => Sys2Proof.Machine.execMalformedFrame w s

end Sys2Proof.Machine
end

