-- ==== Sys2Proof/Safety.lean ====
section
/-! DEFINITION. What counts as a safe state: when a motor may run and with what pawl (R123, R126, R133, R134,
R137, R148), and the bounds the manual gives the machine's counters, queues and distances. Then the parts
of a state that statements of what a command leaves unchanged speak of. -/

namespace Sys2Proof.Machine

/-! ### Motion -/

/-- A stroke's direction is raise or lower, and a contact stroke and a nudge raise (R91, R121). -/
def StrokeOk (r : Stroke) : Prop :=
  r.dir ≠ .none ∧ (r.kind = .contact ∨ r.kind = .nudge → r.dir = .raise)

/-- The stroke engine, the pawl and the mode stand together as the manual has them. -/
structure MotionSafe (s : State) : Prop where
  /-- The drive command is the one that the selected source gives (R123). -/
  drive : s.engine.drive = driveOf s.engine.source s.engine.stroke s.engine.jog
  /-- The source is JOG exactly while a jog is in progress (R123). -/
  source : s.engine.source = if s.engine.jog = .none then .stroke else .jog
  /-- A jog is in progress only in UNSTAGED (R137, R140). -/
  jogMode : s.engine.jog ≠ .none → s.mode = .unstaged
  /-- A jog is in progress only with the stroke engine at REST (R137). -/
  jogRest : s.engine.jog ≠ .none → s.engine.stroke = .rest
  /-- No stroke runs in ROLLCALL, BARRED or HALTED (R123, R134). -/
  runMode : ∀ r n, s.engine.stroke = .running r n →
    s.mode ≠ .rollcall ∧ s.mode ≠ .barred ∧ s.mode ≠ .halted
  /-- A lowering stroke runs only with the pawl WITHDRAWN (R148). -/
  runPawl : ∀ r n, s.engine.stroke = .running r n → r.dir = .lower → s.pawl.state = .withdrawn
  /-- A jog lowers only with the pawl WITHDRAWN (R139). -/
  jogPawl : s.engine.jog = .down → s.pawl.state = .withdrawn
  /-- A claimed or running stroke is of a right shape. -/
  strokeShape : ∀ r, s.engine.stroke = .claiming r ∨ (∃ n, s.engine.stroke = .running r n) →
    StrokeOk r
  /-- The stroke engine is CLAIMING exactly while the CLAIM slot holds a claim (R111, R114, R118). -/
  claimSlot : s.claiming = true ↔ s.line.claim ≠ .empty
  /-- No claim stands in ROLLCALL or BARRED (R86, R123). -/
  claimMode : s.claiming = true → s.mode ≠ .rollcall ∧ s.mode ≠ .barred
  /-- An offer is of a right shape. -/
  offerShape : ∀ r, s.spacing.offer = some r → StrokeOk r

/-! ### Bounds -/

/-- A stage index is SETDOWN or one of the stages 0 to 16 (R6, R74). -/
def StageFits : StageIx → Prop
  | .stage k => k ≤ 16
  | .setdown => True

/-- A plan entry lies within the limits of R66. -/
def EntryFits (e : PlanEntry) : Prop :=
  e.target ≤ 200000 ∧ (∀ l, e.carLead = some l → l ≤ 8000) ∧ ∀ l, e.setLead = some l → l ≤ 8000

/-- A plan bank holds at most 16 entries, each within its limits (R66, R67, R71). -/
def BankFits (bank : List PlanEntry) : Prop := bank.length ≤ 16 ∧ ∀ e ∈ bank, EntryFits e

/-- A retained stage has a contact zero on the screw and a stage index (R40, R124). -/
def RetStageFits (r : RetStage) : Prop := r.contactZero ≤ 240000 ∧ StageFits r.stage

/-- Retained content within the bounds of what it was taken from (R40). -/
def ContentFits (c : RetContent) : Prop := BankFits c.plan ∧ ∀ r, c.staged = some r → RetStageFits r

/-- Travel and what is taken from it, the present reading, the stage, the counts, the queues, the plan banks with
their entries, the retained content, the candidate set and the lamps' flash lie within the bounds that the manual gives
them. -/
structure Bounded (s : State) : Prop where
  /-- R124. -/
  travel : s.engine.travel ≤ 240000
  /-- The rest reference is a travel (R124, R129). -/
  restRef : s.engine.restRef ≤ 240000
  /-- R153. -/
  present : s.loadMon.present ≤ 4095
  /-- The contact zero is a travel, and the stage index is 0 to 16 or SETDOWN (R73, R130). -/
  staged : ∀ r, s.stage.record = .staged r → r.contactZero ≤ 240000 ∧ StageFits r.stage
  /-- R42. -/
  restored : ∀ r, s.stage.record = .restored r → RetStageFits r
  /-- One candidate entry for a number, the numbers rising, and at most 48 of them (R28). -/
  candidates : s.roll.candidates.Pairwise (fun c d => c.number < d.number) ∧
    s.roll.candidates.length ≤ 48
  /-- Outside BARRED every candidate's number is a station's (R22, R28). -/
  candidateNumbers : s.mode ≠ .barred → ∀ c ∈ s.roll.candidates, c.number < 48
  /-- R128. -/
  remaining : ∀ r n, s.engine.stroke = .running r n → n ≤ s.cfg.l + s.cfg.a
  /-- R11. -/
  orderQueue : s.line.orderQueue.length ≤ 4
  /-- R11. -/
  planQueue : s.line.planQueue.length ≤ 4
  /-- R15. -/
  failures : s.line.failures ≤ 16
  /-- R16. -/
  badFrames : s.line.badFrames ≤ 65535
  /-- R16. -/
  discarded : s.line.discarded ≤ 65535
  /-- R185. -/
  discards : s.pendant.discards ≤ 65535
  /-- R107. -/
  withdrawals : s.spacing.withdrawals ≤ 255
  /-- R180, R181. -/
  counts : ∀ k, (s.fault k).count ≤ 255 ∧ (s.fault k).snapshot ≤ 255
  /-- R191. -/
  flash : s.lamps.flash < 5000
  /-- R67. -/
  staging : BankFits s.plan.staging
  /-- R71. -/
  active : BankFits s.plan.active
  /-- R40. -/
  retained : ContentFits s.retained.record ∧ ContentFits s.retained.content ∧
    ∀ c, s.retained.writing = some c → ContentFits c

/-! ### The table and the mode -/

/-- The peer table exists in every mode but ROLLCALL and BARRED (R45). -/
def TableExists (s : State) : Prop :=
  s.table.isSome = true ↔ s.mode ≠ .rollcall ∧ s.mode ≠ .barred

/-! ### The parts of a state, for statements of what a command leaves unchanged -/

/-- The part of the state that a command's own effect writes and that settling leaves alone: no mode entry, no
occurrence of a fault, no report of the pawl and no evaluation touches it. -/
structure Outer where
  pending : List Instr
  timeBase : Time
  serial : BitVec 32
  straps : Straps
  roll : Roll
  settings : SettingsMem
  table : Option PeerTable
  plan : PlanStore
  pendant : Pendant
  service : Service
  openOrders : Nat
  idle : Bool
  attempt : Option WireFrame
  orderQueue : List WireFrame
  planQueue : List WireFrame
  rollPending : Bool
  rollAgain : Bool
  posePeriod : Compare
  failures : Nat
  badFrames : Nat
  discarded : Nat
  travel : Nat
  present : Nat
  overRange : Bool
  above : Bool
  setClosed : Bool
  withdrawnClosed : Bool
  rejoined : Bool
  lastRefused : Option RefusedOrder
  lineStamp : Stamp
  feederStamp : Stamp
  flash : Nat

/-- The outer part of a state. -/
def State.outer (s : State) : Outer :=
  { pending := s.pending, timeBase := s.timeBase, serial := s.serial, straps := s.straps,
    roll := s.roll, settings := s.settings, table := s.table, plan := s.plan,
    pendant := s.pendant, service := s.service, openOrders := s.openOrders,
    idle := s.line.idle, attempt := s.line.attempt, orderQueue := s.line.orderQueue,
    planQueue := s.line.planQueue, rollPending := s.line.rollPending,
    rollAgain := s.line.rollAgain, posePeriod := s.line.posePeriod, failures := s.line.failures,
    badFrames := s.line.badFrames, discarded := s.line.discarded, travel := s.engine.travel,
    present := s.loadMon.present, overRange := s.loadMon.overRange, above := s.loadMon.above,
    setClosed := s.pawl.setClosed, withdrawnClosed := s.pawl.withdrawnClosed,
    rejoined := s.modeCtl.rejoined, lastRefused := s.modeCtl.lastRefused,
    lineStamp := s.spacing.lineStamp, feederStamp := s.spacing.feederStamp,
    flash := s.lamps.flash }

/-- The rest of the state that settling leaves alone outside MOVING and SETTLED. With `Outer` it is the whole
state but for the ceiling unit's outcome and wait reason, the offer and the spacing instant, the share
state with its totals and the active flag of LOAD_SHARE, the line-busy limit, the lamps shown with the
long-wait mark, and the model's own notice. -/
structure Inner where
  mode : Mode
  lastStop : Option StopRecord
  stage : StageCtl
  engine : Engine
  pawl : Pawl
  retained : Retained
  haltSlot : Option WireFrame
  claim : ClaimSlot
  posePending : Bool
  poseAgain : Bool
  watch : Bool
  nudgeDue : Bool
  release : Bool
  withdrawals : Nat
  held : Bool
  admitted : Bool
  waitStamp : Stamp
  faults : FaultKind → Bool × Bool × Nat × Option FirstRecord × Nat

/-- The inner part of a state. The active flag of LOAD_SHARE is left out. -/
def State.inner (s : State) : Inner :=
  { mode := s.mode, lastStop := s.modeCtl.lastStop, stage := s.stage, engine := s.engine,
    pawl := s.pawl, retained := s.retained, haltSlot := s.line.haltSlot, claim := s.line.claim,
    posePending := s.line.posePending, poseAgain := s.line.poseAgain, watch := s.loadMon.watch,
    nudgeDue := s.ceiling.nudgeDue, release := s.ceiling.release,
    withdrawals := s.spacing.withdrawals, held := s.spacing.held,
    admitted := s.spacing.admitted, waitStamp := s.lamps.waitStamp,
    faults := fun k =>
      (s.latched k, k != .loadShare && s.active k, (s.fault k).count, (s.fault k).first,
        (s.fault k).snapshot) }

/-- Neither MOVING nor SETTLED. -/
def Quiet (s : State) : Prop := s.mode ≠ .moving ∧ s.mode ≠ .settled

/-- Nothing is left to settle that could reach beyond a command's own effect: no notice is outstanding, or
the station is neither MOVING nor SETTLED. -/
def Calm (s : State) : Prop := Quiet s ∨ s.notice = false

/-- A station in MOVING or SETTLED would find its column in its band, or the share check not active (R160, R161): the
station is not staged, the self row is LOST, the car group carries less than W_min, or the column's part lies within
the band. -/
def InBand (s : State) : Prop :=
  s.lift.isSome = true → selfLive s = true → s.cfg.wmin ≤ totalW s →
    16 * s.loadMon.present * totalU s ≤ (16 + s.cfg.b) * (s.straps.share.val * totalW s) ∧
    (16 - s.cfg.b) * (s.straps.share.val * totalW s) ≤ 16 * s.loadMon.present * totalU s

/-- The peer table's self row is the station's own, and no peer's row has its number (R35, R48). -/
def TableOwn (s : State) : Prop :=
  ∀ t, s.table = some t →
    t.selfFixed.number = s.own ∧ ∀ r ∈ t.peers, r.fixed.number ≠ s.own

/-- What ends every command has been done (R15, R58, R187, R191): no notice is outstanding, the lamps show the state,
the gap to the next byte is timed exactly while a service record is being collected, and a frame that is ready while
the line is not idle has the line-busy limit armed. -/
structure Settled (s : State) : Prop where
  notice : s.notice = false
  lamps : s.lamps.shown = indicationOf s
  gap : s.service.gap.isSome = s.service.collecting.isSome
  busy : frameReady s = true → s.line.idle = false → s.line.busyLimit.isSome = true

/-! ### Rows and fault records, for statements -/

/-- The claim that waits in the CLAIM slot. -/
def waitingClaim : ClaimSlot → Option WireFrame
  | .waiting w => some w
  | _ => none

/-- One more, unless it is already `cap`. -/
def oneMore (cap n : Nat) : Nat := if n < cap then n + 1 else n

/-- The row of a peer by number. -/
def peerOf (s : State) (n : Nat) : Option Row := (peerRows s).find? fun r => r.fixed.number == n

/-- Where the column stands: the lift while staged, else the travel (R181). -/
def columnPlace (s : State) : Place :=
  match s.stage.record with
  | .staged r => .lift ((s.engine.travel : Int) - r.contactZero)
  | _ => .travel s.engine.travel

/-- The record of a kind after an occurrence in a state, with the active flag and the place given (R181, R182). -/
def recordAfterAt (place : Place) (s : State) (k : FaultKind) (active : Bool) (peer : Option Nat) :
    FaultRec :=
  { latched := true
    active := active
    count := oneMore 255 (s.fault k).count
    first :=
      if (s.fault k).latched then (s.fault k).first
      else some ⟨⟨s.timeBase, false⟩, place, peer⟩
    snapshot := (s.fault k).snapshot }

/-- The record of a kind after an occurrence at the place where the column stands (R181, R182). -/
def recordAfter (s : State) (k : FaultKind) (active : Bool) (peer : Option Nat) : FaultRec :=
  recordAfterAt (columnPlace s) s k active peer

/-- The row of a member after a sign of life (R49). -/
def heardAt (s : State) (r : Row) : Row :=
  { r with marks :=
      { live := .live, lastHeard := ⟨s.timeBase, false⟩, lastClaim := r.marks.lastClaim,
        silence := some (s.timeBase + BitVec.ofNat 32 (s.cfg.s * s.cfg.p * 10)) } }

/-! ### A withdrawn claim, for statements -/

/-- How the claim stands after a withdrawal that has taken effect (R114): one more withdrawal, none held, and the slot
EMPTY with the stroke engine at REST. In MOVING the evaluation that follows may queue a fresh claim at once, which
bears the precedence of the new count (R110, R119). -/
structure ClaimWithdrawn (s t : State) : Prop where
  withdrawals : t.spacing.withdrawals = oneMore 255 s.spacing.withdrawals
  held : t.spacing.held = false
  slot : t.line.claim = .empty ∧ t.engine.stroke = .rest ∨
    ∃ r, t.mode = .moving ∧ t.engine.stroke = .claiming r ∧ t.line.claim = .waiting (claimFrame t r)

/-! ### Entry to BARRED, for statements -/

/-- What an entry to BARRED brings about besides the outer part (R12, R34, R166): staged content dropped without
a hand-over, POSE sending begun, the ceiling unit IDLE with no offer, and the pawl left commanded SET. -/
structure EntersBarred (s t : State) : Prop where
  mode : t.mode = .barred
  stage : t.stage = ⟨.unstaged, .none, false⟩
  retained : t.retained = s.retained
  pose : t.line.posePending = true
  ceiling : t.ceiling.outcome = .idle
  offer : t.spacing.offer = none
  haltSlot : t.line.haltSlot = s.line.haltSlot
  lastStop : t.modeCtl.lastStop = s.modeCtl.lastStop
  pawl : s.pawl.state = .set ∨ s.pawl.state = .setting →
    t.pawl = { s.pawl with pendingWithdraw := false } ∧ t.engine = s.engine

/-- Two states have the same fault records but for one kind (the active flag of LOAD_SHARE left out). -/
def OtherFaultsKept (s t : State) (k : FaultKind) : Prop := ∀ j, j ≠ k → t.inner.faults j = s.inner.faults j

/-- Two states have the same fault records (the active flag of LOAD_SHARE left out). -/
def FaultsKept (s t : State) : Prop := t.inner.faults = s.inner.faults

/-! ### What mode control and the plan store find, and what an arrival test gives -/

/-- The state with a member's frame received at the line (R13) and its sign of life taken (R49): what mode control
and the plan store act on. -/
def heardFrom (s : State) (w : WireFrame) : State := signOfLife w.station.toNat (frameArrives w s)

/-- The state in which a peer's POSE has been received and taken to its row (R13, R49, R50). -/
def posed (s : State) (f : RxFrame) (m : PoseMsg) : State :=
  onTable (mapReport f.station.toNat fun _ => reportOf m) (heardFrom s (wire kindPose f))

/-- The state in which a peer's CLAIM has been received and taken to its row (R13, R49, R51). -/
def claimed (s : State) (f : RxFrame) (m : ClaimMsg) : State :=
  onTable (mapReport f.station.toNat (claimToRow m)) (heardFrom s (wire kindClaim f))

/-- The ceiling unit still admits a queued claim (R89, R103): the PEERS check passes for its class, and its end lies
within the lead terms of its class, a raising or lowering one within its target too; a contact claim has no end. -/
def StillAdmitted (u : State) (c : Stroke) : Prop :=
  let lowers : Prop := c.kind ≠ .contact ∧ c.kind ≠ .nudge ∧ c.dir = .lower
  allLive u = true ∧ peerFault u = false ∧ anyHold u = false ∧ anyHalted u = false ∧
    (lowers → u.ceiling.release = true ∨ loweringReady u = true) ∧
    (c.kind ≠ .contact →
      ∃ r z, u.stage.record = .staged r ∧ c.stop = some z ∧
        (c.kind = .nudge →
          (∀ m, carMin u = some m → z ≤ m + u.cfg.cl) ∧ ∀ m, setMin u = some m → z ≤ m + u.cfg.sl) ∧
        (c.kind ≠ .nudge → c.dir ≠ .lower →
          z ≤ r.effTarget ∧ (∀ m, carMin u = some m → z ≤ m + carLeadEff u r.stage) ∧
            ∀ m, setMin u = some m → z ≤ m + setLeadEff u r.stage) ∧
        (lowers →
          r.effTarget ≤ z ∧ (∀ m, carMax u = some m → m - carLeadEff u r.stage ≤ z) ∧
            ∀ m, setMax u = some m → m - setLeadEff u r.stage ≤ z))

/-- How a state stands after an arrival test in MOVING with a stage record, direction and lift
(R80, R81, R82, R84): near its effective target it reports TRAVEL_LIMIT once if that is not the target, and else
settles, ends its staging at SETDOWN, or waits for the pawl, with the ceiling unit ARRIVED (R90); short of it it
stays in MOVING; beyond it is DRIFT. -/
structure ArrivalTested (s t : State) (r : StagedRec) (dir : Direction) (h : Int) : Prop where
  limited : -(s.cfg.a : Int) ≤ r.effTarget - h → r.effTarget - h ≤ s.cfg.a →
    r.effTarget ≠ r.target → r.limitReported = false →
    t.mode = .hold ∧ t.latched .travelLimit = true ∧
      t.stage.record = .staged { r with limitReported := true }
  arrived : -(s.cfg.a : Int) ≤ r.effTarget - h → r.effTarget - h ≤ s.cfg.a →
    r.effTarget = r.target ∨ r.limitReported = true → dir ≠ .lower ∨ s.pawl.state = .set →
    if r.stage = .setdown then
      t.mode = .unstaged ∧ t.stage = ⟨.unstaged, .none, false⟩ ∧
        t.retained.content = ⟨none, .none, s.plan.active⟩
    else (t.mode = .settled ∨ t.mode = .idle) ∧ t.stage.record = .staged r
  waits : -(s.cfg.a : Int) ≤ r.effTarget - h → r.effTarget - h ≤ s.cfg.a →
    r.effTarget = r.target ∨ r.limitReported = true → dir = .lower →
    s.pawl.state = .withdrawn ∨ s.pawl.state = .setting → InBand s →
    t.mode = .moving ∧ t.stage = ⟨.staged r, dir, true⟩ ∧ t.pawl.state ≠ .set ∧
      (t.engine.stroke = .rest → t.ceiling.outcome = .arrived ∧ t.ceiling.reason = .none)
  short : (dir = .raise ∧ (s.cfg.a : Int) < r.effTarget - h) ∨
      (dir = .lower ∧ r.effTarget - h < -(s.cfg.a : Int)) → InBand s →
    t.mode = .moving ∧ t.stage.record = .staged r ∧ t.stage.dir = dir
  overrun : (dir ≠ .raise ∧ (s.cfg.a : Int) < r.effTarget - h) ∨
      (dir ≠ .lower ∧ r.effTarget - h < -(s.cfg.a : Int)) →
    t.mode = .halted ∧ t.latched .drift = true ∧ t.stage.record = .staged r
  dir : t.mode ≠ .unstaged → t.stage.dir = dir

/-- How a state stands after an entry to MOVING that the share evaluation ends at once, with the stage record given
(R132, R162, R163, R175): HOLD, with a new occurrence of LOAD_SHARE whose condition has ended with the check. -/
structure HeldForShare (s t : State) (r : StagedRec) : Prop where
  mode : t.mode = .hold
  record : t.stage.record = .staged r
  share : t.loadMon.share = .inactive
  fault : t.fault .loadShare =
    { latched := true
      active := false
      count := oneMore 255 (s.fault .loadShare).count
      first := some ⟨⟨s.timeBase, false⟩, columnPlace s, none⟩
      snapshot := (s.fault .loadShare).snapshot }
  lastStop : t.modeCtl.lastStop = some ⟨.hold, .fault, some .loadShare, none, ⟨s.timeBase, false⟩⟩

/-- How a state stands after an entry of a staged station to MOVING (R80, R81, R97, R162, R163): the share evaluation,
made on the rows as they stand in `u`, and in band the arrival test; with direction lower the nudge-due flag is set. -/
structure EntersMoving (s u t : State) (r : StagedRec) (dir : Direction) (h : Int) : Prop where
  inBand : InBand u → ArrivalTested u t r dir h
  outOfBand : ¬ InBand u → s.loadMon.share = .inactive ∨ s.loadMon.share = .inBand →
    HeldForShare s t r
  nudge : t.mode ≠ .unstaged → dir = .lower → 0 < s.cfg.n → s.engine.travel < 240000 →
    t.ceiling.nudgeDue = true
  unstaged : t.mode = .unstaged → t.ceiling.nudgeDue = false

/-- How a state stands after a stage entry from a stage record, with the entry to MOVING (R41, R74, R76, R79, R81, R95):
the new record has the target that R74's table gives, and what the entry to MOVING makes of it follows. In every mode
that it ends in but UNSTAGED the direction is that from the old target to the new and the retained content holds the
stage, the direction and the plan; at the end of staging it holds neither. The lowering-release flag is clear, unless a
nudge of length 0 lets the lowering class be evaluated at once. `u` is the state whose rows the share evaluation
reads. -/
def EntersStage (s u t : State) (r : StagedRec) (k : StageIx) : Prop :=
  let target : Int :=
    match k with
    | .setdown => -(s.cfg.d : Int)
    | .stage 0 => 0
    | .stage (j + 1) => ((s.plan.active[j]?).map fun e => (e.target : Int)).getD 0
  let r' : StagedRec :=
    ⟨r.contactZero, k, target, max (-(r.contactZero : Int)) (min target (240000 - r.contactZero)), false⟩
  let dir : Direction :=
    if r.target < target then .raise else if target < r.target then .lower else .none
  EntersMoving s u t r' dir ((s.engine.travel : Int) - r.contactZero) ∧
    t.modeCtl.lastRefused = s.modeCtl.lastRefused ∧ t.plan = s.plan ∧
    (t.mode = .moving → t.stage.record = .staged r') ∧
    (t.mode ≠ .unstaged →
      t.stage.dir = dir ∧ t.retained.content = ⟨some ⟨r.contactZero, k⟩, dir, s.plan.active⟩) ∧
    (t.mode = .unstaged → t.retained.content = ⟨none, .none, s.plan.active⟩) ∧
    (dir ≠ .lower ∨ (0 < s.cfg.n ∧ s.engine.travel < 240000) → t.ceiling.release = false)

/-- The wait stamp and the long-wait mark after a command that gives a wait reason (R191): the stamp is written when
the reason leaves NONE, NONE ends a long wait, and a reason that gives way to another changes neither. -/
structure WaitTimed (s t : State) : Prop where
  ends : t.ceiling.reason = .none →
    t.lamps.waitingLong = false ∧ t.lamps.waitStamp = s.lamps.waitStamp
  begins : t.ceiling.reason ≠ .none → s.ceiling.reason = .none →
    t.lamps.waitingLong = false ∧ t.lamps.waitStamp = ⟨s.timeBase, false⟩
  goesOn : t.ceiling.reason ≠ .none → s.ceiling.reason ≠ .none →
    t.lamps.waitingLong = s.lamps.waitingLong ∧ t.lamps.waitStamp = s.lamps.waitStamp

/-! ### Stamps, for statements -/

/-- The stored stamp that a reference names, if it is there (R20). -/
def stampOf (s : State) : StampRef → Option Stamp
  | .candidate n => (candidate s n).map (·.lastRoll)
  | .lastHeard n => (rowOf s n).map (·.marks.lastHeard)
  | .lastClaim n => (rowOf s n).map (·.marks.lastClaim)
  | .line => some s.spacing.lineStamp
  | .feeder => some s.spacing.feederStamp
  | .strokeEnd => some s.engine.lastEnd
  | .wait => some s.lamps.waitStamp
  | .refusedOrder => s.modeCtl.lastRefused.map (·.stamp)
  | .stopRecord => s.modeCtl.lastStop.map (·.stamp)
  | .firstRecord k => (s.fault k).first.map (·.stamp)

/-- A state with every stored stamp blank: two states that agree so differ in their stamps alone. -/
def State.unstamped (s : State) : State :=
  let blank : Stamp := ⟨0, true⟩
  let noStamps : RowMarks → RowMarks := fun m => { m with lastHeard := blank, lastClaim := blank }
  { s with
    roll :=
      { s.roll with candidates := s.roll.candidates.map fun c => { c with lastRoll := blank } }
    table := s.table.map fun a =>
      { a with
        selfMarks := noStamps a.selfMarks
        peers := a.peers.map fun q => { q with marks := noStamps q.marks } }
    spacing := { s.spacing with lineStamp := blank, feederStamp := blank }
    engine := { s.engine with lastEnd := blank }
    lamps := { s.lamps with waitStamp := blank }
    modeCtl :=
      { s.modeCtl with
        lastRefused := s.modeCtl.lastRefused.map fun r => { r with stamp := blank }
        lastStop := s.modeCtl.lastStop.map fun r => { r with stamp := blank } }
    faults := s.faults.map fun f => { f with first := f.first.map fun o => { o with stamp := blank } } }

/-! ### The frame that a command names -/

/-- The whole frame that completes at a frame command other than ROLL_FRAME and MALFORMED_FRAME. -/
def frameOf : Instr → Option WireFrame
  | .poseFrame f => some (wire kindPose f)
  | .claimFrame f => some (wire kindClaim f)
  | .haltFrame f => some (wire kindHalt f)
  | .advance f => some (wireOrder 0 f)
  | .retreat f => some (wireOrder 1 f)
  | .stop f => some (wireOrder 2 f)
  | .resume f => some (wireOrder 3 f)
  | .load low f => some (wirePlan 0 low f)
  | .clear low f => some (wirePlan 1 low f)
  | .adopt low f => some (wirePlan 2 low f)
  | _ => none

/-! ### The service port, for statements -/

/-- The command that brings the whole record of a request to the service port (R186, R188). -/
def askedBy (r : Request) : Instr :=
  let bytes := recordOf r.kind r.payload
  match r.kind with
  | 1 => .status bytes
  | 2 => .peer bytes
  | 3 => .readFaults bytes
  | 4 => .ack bytes
  | 5 => .planRead bytes
  | 6 => .planLoad bytes
  | 7 => .planClear bytes
  | 8 => .planAdopt bytes
  | 9 => .settingsRead bytes
  | _ => .settingWrite bytes

end Sys2Proof.Machine
end

