-- ==== Sys2Proof/WellFormed.lean ====
section
/-! DEFINITION. Which commands are well formed: operands that the outside world can supply with the event a
row names. The step does not rest on it: an ill-formed command has a meaning too. -/

namespace Sys2Proof.WellFormed

open Sys2Proof.Machine

/-- A payload has at most 15 bytes (R2). -/
def payload (bs : List Byte) : Bool := bs.length ≤ 15

/-- The operand payload of a frame whose byte 0 the row fixes has at most 14 bytes (R2, R10). -/
def afterByte0 (bs : List Byte) : Bool := bs.length ≤ 14

/-- A station number of a member or candidate (R22). -/
def number (n : Nat) : Bool := n < 48

/-- Levels that do not read as a frame complete and of good CRC (R16). -/
def badLevels (ls : List Level) : Bool :=
  match readLevels ls with
  | .complete _ => false
  | _ => true

/-- A frame that is malformed, of a length that a frame can have (R2, R16). -/
def malformedWire (w : WireFrame) : Bool := malformed w && payload w.payload

/-- One whole record of a request kind: start byte, kind, length, that many bytes, and a sum byte (R186). -/
def record (kind : Nat) (bytes : List Byte) : Bool :=
  match bytes with
  | start :: k :: rest => start == 126 && k.toNat == kind && recordComplete (k :: rest)
  | _ => false

/-- A stamp reference names a row or candidate by a member's number. -/
def stampRef : StampRef → Bool
  | .candidate n | .lastHeard n | .lastClaim n => number n
  | _ => true

/-- A stage index that frames can carry (R6, R74). -/
def stage : StageIx → Bool
  | .stage k => k ≤ 16
  | .setdown => true

/-- A content within the ranges of its layout (R6 to R10): what `payloadOf` can carry. -/
def content : Content → Bool
  | .roll m =>
    m.car < 16 && m.feeder < 8 && 1 ≤ m.share && m.share < 16 && m.tag < 65536
      && m.summary.all fun p => stage p.1 && p.2 < 65536
  | .pose m =>
    m.load < 4096 && m.planTag < 65536 && m.stage.all stage && m.lift.all liftInRange
      && m.committedEnd.all liftInRange
      && m.committedEnd.isSome == (m.lift.isSome && m.flight != .none)
  | .claim m =>
    claimDirOk m.kind m.dir && stage m.stage && liftInRange m.start && m.stop.all liftInRange
      && m.stop.isNone == (m.kind == .contact) && (m.kind != .contact || 0 ≤ m.start)
  | .order _ => true
  | .halt k => (faultCode k).val ≤ 5
  | .plan (.load target carLead setLead) =>
    target < 16777216 && carLead.all (· < 65536) && setLead.all (· < 65536)
  | .plan _ => true

end Sys2Proof.WellFormed

namespace Sys2Proof

open WellFormed in
/-- Well-formed commands. -/
def wellFormed : Instr → Bool
  | .badFrame levels => badLevels levels
  | .rollFrame f | .poseFrame f | .claimFrame f | .haltFrame f => payload f.payload
  | .advance f | .retreat f | .stop f | .resume f => afterByte0 f.payload
  | .load _ f | .clear _ f | .adopt _ f => afterByte0 f.payload
  | .silenceExpiry n => number n
  | .stampExpired ref => stampRef ref
  | .malformedFrame w => malformedWire w
  | .status bytes => record 1 bytes
  | .peer bytes => record 2 bytes
  | .readFaults bytes => record 3 bytes
  | .ack bytes => record 4 bytes
  | .planRead bytes => record 5 bytes
  | .planLoad bytes => record 6 bytes
  | .planClear bytes => record 7 bytes
  | .planAdopt bytes => record 8 bytes
  | .settingsRead bytes => record 9 bytes
  | .settingWrite bytes => record 10 bytes
  | .start _ | .lineIdleStartBit _ | .lostArbitration | .wonArbitration | .bitError
  | .lineBusyLimitExpiry | .claimTaken | .posePeriodExpiry | .rollQuietExpiry | .rollLimitExpiry
  | .rollPacingExpiry | .spacingInstantExpiry | .strokeTimeLimitExpiry | .reversalDwellExpiry
  | .pawlTimeLimitExpiry | .countEvent _ | .encoderError | .loadReading _ | .switchEvent _ _
  | .orderButtonPress _ _ | .jogUpPress | .jogDownPress | .jogUpRelease | .jogDownRelease
  | .keySwitch _ | .emergencyOpen | .emergencyClose | .writeCompletion | .waitingLong
  | .serviceByteGap | .replySent => true

end Sys2Proof
end

