-- ==== Sys2Proof/Certificates/Slice0/Obligations.lean ====
section
/-! DEFINITION. The statements about the LS-48. In a frame, `outer` is the part of a state that only a command's
own effect writes, and `inner` the part that settling leaves alone outside MOVING and SETTLED. -/

open Sys2Proof Sys2Proof.Machine

/-! ### The step, reset and invariants -/

/-- A step takes the command at the front of the queue. With none waiting it takes the first event that is due,
and with none due the time base goes up by 1 (R19, R21), and the lamps' 500 ms flash runs on by one unit, across the
wrap of the time base too (R191). That an idle step does this is the model's choice, assumption 2; that the flash is
held as a count from 0 at a start is assumption 11. -/
def Obligations.StepTakesFront : Prop :=
  (∀ (c : Instr) (rest : List Instr) (s : State),
    step { s with pending := c :: rest } = exec c { s with pending := rest }) ∧
  (∀ (s : State) (c : Instr), s.pending = [] → dueEvent s = some c → step s = exec c s) ∧
  (∀ s : State, s.pending = [] → dueEvent s = none →
    step s =
      .next
        { s with
          timeBase := s.timeBase + 1
          lamps := { s.lamps with flash := (s.lamps.flash + 1) % 5000 } })

/-- The state right after a start meets every invariant of this file. What a start reads from outside is chosen
in assumption 1. -/
def Obligations.ResetMeetsInvariants : Prop :=
  MotionSafe State.reset ∧ Bounded State.reset ∧ TableExists State.reset ∧ TableOwn State.reset ∧
    Settled State.reset

/-- Every step keeps the agreement of drive, source, strokes, jogs, claims, pawl and mode: no motor runs but in
the modes and with the pawl that the manual asks for (R123, R126, R133, R134, R137, R139, R148). -/
def Obligations.MotionSafeKept : Prop :=
  ∀ s t : State, MotionSafe s → step s = .next t → MotionSafe t

/-- Every step keeps travel, rest reference, contact zero and the present reading, the stage index, the line's,
pendant's, spacing unit's and fault record's counts, the queues, the plan banks with their entries, the retained
content, the candidate set and the lamps' flash within the manual's bounds. -/
def Obligations.BoundedKept : Prop :=
  ∀ s t : State, Bounded s → step s = .next t → Bounded t

/-- Every step keeps the peer table present exactly in the modes that have one (R45), with the station's own
row as its self row and no other row of its number (R35, R48). -/
def Obligations.TableKept : Prop :=
  ∀ s t : State, TableExists s → TableOwn s → step s = .next t → TableExists t ∧ TableOwn t

/-- Every step leaves no notice outstanding, the lamps showing the first row of R191 that applies, and the line-
busy limit armed while a frame is ready and the line is not idle (R15), and the gap to the next byte timed while a
service record is collected (R187). That the limit is armed for a place that holds the frame on the line too is
assumption 5. The green, amber and red lamps are then as the first row of R191 that applies has them. Which half of a
flash is lit is left free (assumption 11). -/
def Obligations.SettledKept : Prop :=
  ∀ s t : State, Settled s → step s = .next t →
    let lit : Bool := decide (t.lamps.flash < 2500) == Config.flashLitFirst
    let lamps : Bool × Bool × Bool → Prop := fun greenAmberRed => lampLevels t = greenAmberRed
    Settled t ∧
      (t.mode = .halted → lamps (false, false, true)) ∧
      (t.mode = .barred → lamps (false, false, lit)) ∧
      (t.mode = .rollcall → lamps (lit, !lit, false)) ∧
      (t.mode = .hold → lamps (false, true, false)) ∧
      (t.mode = .moving → t.lamps.waitingLong = true → lamps (false, true, false)) ∧
      (t.mode = .moving → t.lamps.waitingLong = false → lamps (lit, false, false)) ∧
      (t.mode = .settled → lamps (lit, true, false)) ∧
      (t.mode = .idle → lamps (true, false, false)) ∧
      (t.mode = .unstaged → lamps (false, lit, false))

/-! ### Frames as bits and bytes -/

/-- A receiver reads back exactly the frame that a sender puts on the line, whatever follows it (R2, R3). -/
def Obligations.FrameRoundTrip : Prop :=
  ∀ (w : WireFrame) (after : List Level), w.payload.length ≤ 15 →
    readLevels (frameLevels w ++ after) = .complete w

/-- A receiver reads back exactly the content that a sender lays out, for every content within the ranges of
R7 to R10, and the payload fits a frame. -/
def Obligations.ContentRoundTrip : Prop :=
  ∀ (c : Content) (prec : BitVec 8) (station : BitVec 6), WellFormed.content c = true →
    (prec = 0 ∨ kindOf c = kindClaim) →
    contentOf ⟨kindOf c, prec, station, payloadOf c⟩ = some c ∧ (payloadOf c).length ≤ 15

/-! ### START -/

/-- A start with a valid strap enters ROLLCALL with no table, an empty line controller and the time base at 0, and
opens the roll window; each expiry of the pacing compare in ROLLCALL marks the ROLL slot and arms the compare again
(R11, R19, R29, R45). That no POSE is pending in ROLLCALL even after an occurrence found at the start, whose request is
dropped, is assumption 4; that the queue of commands outlasts a start is the model's choice, assumption 24. -/
def Obligations.RollWindowOpens : Prop :=
  (∀ (i : StartInputs) (s : State), i.straps.number.val < 48 →
    ∃ t, exec (.start i) s = .next t ∧ t.mode = .rollcall ∧ t.timeBase = 0 ∧ t.table = none ∧
      t.roll =
        { candidates :=
            [{ number := i.straps.number.val, serial := s.serial, car := i.straps.car.val,
               feeder := i.straps.feeder.val,
               share := if i.straps.share = 0 then 1 else i.straps.share.val,
               mode := .rollcall,
               summary := t.retained.content.staged.map fun r =>
                 (r.stage, planTag t.retained.content.plan),
               lastRoll := ⟨0, true⟩ }]
          members := []
          answerOwed := false
          quiet := some (BitVec.ofNat 32 (10 * t.cfg.rq))
          limit := some (BitVec.ofNat 32 (10 * t.cfg.rmax))
          pacing := some 2500 } ∧
      t.line.rollPending = true ∧ t.line.attempt = none ∧ t.line.claim = .empty ∧
      t.line.orderQueue = [] ∧ t.line.posePending = false ∧ t.line.planQueue = [] ∧
      t.pending = s.pending) ∧
  (∀ s : State, s.mode = .rollcall → due s.timeBase s.roll.pacing = true →
    ∃ t, exec .rollPacingExpiry s = .next t ∧ t.inner = s.inner ∧
      t.outer =
        { s.outer with
          roll := { s.roll with pacing := some (s.timeBase + 2500) }
          rollPending := s.line.rollPending || !sendingKind s kindRoll
          rollAgain := s.line.rollAgain || sendingKind s kindRoll })

/-- A start with station number 48 to 63 enters BARRED with CONFIG_MISMATCH, opens no window, keeps no candidate
set and keeps the retained record for the next start; POSE sending begins (R12, R22, R34). -/
def Obligations.StartInvalidStrap : Prop :=
  ∀ (i : StartInputs) (s : State), 48 ≤ i.straps.number.val →
    ∃ t, exec (.start i) s = .next t ∧ t.mode = .barred ∧ t.own = i.straps.number.val ∧
      t.roll = ⟨[], [], false, none, none, none⟩ ∧ t.table = none ∧
      t.stage = ⟨.unstaged, .none, false⟩ ∧
      t.fault .configMismatch =
        ⟨true, false, 1, some ⟨⟨0, false⟩, .travel t.engine.travel, some i.straps.number.val⟩, 0⟩ ∧
      t.retained.record = s.retained.record ∧ t.retained.marker = s.retained.marker ∧
      t.retained.writing = none ∧
      t.line.posePending = true ∧ t.line.rollPending = false ∧
      t.line.posePeriod = some (BitVec.ofNat 32 (10 * t.cfg.p))

/-- At a start each value in force comes from its stored copy, the default where the copy fails its check and else the
nearest value of the range (R24), and then from the five cross-clamps (R25), so that L ≤ CL ≤ SL, A is below C,
N is at most CL and G_S at most G_L; the stored copies are kept. The config tag is the sum of the values in force,
each times its number, modulo 65,536 (R26), and the settings-adjusted flag tells of a value in force that is not the
stored one, or of a share strap of 0 (R24). That the flag compares the number of a copy that fails its check, or was
never written, like any other is assumption 16. -/
def Obligations.StartFindsSettings : Prop :=
  ∀ (i : StartInputs) (s : State),
    let v : Fin 20 → Nat := fun k =>
      let row := paramTable.getD k.val ⟨0, 0, 0⟩
      if s.settings.stored[k].ok then
        if s.settings.stored[k].value < row.low then row.low
        else if row.high < s.settings.stored[k].value then row.high
        else s.settings.stored[k].value
      else row.dflt
    ∃ t, exec (.start i) s = .next t ∧
      t.settings.stored = s.settings.stored ∧
      t.cfg.m = v 0 ∧ t.cfg.cl = v 1 ∧ t.cfg.d = v 6 ∧ t.cfg.gl = v 7 ∧ t.cfg.p = v 9 ∧
      t.cfg.s = v 10 ∧ t.cfg.tst = v 11 ∧ t.cfg.tpw = v 12 ∧ t.cfg.trev = v 13 ∧ t.cfg.wc = v 14 ∧
      t.cfg.wr = v 15 ∧ t.cfg.b = v 16 ∧ t.cfg.wmin = v 17 ∧ t.cfg.rq = v 18 ∧ t.cfg.rmax = v 19 ∧
      t.cfg.sl = (if v 2 < v 1 then v 1 else v 2) ∧
      t.cfg.l = (if v 1 < v 3 then v 1 else v 3) ∧
      t.cfg.a = (if t.cfg.l / 2 - 1 < v 4 then t.cfg.l / 2 - 1 else v 4) ∧
      t.cfg.n = (if v 1 < v 5 then v 1 else v 5) ∧
      t.cfg.gs = (if v 7 < v 8 then v 7 else v 8) ∧
      t.settings.chop = t.cfg.l / 2 ∧
      t.settings.tag =
        (1 * t.cfg.m + 2 * t.cfg.cl + 3 * t.cfg.sl + 4 * t.cfg.l + 5 * t.cfg.a + 6 * t.cfg.n +
          7 * t.cfg.d + 8 * t.cfg.gl + 9 * t.cfg.gs + 10 * t.cfg.p + 11 * t.cfg.s +
          12 * t.cfg.tst + 13 * t.cfg.tpw + 14 * t.cfg.trev + 15 * t.cfg.wc + 16 * t.cfg.wr +
          17 * t.cfg.b + 18 * t.cfg.wmin + 19 * t.cfg.rq + 20 * t.cfg.rmax) % 65536 ∧
      (t.settings.adjusted = true ↔
        i.straps.share = 0 ∨
          ∃ k : Fin 20, s.settings.stored[k].value ≠
            [t.cfg.m, t.cfg.cl, t.cfg.sl, t.cfg.l, t.cfg.a, t.cfg.n, t.cfg.d, t.cfg.gl, t.cfg.gs,
             t.cfg.p, t.cfg.s, t.cfg.tst, t.cfg.tpw, t.cfg.trev, t.cfg.wc, t.cfg.wr, t.cfg.b,
             t.cfg.wmin, t.cfg.rq, t.cfg.rmax].getD k.val 0) ∧
      20 ≤ t.cfg.l ∧ t.cfg.l ≤ t.cfg.cl ∧ t.cfg.cl ≤ t.cfg.sl ∧ t.cfg.sl ≤ 8000 ∧
      1 ≤ t.cfg.a ∧ t.cfg.a < t.settings.chop ∧ 10 ≤ t.cfg.n ∧ t.cfg.n ≤ t.cfg.cl ∧
      t.cfg.gs ≤ t.cfg.gl

/-- At a start the retained record is read, and with it the active bank and the stage; a write in flight is
abandoned, no write begins, and the record in memory stays as it is (R42, R44). -/
def Obligations.StartReadsRetained : Prop :=
  ∀ (i : StartInputs) (s : State), i.straps.number.val < 48 →
    let outOfPlan : Prop :=
      ∃ z k, s.retained.record.staged = some ⟨z, .stage k⟩ ∧ s.retained.record.plan.length < k
    ∃ t, exec (.start i) s = .next t ∧
      t.retained.writing = none ∧ t.retained.rewriteOwed = false ∧
      t.retained.marker = s.retained.marker ∧ t.retained.record = s.retained.record ∧
      (s.retained.marker = true ∧ ¬ outOfPlan →
        t.retained.content = s.retained.record ∧
        t.plan = ⟨[], false, s.retained.record.plan, planTag s.retained.record.plan⟩ ∧
        t.stage.dir = s.retained.record.dir ∧
        (∀ r, s.retained.record.staged = some r → t.stage.record = .restored r) ∧
        (s.retained.record.staged = none → t.stage.record = .unstaged)) ∧
      (s.retained.marker = false ∨ outOfPlan →
        t.retained.content = ⟨none, .none, []⟩ ∧ t.plan = ⟨[], false, [], 0⟩ ∧
        t.stage = ⟨.unstaged, .none, false⟩)

/-- At a start travel is the encoder's value or the nearer bound, with ENCODER for a value outside; the pawl
state comes from the switches, with PAWL_STUCK for both closed; a first reading above W_r is OVERLOAD and an
open emergency contact EMERGENCY (R124, R141, R155, R179). The record's place for a value outside is the value
read (assumption 17). -/
def Obligations.StartFindsColumn : Prop :=
  ∀ (i : StartInputs) (s : State),
    ∃ t, exec (.start i) s = .next t ∧
      (t.engine.travel : Int) = max 0 (min i.encoder 240000) ∧ t.engine.restRef = t.engine.travel ∧
      t.engine.stroke = .rest ∧ t.engine.jog = .none ∧ t.engine.drive = .off ∧
      t.fault .encoder =
        (if i.encoder < 0 ∨ 240000 < i.encoder then
          ⟨true, false, 1, some ⟨⟨0, false⟩, .travel i.encoder, none⟩, 0⟩
         else ⟨false, false, 0, none, 0⟩) ∧
      t.pawl.commanded = .set ∧
      t.pawl.state =
        (match i.setClosed, i.withdrawnClosed with
         | true, false => .set
         | true, true => .stuck
         | false, _ => .setting) ∧
      t.pawl.limit =
        (if i.setClosed then none else some (BitVec.ofNat 32 (10 * t.cfg.tpw))) ∧
      t.fault .pawlStuck =
        (if i.setClosed ∧ i.withdrawnClosed then
          ⟨true, false, 1, some ⟨⟨0, false⟩, .travel t.engine.travel, none⟩, 0⟩
         else ⟨false, false, 0, none, 0⟩) ∧
      t.loadMon.present = i.load.val ∧
      t.fault .overload =
        (if t.cfg.wr < i.load.val then
          ⟨true, true, 1, some ⟨⟨0, false⟩, .travel t.engine.travel, none⟩, 0⟩
         else ⟨false, false, 0, none, 0⟩) ∧
      t.fault .emergency =
        (if i.pendant.emergencyClosed then ⟨false, false, 0, none, 0⟩
         else ⟨true, true, 1, some ⟨⟨0, false⟩, .travel t.engine.travel, none⟩, 0⟩) ∧
      (t.line.haltSlot = none ↔
        0 ≤ i.encoder ∧ i.encoder ≤ 240000 ∧ ¬ (i.setClosed ∧ i.withdrawnClosed) ∧
          i.load.val ≤ t.cfg.wr ∧ i.pendant.emergencyClosed)

/-! ### The line controller -/

/-- At a start bit the first place that is not empty is offered, POSE and ROLL assembled at that moment from the fields
that R8, R7 and R30 list, and a claim that waits goes onto the line unless a HALT goes before it (R11, R12, R14). Bit n
of a POSE's fault set is the latched flag of kind n. The operand that says whether a peer starts too, and with it the
line's idle mark, are the model's (assumption 5). -/
def Obligations.StartBitOffersFirstPlace : Prop :=
  ∀ (s : State) (peer : Bool), s.line.attempt = none →
    let staged : Option StagedRec :=
      match s.stage.record with
      | .staged r => some r
      | _ => none
    let running : Option Stroke :=
      match s.engine.stroke with
      | .running r _ => some r
      | _ => none
    let pose : PoseMsg :=
      { mode := s.modeCtl.mode
        pawl := s.pawl.state
        flight := (running.map (·.dir)).getD .none
        rejoined := s.modeCtl.rejoined
        dir := s.stage.dir
        reason := s.ceiling.reason
        stage := staged.map (·.stage)
        load := s.loadMon.present
        planTag := s.plan.tag
        faults := latchedSet s
        lift := staged.map fun r => (s.engine.travel : Int) - r.contactZero
        committedEnd := if staged.isSome then running.bind (·.stop) else none }
    let roll : RollMsg :=
      { serial := s.serial
        car := s.straps.car.val
        feeder := s.straps.feeder.val
        share := s.straps.share.val
        mode :=
          if s.mode = .rollcall then .rollcall else if s.mode = .barred then .barred else .frozen
        tag := s.settings.tag
        summary := s.retained.content.staged.map fun r => (r.stage, planTag s.retained.content.plan) }
    let own : BitVec 6 := BitVec.ofNat 6 s.own
    let offer : Option WireFrame :=
      [s.line.haltSlot, waitingClaim s.line.claim, s.line.orderQueue.head?,
       if s.line.posePending then some ⟨3, 0, own, posePayload pose⟩ else none,
       s.line.planQueue.head?,
       if s.line.rollPending then some ⟨5, 0, own, rollPayload roll⟩ else none].findSome? id
    (∀ k : FaultKind, (latchedSet s).getLsbD (faultCode k).val = s.latched k) ∧
    ∃ t, exec (.lineIdleStartBit peer) s = .next t ∧
      t.outer = { s.outer with idle := offer.isNone && !peer, attempt := offer } ∧
      (Calm s → t.inner =
        { s.inner with
          claim :=
            match s.line.haltSlot, s.line.claim with
            | none, .waiting w => .contending w false
            | _, c => c })

/-- How an attempt ends at the key: the loser's frame stays in its place and a claim waits again, or is withdrawn if a
withdrawal was held, after which a station in MOVING may queue a fresh claim at once; the winner's claim is committed,
and a withdrawal held then sets the mark (R13, R14, R110, R113, R114, R119). That a mark asked for during the attempt
stands after it is assumption 6. -/
def Obligations.ArbitrationEnds : Prop :=
  (∀ s : State, s.line.attempt.isSome = true → (∀ w, s.line.claim ≠ .committed w) →
    ∃ t, exec .lostArbitration s = .next t ∧
      t.outer =
        { s.outer with
          attempt := none
          rollPending := s.line.rollPending || s.line.rollAgain
          rollAgain := false } ∧
      (Calm s → (∀ w, s.line.claim ≠ .contending w true) → t.inner =
        { s.inner with
          posePending := s.line.posePending || s.line.poseAgain
          poseAgain := false
          claim :=
            match s.line.claim with
            | .contending w _ => .waiting w
            | c => c }) ∧
      (∀ w, Quiet s → s.line.claim = .contending w true → t.inner =
        { s.inner with
          posePending := s.line.posePending || s.line.poseAgain
          poseAgain := false
          claim := .empty
          withdrawals := oneMore 255 s.spacing.withdrawals
          held := false
          engine :=
            { s.engine with
              stroke := .rest, drive := driveOf s.engine.source .rest s.engine.jog } }) ∧
      (∀ w, s.line.claim = .contending w true → ClaimWithdrawn s t ∧ t.line.poseAgain = false ∧
        ((s.line.posePending || s.line.poseAgain) = true → t.line.posePending = true))) ∧
  (∀ (s : State) (w : WireFrame) (held : Bool),
    s.line.attempt.isSome = true → s.line.claim = .contending w held →
    ∃ t, exec .wonArbitration s = .next t ∧ t.outer = s.outer ∧
      (Calm s → t.inner =
        { s.inner with claim := .committed w, held := s.spacing.held || held }))

/-- A bit error on an own frame, and an expiry of the line-busy limit, each count one transmit failure up to 16; the
frame stays in its place, and a claim that still stands waits again while any other is withdrawn: one with a
withdrawal held or its mark set, one no longer admitted, and one outside MOVING (R13, R15, R114, R115). That a mark
asked for during the attempt stands after it is assumption 6. -/
def Obligations.TransmitFailures : Prop :=
  (∀ s : State, s.line.attempt.isSome = true →
    ∃ t, exec .bitError s = .next t ∧
      t.outer =
        { s.outer with
          idle := false
          attempt := none
          rollPending := s.line.rollPending || s.line.rollAgain
          rollAgain := false
          failures := oneMore 16 s.line.failures } ∧
      (Calm s → s.line.failures ≠ 15 → (∀ w h, s.line.claim ≠ .contending w h) →
        (∀ w, s.line.claim ≠ .committed w) → t.inner =
        { s.inner with
          posePending := s.line.posePending || s.line.poseAgain, poseAgain := false }) ∧
      (∀ w, Calm s → s.line.failures ≠ 15 →
        s.line.claim = .committed w ∨ s.line.claim = .contending w false →
        s.spacing.held = false → s.mode = .moving → s.spacing.admitted = true → t.inner =
        { s.inner with
          posePending := s.line.posePending || s.line.poseAgain
          poseAgain := false
          claim := .waiting w }) ∧
      (∀ w, Quiet s → s.line.failures ≠ 15 →
        s.line.claim = .committed w ∨ (∃ h, s.line.claim = .contending w h) → t.inner =
        { s.inner with
          posePending := s.line.posePending || s.line.poseAgain
          poseAgain := false
          claim := .empty
          withdrawals := oneMore 255 s.spacing.withdrawals
          held := false
          engine :=
            { s.engine with
              stroke := .rest, drive := driveOf s.engine.source .rest s.engine.jog } }) ∧
      (∀ w, s.line.claim = .committed w ∨ (∃ h, s.line.claim = .contending w h) →
        s.line.claim = .contending w true ∨ s.spacing.held = true ∨ s.spacing.admitted = false ∨
          s.mode ≠ .moving →
        ClaimWithdrawn s t ∧ t.line.poseAgain = false ∧
          ((s.line.posePending || s.line.poseAgain) = true → t.line.posePending = true))) ∧
  (∀ s : State, due s.timeBase s.line.busyLimit = true →
    ∃ t, exec .lineBusyLimitExpiry s = .next t ∧
      t.outer = { s.outer with failures := oneMore 16 s.line.failures } ∧
      (Calm s → s.line.failures ≠ 15 →
        t.inner = s.inner ∧ t.line.busyLimit = some (s.timeBase + 100)))

/-- The failure that brings the count to 16 reports LINE and makes its condition active; the station halts
locally, and the HALT slot is not filled for it (R15, R167, R177). -/
def Obligations.LineFaultAtSixteen : Prop :=
  ∀ (s : State) (c : Instr), s.line.failures = 15 →
    (c = .bitError ∧ s.line.attempt.isSome = true) ∨
      (c = .lineBusyLimitExpiry ∧ due s.timeBase s.line.busyLimit = true) →
    ∃ t, exec c s = .next t ∧ t.line.failures = 16 ∧
      t.fault .line = recordAfter s .line true none ∧
      t.line.haltSlot = s.line.haltSlot ∧
      t.mode = (if s.mode = .rollcall ∨ s.mode = .barred then s.mode else .halted) ∧
      t.modeCtl.lastStop =
        (if s.mode = .rollcall ∨ s.mode = .barred ∨ s.mode = .halted then s.modeCtl.lastStop
         else some ⟨.halted, .fault, some .line, none, ⟨s.timeBase, false⟩⟩)

/-- Levels that end in error or fail the CRC count one bad frame; a malformed frame counts one discarded frame,
and so does any frame but a ROLL from a sender that is no member; in ROLLCALL and BARRED such a frame is not
counted. Nothing else changes but that the line is not idle (R16, R17). -/
def Obligations.FramesNotDelivered : Prop :=
  (∀ (s : State) (levels : List Level), (∀ w, readLevels levels ≠ .complete w) →
    ∃ t, exec (.badFrame levels) s = .next t ∧
      t.outer = { s.outer with idle := false, badFrames := oneMore 65535 s.line.badFrames } ∧
      (Calm s → t.inner = s.inner)) ∧
  (∀ (s : State) (c : Instr) (w : WireFrame), malformed w = true → isOwnAttempt s w = false →
    c = .malformedFrame w ∨ frameOf c = some w ∨ (∃ f, c = .rollFrame f ∧ w = wire kindRoll f) →
    ∃ t, exec c s = .next t ∧
      t.outer = { s.outer with idle := false, discarded := oneMore 65535 s.line.discarded } ∧
      (Calm s → t.inner = s.inner)) ∧
  (∀ (s : State) (c : Instr) (w : WireFrame), malformed w = false → isOwnAttempt s w = false →
    frameOf c = some w →
    s.mode = .rollcall ∨ s.mode = .barred ∨ isMember s w.station.toNat = false →
    ∃ t, exec c s = .next t ∧
      t.outer =
        { s.outer with
          idle := false
          discarded :=
            if s.mode = .rollcall ∨ s.mode = .barred then s.line.discarded
            else oneMore 65535 s.line.discarded } ∧
      (Calm s → t.inner = s.inner))

/-- An own frame that completes leaves its place: the HALT slot is empty, the head of the ORDER or PLAN queue is gone,
the ROLL mark is cleared or left by a request made during the sending; the failure count is 0 and the LINE condition
ended (R11, R12, R13, R15). An own ROLL is a sign of life that is not answered, and in ROLLCALL renews the station's
own candidate (R31, R38, R49). An own POSE re-arms the pose period and is a sign of life only, and in BARRED, where no
table exists, it re-arms the pose period alone; each expiry of the pose
period marks the POSE slot, or leaves it pending after the POSE that is being sent (R12, R18, R49, R50). That a frame
is the station's own when its key is that of the frame on the line is assumption 23. -/
def Obligations.OwnFrames : Prop :=
  (∀ (s : State) (c : Instr) (w : WireFrame), frameOf c = some w → isOwnAttempt s w = true →
    w.kind ≠ kindClaim →
    ∃ t, exec c s = .next t ∧ t.line.attempt = none ∧ t.line.idle = false ∧ t.line.failures = 0 ∧
      t.line.orderQueue =
        (if w.kind = kindOrder then s.line.orderQueue.tail else s.line.orderQueue) ∧
      t.line.planQueue =
        (if w.kind = kindPlan then s.line.planQueue.tail else s.line.planQueue) ∧
      (w.kind = kindHalt → t.line.haltSlot = none) ∧
      (w.kind ≠ kindHalt → s.line.haltSlot.isSome = true → t.line.haltSlot = s.line.haltSlot) ∧
      t.line.rollPending = s.line.rollPending ∧ t.line.rollAgain = s.line.rollAgain ∧
      t.active .line = false) ∧
  (∀ (s : State) (f : RxFrame) (m : RollMsg), isOwnAttempt s (wire kindRoll f) = true →
    f.prec = 0 → readRoll f.payload = some m → f.station.toNat = s.own →
    ∃ t, exec (.rollFrame f) s = .next t ∧ t.line.attempt = none ∧ t.line.idle = false ∧
      t.line.failures = 0 ∧ t.active .line = false ∧
      t.line.rollPending = s.line.rollAgain ∧ t.line.rollAgain = false ∧
      t.line.haltSlot = s.line.haltSlot ∧ t.line.orderQueue = s.line.orderQueue ∧
      t.line.planQueue = s.line.planQueue ∧
      (s.mode ≠ .rollcall → t.roll = s.roll) ∧
      (∀ a, s.mode ≠ .rollcall → s.mode ≠ .barred → s.table = some a → TableOwn s →
        (t.table.map (·.selfMarks)) =
          some
            { live := .live, lastHeard := ⟨s.timeBase, false⟩
              lastClaim := a.selfMarks.lastClaim
              silence := some (s.timeBase + BitVec.ofNat 32 (s.cfg.s * s.cfg.p * 10)) } ∧
        (∀ n, peerOf t n = peerOf s n)) ∧
      (∀ c, s.mode = .rollcall → s.own < 48 → m.tag = s.settings.tag →
        candidate s s.own = some c → c.serial = m.serial →
        t.mode = .rollcall ∧ OtherFaultsKept s t .line ∧
          candidate t s.own =
            some
              { number := s.own, serial := m.serial, car := m.car, feeder := m.feeder
                share := m.share, mode := m.mode, summary := m.summary
                lastRoll := ⟨s.timeBase, false⟩ } ∧
          (∀ j, j ≠ s.own → candidate t j = candidate s j))) ∧
  (∀ (s : State) (f : RxFrame) (m : PoseMsg), isOwnAttempt s (wire kindPose f) = true →
    f.prec = 0 → readPose f.payload = some m → f.station.toNat = s.own →
    s.mode ≠ .rollcall → s.mode ≠ .barred → s.table.isSome = true → TableOwn s →
    ∃ t, exec (.poseFrame f) s = .next t ∧
      t.outer =
        { s.outer with
          idle := false
          attempt := none
          failures := 0
          posePeriod := some (s.timeBase + BitVec.ofNat 32 (10 * s.cfg.p))
          table := t.table } ∧
      (∀ n, peerOf t n = peerOf s n) ∧ t.active .line = false ∧
      (Quiet s → t.line.posePending = s.line.poseAgain ∧ t.line.poseAgain = false)) ∧
  (∀ (s : State) (f : RxFrame) (m : PoseMsg), isOwnAttempt s (wire kindPose f) = true →
    f.prec = 0 → readPose f.payload = some m → s.mode = .barred →
    ∃ t, exec (.poseFrame f) s = .next t ∧
      t.outer =
        { s.outer with
          idle := false
          attempt := none
          failures := 0
          posePeriod := some (s.timeBase + BitVec.ofNat 32 (10 * s.cfg.p)) } ∧
      t.inner =
        { s.inner with
          posePending := s.line.poseAgain, poseAgain := false, faults := t.inner.faults } ∧
      t.fault .line = { s.fault .line with active := false } ∧ OtherFaultsKept s t .line) ∧
  (∀ s : State, due s.timeBase s.line.posePeriod = true → s.mode ≠ .rollcall →
    ∃ t, exec .posePeriodExpiry s = .next t ∧ t.outer = { s.outer with posePeriod := none } ∧
      (Calm s → t.inner =
        { s.inner with
          posePending := s.line.posePending || !sendingKind s kindPose
          poseAgain := s.line.poseAgain || sendingKind s kindPose }))

/-! ### Roll call, freeze and rejoin -/

/-- A ROLL in ROLLCALL: the first case of R31 that applies decides, with what entry to BARRED brings about (R12, R34)
and the record of an occurrence (R181). `u` is the state with the frame's reception at the line done. That an
occurrence in ROLLCALL leaves the POSE slot as it was is assumption 4. -/
def Obligations.RollInWindow : Prop :=
  ∀ (s : State) (f : RxFrame) (m : RollMsg),
    s.mode = .rollcall → f.prec = 0 → readRoll f.payload = some m →
    let n := f.station.toNat
    let u := frameArrives (wire kindRoll f) s
    let entry : Candidate :=
      { number := n, serial := m.serial, car := m.car, feeder := m.feeder, share := m.share,
        mode := m.mode, summary := m.summary, lastRoll := ⟨s.timeBase, false⟩ }
    ∃ t, exec (.rollFrame f) s = .next t ∧
      (∀ j, j ≠ n → candidate t j = candidate s j) ∧
      (48 ≤ n ∨ m.tag ≠ s.settings.tag →
        t.outer = u.outer ∧ t.inner = { u.inner with faults := t.inner.faults } ∧
          t.fault .configMismatch =
            recordAfter s .configMismatch (s.active .configMismatch) (some n) ∧
          OtherFaultsKept u t .configMismatch) ∧
      (∀ c, n < 48 → m.tag = s.settings.tag → candidate s n = some c → c.serial ≠ m.serial →
        t.outer = u.outer ∧ t.inner = { u.inner with faults := t.inner.faults } ∧
          t.fault .duplicate = recordAfter s .duplicate (s.active .duplicate) (some n) ∧
          OtherFaultsKept u t .duplicate) ∧
      (∀ c, n < 48 → m.tag = s.settings.tag → candidate s n = some c → c.serial = m.serial →
        candidate t n = some entry ∧
          t.outer = { u.outer with roll := { s.roll with candidates := t.roll.candidates } } ∧
          t.inner = u.inner) ∧
      (n < 48 → m.tag = s.settings.tag → candidate s n = none →
        candidate t n = some entry ∧
          t.roll.candidates.length = s.roll.candidates.length + 1 ∧
          (s.roll.candidates.length + 1 ≤ s.cfg.m →
            t.inner = u.inner ∧
            t.outer =
              { u.outer with
                roll :=
                  { s.roll with
                    candidates := t.roll.candidates
                    quiet := some (s.timeBase + BitVec.ofNat 32 (10 * s.cfg.rq)) } }) ∧
          (s.cfg.m < s.roll.candidates.length + 1 →
            EntersBarred u t ∧
            t.outer =
              { u.outer with
                roll :=
                  { s.roll with candidates := t.roll.candidates, quiet := none, limit := none }
                table := none
                posePeriod := some (s.timeBase + BitVec.ofNat 32 (10 * s.cfg.p)) } ∧
            t.fault .memberCount = recordAfter s .memberCount (s.active .memberCount) none ∧
            OtherFaultsKept u t .memberCount))

/-- The quiet expiry with fewer candidates than M changes nothing but the compare; with M of them and a roll-class
fault latched it bars the station with no new occurrence. The limit expiry in ROLLCALL reports MEMBER_COUNT and
bars the station (R32, R33, R34). -/
def Obligations.RollWindowCloses : Prop :=
  ∀ s : State, s.mode = .rollcall →
    let barred : Outer :=
      { s.outer with
        roll := { s.roll with quiet := none, limit := none }
        table := none
        posePeriod := some (s.timeBase + BitVec.ofNat 32 (10 * s.cfg.p)) }
    (due s.timeBase s.roll.quiet = true →
      ∃ t, exec .rollQuietExpiry s = .next t ∧
        (s.roll.candidates.length < s.cfg.m →
          t.outer = { s.outer with roll := { s.roll with quiet := none } } ∧ t.inner = s.inner) ∧
        (s.roll.candidates.length = s.cfg.m →
          s.latched .duplicate = true ∨ s.latched .memberCount = true ∨
            s.latched .configMismatch = true ∨ s.latched .retainedLost = true →
          EntersBarred s t ∧ t.outer = barred ∧ FaultsKept s t)) ∧
    (due s.timeBase s.roll.limit = true →
      ∃ t, exec .rollLimitExpiry s = .next t ∧ EntersBarred s t ∧ t.outer = barred ∧
        t.fault .memberCount = recordAfter s .memberCount (s.active .memberCount) none ∧
        OtherFaultsKept s t .memberCount)

/-- The quiet expiry with M candidates and no roll-class fault latched freezes the station, and the retained
decision gives the mode: UNSTAGED, rejoin in HOLD, or BARRED with RETAINED_LOST; a latched halt-class kind gives
HALTED in place of UNSTAGED or HOLD, and no HALT is sent (R35, R36, R37, R167). A freeze into HALTED leaves the
direction as it stands, which is assumption 12. -/
def Obligations.FreezeDecides : Prop :=
  ∀ s : State, s.mode = .rollcall → due s.timeBase s.roll.quiet = true →
    s.roll.candidates.length = s.cfg.m → rollFaultLatched s = false →
    (∀ r, s.stage.record ≠ .staged r) → (s.retained.validAtStart = false → s.stage.record = .unstaged) →
    let agrees : RetStage → Prop := fun r =>
      ∀ c ∈ s.roll.candidates, c.number ≠ s.own →
        c.summary = none ∨ c.summary = some (r.stage, s.plan.tag)
    let halted : Prop := ∃ k, haltClass k = true ∧ s.latched k = true
    let lost : State → Prop := fun t =>
      EntersBarred s t ∧ t.table = none ∧
        t.fault .retainedLost = recordAfter s .retainedLost (s.active .retainedLost) none ∧
        OtherFaultsKept s t .retainedLost
    ∃ t, exec .rollQuietExpiry s = .next t ∧
      t.roll =
        { s.roll with
          members := s.roll.candidates.map (·.number), quiet := none, limit := none } ∧
      t.line.posePending = true ∧
      t.line.posePeriod = some (s.timeBase + BitVec.ofNat 32 (10 * s.cfg.p)) ∧
      t.line.haltSlot = s.line.haltSlot ∧ t.plan = s.plan ∧
      (t.mode ≠ .barred → FaultsKept s t ∧
        (¬ halted → t.modeCtl.lastStop = s.modeCtl.lastStop) ∧
        (∀ k, haltClass k = true → s.latched k = true →
          (∀ j, haltClass j = true → (faultCode j).val < (faultCode k).val → s.latched j = false) →
          t.mode = .halted ∧
            t.modeCtl.lastStop = some ⟨.halted, .fault, some k, none, ⟨s.timeBase, false⟩⟩)) ∧
      (s.stage.record = .unstaged →
        s.retained.validAtStart = true ∨ s.loadMon.present < s.cfg.wc →
        t.stage.record = .unstaged ∧ t.modeCtl.rejoined = s.modeCtl.rejoined ∧
          (¬ halted → t.mode = .unstaged ∧ t.stage.dir = .none) ∧
          (halted → t.stage.dir = s.stage.dir)) ∧
      (∀ r, s.retained.validAtStart = true → s.stage.record = .restored r → agrees r →
        t.stage.record =
          .staged ⟨r.contactZero, r.stage, stageTarget s r.stage,
            clampTarget r.contactZero (stageTarget s r.stage), false⟩ ∧
        t.stage.dir = s.stage.dir ∧
        t.lift = some ((s.engine.travel : Int) - r.contactZero) ∧
        t.modeCtl.rejoined = true ∧ t.retained = s.retained ∧ (¬ halted → t.mode = .hold)) ∧
      (∀ r, s.retained.validAtStart = true → s.stage.record = .restored r → ¬ agrees r → lost t) ∧
      (s.retained.validAtStart = false → s.cfg.wc ≤ s.loadMon.present → lost t)

/-- At freeze the table gets one row for each candidate, LIVE, with its fixed fields and first values, and its
silence compare armed from its last ROLL (R35, R47, R53, R54). -/
def Obligations.FreezeBuildsTable : Prop :=
  ∀ s : State, s.mode = .rollcall → due s.timeBase s.roll.quiet = true →
    s.roll.candidates.length = s.cfg.m → rollFaultLatched s = false →
    let marks : Candidate → RowMarks := fun c =>
      { live := .live, lastHeard := c.lastRoll, lastClaim := ⟨0, true⟩,
        silence := some (s.timeBase + BitVec.ofNat 32
          (if c.lastRoll.expired then 0
           else s.cfg.s * s.cfg.p * 10 - (s.timeBase - c.lastRoll.value).toNat)) }
    ∃ t, exec .rollQuietExpiry s = .next t ∧
      (t.mode = .barred → t.table = none) ∧
      (t.mode ≠ .barred →
        (∀ n, n ≠ s.own → candidate s n = none → peerOf t n = none) ∧
        (∀ n c, n ≠ s.own → candidate s n = some c →
          peerOf t n =
            some
              { fixed := ⟨n, c.car, c.feeder, c.share, c.serial⟩
                report :=
                  { mode := if c.mode = .barred then .barred else .rollcall
                    lift := none, flight := .none, committedEnd := none, load := 0, pawl := .set
                    stage := c.summary.map (·.1), dir := .none
                    planTag := (c.summary.map (·.2)).getD 0
                    faults := 256#16, rejoined := false }
                marks := marks c }) ∧
        (∀ c, candidate s s.own = some c →
          ∃ tab, t.table = some tab ∧
            tab.selfFixed = ⟨s.own, c.car, c.feeder, c.share, c.serial⟩ ∧
            tab.selfMarks = marks c))

/-- ROLL answers outside ROLLCALL: an expiry of the pacing compare sends the ROLL that is owed and arms the compare
again, or leaves it disarmed; in BARRED a ROLL of sender mode ROLLCALL from another station that this one
recognises marks the ROLL slot, or sets answer-owed while the compare is armed, and any other ROLL does nothing
(R38). That one with the station's own number is not from another station, whoever sent it, is assumption 36. -/
def Obligations.RollAnswersPaced : Prop :=
  (∀ s : State, s.mode ≠ .rollcall → due s.timeBase s.roll.pacing = true →
    ∃ t, exec .rollPacingExpiry s = .next t ∧
      (Calm s → t.inner = s.inner) ∧
      t.outer =
        (if s.roll.answerOwed then
          { s.outer with
            roll := { s.roll with answerOwed := false, pacing := some (s.timeBase + 2500) }
            rollPending := s.line.rollPending || !sendingKind s kindRoll
            rollAgain := s.line.rollAgain || sendingKind s kindRoll }
         else { s.outer with roll := { s.roll with pacing := none } })) ∧
  (∀ (s : State) (f : RxFrame) (m : RollMsg),
    s.mode = .barred → f.prec = 0 → readRoll f.payload = some m →
    let n := f.station.toNat
    let u := frameArrives (wire kindRoll f) s
    ∃ t, exec (.rollFrame f) s = .next t ∧ t.inner = u.inner ∧
      t.outer =
        (if n ≠ s.own ∧ m.mode = .rollcall ∧
            (if 48 ≤ s.own then n < 48 else (candidate s n).isSome = true) then
          if s.roll.pacing.isSome then { u.outer with roll := { s.roll with answerOwed := true } }
          else
            { u.outer with
              roll := { s.roll with pacing := some (s.timeBase + 2500) }
              rollPending := u.line.rollPending || !sendingKind u kindRoll
              rollAgain := u.line.rollAgain || sendingKind u kindRoll }
         else u.outer))

/-- A ROLL after freeze. From a number that is no member, or with a serial that is not the row's, it reports
STRANGER and is not answered. From another member with the right serial it is a sign of life; sender mode
ROLLCALL or BARRED clears what the row showed and adds the PEER_SILENT mark, and sender mode ROLLCALL alone is
answered (R17, R38, R39, R49, R52, R53). -/
def Obligations.RollAfterFreeze : Prop :=
  ∀ (s : State) (f : RxFrame) (m : RollMsg),
    s.mode ≠ .rollcall → s.mode ≠ .barred → isOwnAttempt s (wire kindRoll f) = false → TableOwn s →
    f.prec = 0 → readRoll f.payload = some m → f.station.toNat ≠ s.own →
    let n := f.station.toNat
    ∃ t, exec (.rollFrame f) s = .next t ∧
      (∀ j, j ≠ n → peerOf t j = peerOf s j) ∧
      (peerOf s n = none →
        t.outer = { s.outer with idle := false } ∧ (Quiet s → OtherFaultsKept s t .stranger) ∧
          t.fault .stranger = recordAfter s .stranger (s.active .stranger) (some n)) ∧
      (∀ r, peerOf s n = some r →
        t.outer =
          { s.outer with
            idle := false
            table := t.table
            roll := t.roll
            rollPending := t.line.rollPending
            rollAgain := t.line.rollAgain } ∧
        (r.fixed.serial ≠ m.serial →
          peerOf t n = some (heardAt s r) ∧ t.roll = s.roll ∧
            t.line.rollPending = s.line.rollPending ∧ t.line.rollAgain = s.line.rollAgain ∧
            t.fault .stranger = recordAfter s .stranger (s.active .stranger) (some n)) ∧
        (r.fixed.serial = m.serial → m.mode = .frozen → peerOf t n = some (heardAt s r)) ∧
        (r.fixed.serial = m.serial → m.mode ≠ .rollcall →
          t.roll = s.roll ∧ t.line.rollPending = s.line.rollPending ∧
            t.line.rollAgain = s.line.rollAgain) ∧
        (r.fixed.serial = m.serial → m.mode ≠ .frozen →
          peerOf t n =
            some { heardAt s r with
              report :=
                { r.report with
                  mode := if m.mode = .barred then .barred else .rollcall
                  lift := none, committedEnd := none, stage := none, flight := .none
                  faults := r.report.faults ||| 256#16 } }) ∧
        (r.fixed.serial = m.serial → m.mode = .rollcall →
          if s.roll.pacing.isSome then
            t.roll = { s.roll with answerOwed := true } ∧
              t.line.rollPending = s.line.rollPending ∧ t.line.rollAgain = s.line.rollAgain
          else
            t.roll = { s.roll with pacing := some (s.timeBase + 2500) } ∧
              t.line.rollPending = (s.line.rollPending || !sendingKind s kindRoll) ∧
              t.line.rollAgain = (s.line.rollAgain || sendingKind s kindRoll)))

/-! ### The peer table, claims and spacing -/

/-- Every frame but a ROLL that is delivered from a member is a sign of life: the row is LIVE, last heard now, and
its silence compare is armed for S × P; no other row's fixed fields, marks or peer report change, and the PEER_SILENT
condition ends with the last LOST row (R49, R54, R56). -/
def Obligations.SignOfLife : Prop :=
  ∀ (s : State) (c : Instr) (w : WireFrame) (r : Row),
    frameOf c = some w → malformed w = false → s.mode ≠ .rollcall → s.mode ≠ .barred → TableOwn s →
    rowOf s w.station.toNat = some r →
    ∃ t, exec c s = .next t ∧
      (rowOf t w.station.toNat).map (fun q => (q.fixed, q.marks)) =
        some
          (r.fixed,
            { live := .live
              lastHeard := ⟨s.timeBase, false⟩
              lastClaim :=
                if w.kind = kindClaim then ⟨s.timeBase, false⟩ else r.marks.lastClaim
              silence := some (s.timeBase + BitVec.ofNat 32 (s.cfg.s * s.cfg.p * 10)) }) ∧
      (∀ n, n ≠ w.station.toNat → peerOf t n = peerOf s n) ∧
      (w.station.toNat ≠ s.own →
        (t.table.map fun a => (a.selfFixed, a.selfMarks)) =
          s.table.map fun a => (a.selfFixed, a.selfMarks)) ∧
      (r.marks.live = .lost →
        (∀ q ∈ allRows s, q.fixed.number = w.station.toNat ∨ q.marks.live = .live) →
        t.active .peerSilent = false)

/-- A POSE from a peer replaces every reported field of its row, with the PEER_SILENT mark when it reports ROLLCALL
or BARRED, and is a sign of life; nothing else of the outer state changes (R49, R50, R53). One that reports mode
UNSTAGED makes no contagion and no join. That a POSE of mode ROLLCALL takes the mark is assumption 33. -/
def Obligations.PoseWritesRow : Prop :=
  ∀ (s : State) (f : RxFrame) (m : PoseMsg) (r : Row),
    s.mode ≠ .rollcall → s.mode ≠ .barred → isOwnAttempt s (wire kindPose f) = false → TableOwn s →
    f.prec = 0 → readPose f.payload = some m → f.station.toNat ≠ s.own →
    peerOf s f.station.toNat = some r →
    ∃ t, exec (.poseFrame f) s = .next t ∧
      t.outer = { s.outer with idle := false, table := t.table } ∧
      (∀ n, n ≠ f.station.toNat → peerOf t n = peerOf s n) ∧
      ((t.table.map fun a => (a.selfFixed, a.selfMarks)) =
        s.table.map fun a => (a.selfFixed, a.selfMarks)) ∧
      peerOf t f.station.toNat =
        some { heardAt s r with
          report :=
            { mode := m.mode, lift := m.lift, flight := m.flight, committedEnd := m.committedEnd
              load := m.load, pawl := m.pawl, stage := m.stage, dir := m.dir
              planTag := m.planTag
              faults :=
                if m.mode = .rollcall ∨ m.mode = .barred then m.faults ||| 256#16 else m.faults
              rejoined := m.rejoined } } ∧
      (m.mode = .unstaged → Quiet s →
        t.inner = { s.inner with faults := t.inner.faults } ∧ OtherFaultsKept s t .peerSilent)

/-- Halt contagion: a POSE that reports HALTED halts a station that is in any mode but ROLLCALL, BARRED and
HALTED, and no HALT is sent (R176). Hold contagion: one that reports HOLD at the station's own stage takes a
station in MOVING to HOLD (R175). Each writes the last stop record with the peer's number. That the record names hold
contagion also where the same POSE's load takes the column out of its band, mode control reading the POSE before the
load monitor does, is assumption 7. -/
def Obligations.Contagion : Prop :=
  ∀ (s : State) (f : RxFrame) (m : PoseMsg),
    s.mode ≠ .rollcall → s.mode ≠ .barred → isOwnAttempt s (wire kindPose f) = false →
    f.prec = 0 → readPose f.payload = some m → f.station.toNat ≠ s.own →
    isMember s f.station.toNat = true →
    ∃ t, exec (.poseFrame f) s = .next t ∧
      (m.mode = .halted → s.mode ≠ .halted →
        t.mode = .halted ∧ t.line.haltSlot = s.line.haltSlot ∧ (MotionSafe s → t.engine.drive = .off) ∧
          t.modeCtl.lastStop =
            some ⟨.halted, .contagion, none, some f.station.toNat, ⟨s.timeBase, false⟩⟩) ∧
      (m.mode = .hold → s.mode = .moving → m.stage = s.stageIx →
        t.mode = .hold ∧
          t.modeCtl.lastStop =
            some ⟨.hold, .contagion, none, some f.station.toNat, ⟨s.timeBase, false⟩⟩)

/-- A CLAIM from a peer writes its row and is a sign of life, and moves the line stamp, and the feeder stamp when
the peer is of the station's own feeder group; a station that is not CLAIMING has nothing else to do (R49, R51,
R108, R112). That a CONTACT claim leaves no lift and no committed end in a row that showed them is assumption 15. -/
def Obligations.ClaimWritesRow : Prop :=
  ∀ (s : State) (f : RxFrame) (m : ClaimMsg) (r : Row),
    s.mode ≠ .rollcall → s.mode ≠ .barred → TableOwn s → readClaim f.payload = some m →
    f.station.toNat ≠ s.own → peerOf s f.station.toNat = some r →
    ∃ t, exec (.claimFrame f) s = .next t ∧
      t.outer =
        { s.outer with
          idle := false
          table := t.table
          lineStamp := ⟨s.timeBase, false⟩
          feederStamp :=
            if r.fixed.feeder = s.straps.feeder.val then ⟨s.timeBase, false⟩
            else s.spacing.feederStamp } ∧
      (∀ n, n ≠ f.station.toNat → peerOf t n = peerOf s n) ∧
      peerOf t f.station.toNat =
        some
          { fixed := r.fixed
            report :=
              { r.report with
                flight := m.dir
                lift := if m.kind = .contact then none else some m.start
                committedEnd := m.stop }
            marks := { (heardAt s r).marks with lastClaim := ⟨s.timeBase, false⟩ } } ∧
      (s.claiming = false → Quiet s →
        t.inner = { s.inner with faults := t.inner.faults } ∧ OtherFaultsKept s t .peerSilent)

/-- What withdraws a queued claim: a CLAIM from a peer of the station's own feeder group, or from any peer when G_S is
not 0; in MOVING, a CLAIM or a POSE after which the ceiling unit no longer admits it; and any change of the station's
own pawl state. A waiting claim is withdrawn at once with one more withdrawal, a contending one when its key ends, and
a committed one only has the withdrawal marked as held. A CLAIM from another feeder group with G_S 0, and a POSE, that
leave the claim admitted leave it queued as it is (R89, R103, R112, R113, R114, R119). In MOVING this is said with the
column in band, since the share evaluation comes before the ceiling unit's (assumption 7). -/
def Obligations.ClaimWithdrawsQueuedClaim : Prop :=
  let withdrawn : State → State → Prop := fun s t =>
    (∀ w, s.line.claim = .waiting w → ClaimWithdrawn s t) ∧
    (∀ w h, s.line.claim = .contending w h → t.line.claim = .contending w true) ∧
    (∀ w, s.line.claim = .committed w → t.line.claim = .committed w ∧ t.spacing.held = true)
  let kept : State → State → Prop := fun s t =>
    t.inner = { s.inner with faults := t.inner.faults, admitted := true } ∧
      OtherFaultsKept s t .peerSilent
  (∀ (s : State) (f : RxFrame) (m : ClaimMsg) (r : Row),
    s.mode ≠ .rollcall → s.mode ≠ .barred → TableOwn s → readClaim f.payload = some m →
    f.station.toNat ≠ s.own → peerOf s f.station.toNat = some r → s.claiming = true →
    ∃ t, exec (.claimFrame f) s = .next t ∧
      ((r.fixed.feeder = s.straps.feeder.val ∧ 0 < s.cfg.gl) ∨ 0 < s.cfg.gs →
        (∀ w, s.line.claim = .waiting w →
          t.line.claim = .empty ∧ t.engine.stroke = .rest ∧
            t.spacing.withdrawals = oneMore 255 s.spacing.withdrawals) ∧
        (∀ w h, s.line.claim = .contending w h → t.line.claim = .contending w true) ∧
        (∀ w, s.line.claim = .committed w →
          t.line.claim = .committed w ∧ t.spacing.held = true)) ∧
      (r.fixed.feeder ≠ s.straps.feeder.val → s.cfg.gs = 0 → Quiet s →
        t.inner = { s.inner with faults := t.inner.faults } ∧ OtherFaultsKept s t .peerSilent) ∧
      (∀ c, r.fixed.feeder ≠ s.straps.feeder.val → s.cfg.gs = 0 → s.mode = .moving →
        s.stage.awaitingSet = false → s.engine.stroke = .claiming c → InBand (claimed s f m) →
        (StillAdmitted (claimed s f m) c → kept s t) ∧
        (¬ StillAdmitted (claimed s f m) c → withdrawn s t))) ∧
  (∀ (s : State) (f : RxFrame) (m : PoseMsg) (c : Stroke),
    s.mode = .moving → s.stage.awaitingSet = false → s.engine.stroke = .claiming c → TableOwn s →
    isOwnAttempt s (wire kindPose f) = false → f.prec = 0 → readPose f.payload = some m →
    f.station.toNat ≠ s.own → isMember s f.station.toNat = true →
    ∃ t, exec (.poseFrame f) s = .next t ∧
      (InBand (posed s f m) → StillAdmitted (posed s f m) c → kept s t) ∧
      (¬ StillAdmitted (posed s f m) c → withdrawn s t)) ∧
  (∀ (s : State) (i : Instr), s.claiming = true →
    (∃ sw closed, i = .switchEvent sw closed) ∨ i = .pawlTimeLimitExpiry →
    ∃ t, exec i s = .next t ∧ (t.pawl.state ≠ s.pawl.state → withdrawn s t))

/-- The station's own CLAIM completes: it leaves the slot, the stamps move, the withdrawal count and the held mark are
cleared, and the self row is heard. In MOVING, with no withdrawal held, the pawl as the class needs it and a starting
count from 1 to L + A, a column in band runs the stroke with that count, its time limit armed and the drive on; a
count of 0 or less ends the stroke at once; a contact stroke of an unstaged column that bears W_c already captures
contact at once; anything else voids the claim: REST, a POSE requested, and the last stroke record, the rest reference,
the time limit and the reversal dwell as they were; a count above L + A is DRIFT (R77, R108, R118, R123, R126, R127,
R130, R157, R158, R191). That DRIFT is reported whatever else voids the claim is assumption 13. -/
def Obligations.ClaimTaken : Prop :=
  ∀ (s : State) (w : WireFrame) (r : Stroke),
    s.line.claim = .committed w → s.engine.stroke = .claiming r → 0 < s.cfg.gl →
    s.mode ≠ .rollcall → s.mode ≠ .barred → TableOwn s →
    let here : Int := if r.kind = .contact then s.engine.travel else s.lift.getD s.engine.travel
    let count : Int := r.length - (if r.dir = .lower then r.start - here else here - r.start)
    let limit : Int := s.cfg.l + s.cfg.a
    let pawlRight : Prop :=
      s.pawl.state =
        if r.dir = .lower ∧ r.kind ≠ .contact ∧ r.kind ≠ .nudge then .withdrawn else .set
    let clear : Prop := s.mode = .moving ∧ s.spacing.held = false ∧ pawlRight
    ∃ t, exec .claimTaken s = .next t ∧
      t.outer =
        { s.outer with
          idle := false, attempt := none, failures := 0, table := t.table
          lineStamp := ⟨s.timeBase, false⟩, feederStamp := ⟨s.timeBase, false⟩ } ∧
      (∀ n, peerOf t n = peerOf s n) ∧
      (∀ a, s.table = some a →
        (t.table.map (·.selfMarks)) =
          some
            { live := .live, lastHeard := ⟨s.timeBase, false⟩, lastClaim := ⟨s.timeBase, false⟩
              silence := some (s.timeBase + BitVec.ofNat 32 (s.cfg.s * s.cfg.p * 10)) }) ∧
      t.line.claim = .empty ∧ t.spacing.withdrawals = 0 ∧ t.spacing.held = false ∧
      (clear → 0 < count → count ≤ limit → InBand (signOfLife s.own s) → s.stage.awaitingSet = false →
        MotionSafe s → (r.kind = .contact → s.loadMon.present < s.cfg.wc) →
        t.mode = .moving ∧ t.engine.stroke = .running r count.toNat ∧
          t.engine.limit = some (s.timeBase + BitVec.ofNat 32 (10 * s.cfg.tst)) ∧
          t.engine.drive = (if r.dir = .raise then .runUp else .runDown) ∧
          t.loadMon.watch = (s.loadMon.watch || r.kind == .contact) ∧
          t.ceiling.outcome = .idle ∧ t.ceiling.reason = .none ∧ t.lamps.waitingLong = false) ∧
      (clear → 0 < count → count ≤ limit → r.kind = .contact → s.cfg.wc ≤ s.loadMon.present →
        s.stage.record = .unstaged → s.stage.awaitingSet = false →
        t.engine.stroke = .rest ∧ t.engine.limit = none ∧ t.loadMon.watch = false ∧
          t.engine.restRef = s.engine.travel ∧ t.engine.lastDir = .raise ∧
          t.engine.lastEnd = ⟨s.timeBase, false⟩ ∧ (MotionSafe s → t.engine.drive = .off) ∧
          t.stage.record = .staged ⟨s.engine.travel, .stage 0, 0, 0, false⟩ ∧ t.lift = some 0 ∧
          t.retained.content =
            ⟨some ⟨s.engine.travel, .stage 0⟩, s.stage.dir, s.plan.active⟩ ∧
          (s.stage.dir = .raise → t.mode = .settled ∨ t.mode = .idle)) ∧
      (clear → count ≤ 0 →
        t.engine.stroke = .rest ∧ t.engine.limit = none ∧ t.engine.lastDir = r.dir ∧
          t.engine.lastEnd = ⟨s.timeBase, false⟩ ∧ t.engine.restRef = s.engine.travel) ∧
      (¬ clear ∨ limit < count → t.line.posePending = true ∧
        (s.engine.jog = .none → t.engine = { s.engine with stroke := .rest })) ∧
      (limit < count → t.fault .drift = recordAfter s .drift (s.active .drift) none) ∧
      (count ≤ limit → Quiet s → t.fault .drift = s.fault .drift)

/-- At the expiry of a row's silence compare the row is LOST, and PEER_SILENT is reported naming the member, active
when it is the only LOST row. A station in MOVING goes to HOLD; any other stays in its mode. The self row is
timed like any other (R55, R57, R175). -/
def Obligations.SilenceExpiry : Prop :=
  ∀ (s : State) (n : Nat) (r : Row),
    TableOwn s → rowOf s n = some r → due s.timeBase r.marks.silence = true →
    ∃ t, exec (.silenceExpiry n) s = .next t ∧
      t.outer = { s.outer with table := t.table } ∧
      (rowOf t n).map (fun q => (q.fixed, q.marks)) =
        some (r.fixed, { r.marks with live := .lost, silence := none }) ∧
      (n ≠ s.own → (rowOf t n).map (·.report) = some r.report) ∧
      (∀ j, j ≠ n → peerOf t j = peerOf s j) ∧
      t.fault .peerSilent =
        recordAfter s .peerSilent
          (s.active .peerSilent ||
            (allRows s).all fun q => q.fixed.number == n || q.marks.live == .live) (some n) ∧
      t.line.haltSlot = s.line.haltSlot ∧
      t.mode = (if s.mode = .moving then .hold else s.mode) ∧
      t.modeCtl.lastStop =
        (if s.mode = .moving then
          some ⟨.hold, .fault, some .peerSilent, none, ⟨s.timeBase, false⟩⟩
         else s.modeCtl.lastStop) ∧
      (Quiet s → OtherFaultsKept s t .peerSilent)

/-- At the spacing instant the gap test is made again for an offer at REST in MOVING with the CLAIM slot EMPTY: once
G_L has passed since the feeder stamp and G_S since the line stamp the claim is queued, with a precedence of 255
less the withdrawals; until then the compare is armed for what is left (R5, R109, R110, R111). That a claim just
queued counts as admitted is assumption 34. -/
def Obligations.SpacingInstant : Prop :=
  ∀ s : State, due s.timeBase s.spacing.instant = true → s.notice = false →
    let left : Nat → Stamp → Nat := fun ms st =>
      if st.expired ∨ 10 * ms ≤ (s.timeBase - st.value).toNat then 0
      else 10 * ms - (s.timeBase - st.value).toNat
    let rest : Nat := max (left s.cfg.gl s.spacing.feederStamp) (left s.cfg.gs s.spacing.lineStamp)
    let ready : Prop := s.engine.stroke = .rest ∧ s.mode = .moving ∧ s.line.claim = .empty
    ∃ t, exec .spacingInstantExpiry s = .next t ∧ t.outer = s.outer ∧
      t.spacing.offer = s.spacing.offer ∧
      (¬ ready ∨ s.spacing.offer = none → t.inner = s.inner ∧ t.spacing.instant = none) ∧
      (∀ r, ready → s.spacing.offer = some r → 0 < rest →
        t.inner = s.inner ∧ t.spacing.instant = some (s.timeBase + BitVec.ofNat 32 rest)) ∧
      (∀ r, ready → s.spacing.offer = some r → rest = 0 →
        t.spacing.instant = none ∧
          t.inner =
            { s.inner with
              engine := { s.engine with stroke := .claiming r }
              claim :=
                .waiting
                  { kind := kindClaim
                    prec := BitVec.ofNat 8 (255 - min 255 s.spacing.withdrawals)
                    station := BitVec.ofNat 6 s.own
                    payload := claimPayload ⟨r.kind, r.dir, r.final, r.stage, r.start, r.stop⟩ }
              held := false
              admitted := true })

/-! ### Orders, halts and the plan store -/

/-- An ADVANCE or RETREAT that passes every check in IDLE makes a stage entry: the next stage up, or down, or SETDOWN
from stage 0, with the target of R74's table and its effective target, the direction that the two targets give, the
new content handed to settings memory, and the lowering-release flag cleared (R95); then the entry to MOVING:
nudge-due with direction lower, the share evaluation, and in band the arrival test (R41, R76, R79, R81, R97, R162,
R163, R169). The checks see the frame's own sign of life (assumption 8), and the share evaluation comes before the
arrival test (assumption 7). -/
def Obligations.OrdersMoveStage : Prop :=
  ∀ (s : State) (f : RxFrame) (r : StagedRec) (k : Nat),
    f.prec = 0 → f.payload = [] → s.mode = .idle → isMember s f.station.toNat = true →
    s.stage.record = .staged r → r.stage = .stage k →
    let up : WireFrame := wireOrder 0 f
    let down : WireFrame := wireOrder 1 f
    let agrees : State → Prop := fun u =>
      allLive u = true ∧ planAgreed u = true ∧ ownFault u = false
    (agrees (heardFrom s up) → k < s.plan.active.length → r.contactZero ≤ 240000 →
      ∃ t, exec (.advance f) s = .next t ∧ EntersStage s (heardFrom s up) t r (.stage (k + 1))) ∧
    (agrees (heardFrom s down) → r.contactZero ≤ 240000 →
      ∃ t, exec (.retreat f) s = .next t ∧
        EntersStage s (heardFrom s down) t r (if k = 0 then .setdown else .stage (k - 1)))

/-- Catch-up join: a POSE that shows a peer to have acted on an order that the station did not hear makes the
station act as if it had taken that order, with the checks of R169; it is not an order and leaves no record
(R174). The checks see the frame's own sign of life (assumption 8), and the share evaluation of an entry to MOVING
comes before the arrival test (assumption 7). -/
def Obligations.CatchUpJoin : Prop :=
  ∀ (s : State) (f : RxFrame) (m : PoseMsg),
    f.prec = 0 → readPose f.payload = some m → f.station.toNat ≠ s.own →
    isMember s f.station.toNat = true → TableOwn s → ownFault s = false →
    (∀ q ∈ allRows s, q.fixed.number = f.station.toNat ∨ q.marks.live = .live) →
    (s.mode = .unstaged → s.stage.record = .unstaged → s.engine.travel < 240000 → m.dir = .raise →
      (m.mode = .moving ∧ m.stage = none) ∨
        ((m.mode = .settled ∨ m.mode = .idle) ∧ m.stage = some (.stage 0)) →
      ∃ t, exec (.poseFrame f) s = .next t ∧ t.mode = .moving ∧
        t.stage = ⟨.unstaged, .raise, false⟩ ∧
        t.retained.content = ⟨none, .raise, s.plan.active⟩ ∧
        t.modeCtl.lastRefused = s.modeCtl.lastRefused) ∧
    (∀ (r : StagedRec) (k : Nat),
      s.mode = .idle ∨ s.mode = .settled → s.stage.record = .staged r → r.stage = .stage k →
      r.contactZero ≤ 240000 → m.planTag = s.plan.tag →
      (∀ q ∈ allRows s, q.fixed.number = f.station.toNat ∨ q.report.planTag = s.plan.tag) →
      m.mode = .moving ∨ m.mode = .settled ∨ m.mode = .idle →
      (k < s.plan.active.length → m.stage = some (.stage (k + 1)) →
        ∃ t, exec (.poseFrame f) s = .next t ∧
          EntersStage s (posed s f m) t r (.stage (k + 1))) ∧
      (m.stage = some (if k = 0 then .setdown else .stage (k - 1)) →
        ∃ t, exec (.poseFrame f) s = .next t ∧
          EntersStage s (posed s f m) t r (if k = 0 then .setdown else .stage (k - 1))))

/-- A SETTLED station enters IDLE at the POSE that completes rest(k) at its own stage: every row LIVE, in SETTLED or
IDLE, and at that stage (R60, R173). -/
def Obligations.SettledFindsRest : Prop :=
  ∀ (s : State) (f : RxFrame) (m : PoseMsg) (k : Nat),
    f.prec = 0 → readPose f.payload = some m → f.station.toNat ≠ s.own → TableOwn s →
    isMember s f.station.toNat = true → s.mode = .settled → s.stageIx = some (.stage k) →
    m.mode = .settled ∨ m.mode = .idle → m.stage = some (.stage k) →
    (∀ q ∈ allRows s, q.fixed.number = f.station.toNat ∨
      (q.marks.live = .live ∧ (q.report.mode = .settled ∨ q.report.mode = .idle) ∧
        q.report.stage = some (.stage k))) →
    ∃ t, exec (.poseFrame f) s = .next t ∧ t.mode = .idle ∧ t.stage.record = s.stage.record

/-- An ADVANCE in UNSTAGED, with every member LIVE and UNSTAGED and no hold-class or halt-class kind latched,
starts take-up: direction raise, handed to settings memory, no stage, any jog ended, and MOVING (R77, R140,
R169). The checks see the frame's own sign of life (assumption 8). -/
def Obligations.AdvanceTakesUp : Prop :=
  ∀ (s : State) (f : RxFrame),
    f.prec = 0 → f.payload = [] → s.mode = .unstaged → isMember s f.station.toNat = true →
    s.stage.record = .unstaged → s.engine.travel < 240000 →
    allUnstaged (heardFrom s (wireOrder 0 f)) = true →
    ownFault (heardFrom s (wireOrder 0 f)) = false →
    ∃ t, exec (.advance f) s = .next t ∧ t.mode = .moving ∧
      t.stage = ⟨.unstaged, .raise, false⟩ ∧ t.engine.jog = .none ∧ t.lift = none ∧
      t.retained.content = ⟨none, .raise, s.plan.active⟩ ∧
      t.modeCtl.lastRefused = s.modeCtl.lastRefused

/-- An ADVANCE or RETREAT that fails a check is refused with the first reason that applies, in the order of
R169: the last refused order takes the kind, the reason and the originator, and neither the mode nor the stage
changes. A refusal for plan disagreement reports PLAN_MISMATCH, naming the lowest-numbered LIVE row that
disagrees (R168, R169). The checks see the frame's own sign of life (assumption 8). -/
def Obligations.OrdersRefused : Prop :=
  ∀ (s : State) (f : RxFrame) (up : Bool) (why : Reason),
    f.prec = 0 → f.payload = [] → s.mode ≠ .rollcall → s.mode ≠ .barred →
    isMember s f.station.toNat = true →
    let u := heardFrom s (wireOrder (if up then 0 else 1) f)
    let group : Option Reason :=
      if allLive u = false then some .notAllLive
      else if planAgreed u = false then some .planDisagree
      else if ownFault u then some .ownFault
      else none
    let reason : Option Reason :=
      match s.mode, up with
      | .unstaged, true =>
        if allUnstaged u = false then some .notAllUnstaged
        else if ownFault u then some .ownFault
        else none
      | .idle, true => if stageAbove s = none then some .lastStage else group
      | .idle, false => group
      | _, _ => some .mode
    reason = some why →
    ∃ t, exec (if up then .advance f else .retreat f) s = .next t ∧
      t.outer =
        { u.outer with
          lastRefused :=
            some ⟨if up then .advance else .retreat, why, f.station.toNat, ⟨s.timeBase, false⟩⟩ } ∧
      (why = .planDisagree →
        t.fault .planMismatch =
          recordAfter s .planMismatch (s.active .planMismatch) (firstDisagreeing u)) ∧
      (Quiet s →
        t.inner =
          { u.inner with
            faults := t.inner.faults
            posePending := t.line.posePending
            poseAgain := t.line.poseAgain } ∧
        OtherFaultsKept u t .planMismatch ∧
        (why ≠ .planDisagree → t.inner = u.inner))

/-- A STOP from a member puts a station in MOVING in HOLD: the last stop record takes the originator, a raising
stroke's remaining count becomes at most A, a lowering stroke is cut as the pawl is commanded SET, a claim that
waits is withdrawn, and stage, target and direction are kept. In any other mode it is ignored, with no record
(R83, R132, R133, R166, R170). -/
def Obligations.StopHolds : Prop :=
  ∀ (s : State) (f : RxFrame),
    f.prec = 0 → f.payload = [] → s.mode ≠ .rollcall → s.mode ≠ .barred →
    isMember s f.station.toNat = true →
    let u := heardFrom s (wireOrder 2 f)
    ∃ t, exec (.stop f) s = .next t ∧ t.outer = u.outer ∧
      (s.mode = .moving →
        t.mode = .hold ∧
          t.modeCtl.lastStop =
            some ⟨.hold, .stopOrder, none, some f.station.toNat, ⟨s.timeBase, false⟩⟩ ∧
          t.stage = { s.stage with awaitingSet := false } ∧
          t.ceiling.outcome = .idle ∧ t.spacing.offer = none ∧
          (∀ w, s.line.claim = .waiting w → s.claiming = true →
            t.line.claim = .empty ∧ t.engine.stroke = .rest) ∧
          (∀ r n, s.engine.stroke = .running r n → r.dir = .raise →
            t.engine.stroke =
              .running
                { r with
                  stop :=
                    if s.lift.isSome then r.stop.map fun _ => s.lift.getD 0 + min n s.cfg.a
                    else r.stop }
                (min n s.cfg.a)) ∧
          (∀ r n, s.engine.stroke = .running r n → r.dir = .lower → s.pawl.state = .withdrawn →
            t.engine.stroke = .rest ∧ t.pawl.state = .setting ∧ t.pawl.commanded = .set)) ∧
      (s.mode ≠ .moving → t.modeCtl.lastStop = s.modeCtl.lastStop ∧
        (Quiet s → t.inner = u.inner))

/-- A RESUME in any mode that has a table: every latched kind whose condition is not active is acknowledged, with
counts and first-occurrence records kept, and a STUCK pawl is found again from its switches (R152, R171). What the
RESUME leads to may bring a new occurrence of TRAVEL_LIMIT, DRIFT, LOAD_SHARE or PLAN_MISMATCH alone, which its count
shows. In UNSTAGED, MOVING, SETTLED and IDLE it is no refusal and has no further effect; in MOVING this is said with
the column in band and room to raise. The acknowledgement sees the frame's own sign of life (assumption 8), and an own
RESUME ends an active LINE condition before it (assumption 32). -/
def Obligations.ResumeAcknowledges : Prop :=
  ∀ (s : State) (f : RxFrame),
    f.prec = 0 → f.payload = [] → s.mode ≠ .rollcall → s.mode ≠ .barred →
    isMember s f.station.toNat = true →
    let u := heardFrom s (wireOrder 3 f)
    let mayOccur : FaultKind → Bool := fun k =>
      k == .travelLimit || k == .drift || k == .loadShare || k == .planMismatch
    let takesMode : Prop := s.mode = .hold ∨ s.mode = .halted
    ∃ t, exec (.resume f) s = .next t ∧
      t.outer = { u.outer with lastRefused := t.modeCtl.lastRefused } ∧
      (∀ k,
        (mayOccur k = true →
          (u.fault k).count < 255 ∧ (t.fault k).count = (u.fault k).count) →
        t.latched k = (u.latched k && conditionKind k && u.active k) ∧
          (t.fault k).count = (u.fault k).count ∧ (t.fault k).first = (u.fault k).first) ∧
      (¬ takesMode →
        t.modeCtl.lastRefused = s.modeCtl.lastRefused ∧
        (s.mode = .unstaged ∨ s.mode = .idle → t.mode = s.mode ∧
          (∀ k, (t.fault k).count = (u.fault k).count) ∧
          (s.pawl.state ≠ .stuck →
            t.inner =
              { u.inner with
                faults := t.inner.faults
                posePending := t.line.posePending
                poseAgain := t.line.poseAgain })) ∧
        (s.mode = .settled →
          (t.mode = .settled ∨ t.mode = .idle) ∧ t.stage.record = s.stage.record ∧
            t.stage.dir = s.stage.dir ∧ t.modeCtl.lastStop = s.modeCtl.lastStop) ∧
        (s.mode = .moving → InBand u → s.stage.awaitingSet = false →
          (∃ r, s.stage.record = .staged r) ∨ s.engine.travel < 240000 →
          t.mode = .moving ∧ t.stage = s.stage ∧ t.modeCtl.lastStop = s.modeCtl.lastStop)) ∧
      (s.pawl.state = .stuck →
        (s.pawl.setClosed = true → s.pawl.withdrawnClosed = false →
          t.pawl.state = .set ∨ (t.mode = .moving ∧ t.pawl.state = .withdrawing)) ∧
        (s.pawl.setClosed = false → s.pawl.withdrawnClosed = true →
          t.pawl.state = .setting ∧ t.pawl.commanded = .set ∧
            t.pawl.limit = some (s.timeBase + BitVec.ofNat 32 (10 * s.cfg.tpw))) ∧
        (s.pawl.setClosed = s.pawl.withdrawnClosed → t.pawl.state = .stuck))

/-- A RESUME in HOLD: refused, in this order, for a LOST row, for plan disagreement, or for an active hold-class
or halt-class condition; else the entry to MOVING, or take-up going on (R81, R97, R171). A staged station has
nudge-due set with direction lower, and the share evaluation at once, which puts a column that is still out of band
back in HOLD with a new occurrence (R163), and in band the arrival test, on the lift of that moment even while a
shortened stroke runs (assumption 30). The checks see the frame's own sign of life (assumption 8) and, at an own
RESUME, an active LINE condition ended (assumption 32). -/
def Obligations.ResumeFromHold : Prop :=
  ∀ (s : State) (f : RxFrame),
    f.prec = 0 → f.payload = [] → s.mode = .hold → s.pawl.state ≠ .stuck →
    isMember s f.station.toNat = true →
    let u := heardFrom s (wireOrder 3 f)
    let blocked : Prop := ∃ k, (haltClass k = true ∨ holdClass k = true) ∧ u.active k = true
    let refusal : Reason → State → Prop := fun why t =>
      t.mode = .hold ∧
        t.modeCtl.lastRefused = some ⟨.resume, why, f.station.toNat, ⟨s.timeBase, false⟩⟩ ∧
        t.stage = s.stage ∧ t.engine = s.engine
    ∃ t, exec (.resume f) s = .next t ∧
      (allLive u = false → refusal .notAllLive t) ∧
      (allLive u = true → planAgreed u = false →
        refusal .planDisagree t ∧
          (t.fault .planMismatch).count = oneMore 255 (s.fault .planMismatch).count) ∧
      (allLive u = true → planAgreed u = true → blocked → refusal .conditionActive t) ∧
      (allLive u = true → planAgreed u = true → ¬ blocked →
        t.modeCtl.lastRefused = s.modeCtl.lastRefused ∧
        (∀ r, s.stage.record = .staged r →
          EntersMoving s u t r s.stage.dir ((s.engine.travel : Int) - r.contactZero)) ∧
        (s.stage.record = .unstaged → s.engine.travel < 240000 →
          t.mode = .moving ∧ t.stage.dir = s.stage.dir))

/-- A RESUME in HALTED: refused for an active halt-class condition, or for a STUCK pawl alone; else the station
leaves HALTED, to UNSTAGED when not staged, to SETTLED when staged at stage 0 to n in place with the pawl SET, and
to HOLD in any other staged case, with the last stop record left as it stands; entry to UNSTAGED clears the nudge-due
and lowering-release flags (R95, R97, R165, R172). That an own RESUME ends an active LINE condition before the checks
is assumption 32. -/
def Obligations.ResumeLeavesHalted : Prop :=
  ∀ (s : State) (f : RxFrame),
    f.prec = 0 → f.payload = [] → s.mode = .halted → isMember s f.station.toNat = true →
    let u := heardFrom s (wireOrder 3 f)
    let blocked : Prop := ∃ k, haltClass k = true ∧ u.active k = true
    let stuck : Prop := s.pawl.state = .stuck ∧ s.pawl.setClosed = s.pawl.withdrawnClosed
    let refusal : Reason → State → Prop := fun why t =>
      t.mode = .halted ∧
        t.modeCtl.lastRefused = some ⟨.resume, why, f.station.toNat, ⟨s.timeBase, false⟩⟩ ∧
        t.stage = s.stage
    let inPlace : StagedRec → Prop := fun r =>
      let e := r.effTarget - ((s.engine.travel : Int) - r.contactZero)
      r.stage ≠ .setdown ∧ -(s.cfg.a : Int) ≤ e ∧ e ≤ s.cfg.a ∧
        (r.effTarget = r.target ∨ r.limitReported = true)
    ∃ t, exec (.resume f) s = .next t ∧
      t.modeCtl.lastStop = s.modeCtl.lastStop ∧
      (blocked → refusal .conditionActive t) ∧
      (¬ blocked → stuck → refusal .pawl t) ∧
      (¬ blocked → ¬ stuck →
        t.modeCtl.lastRefused = s.modeCtl.lastRefused ∧
        (s.stage.record = .unstaged →
          t.mode = .unstaged ∧ t.stage.record = .unstaged ∧ t.stage.dir = .none ∧
            t.ceiling.nudgeDue = false ∧ t.ceiling.release = false) ∧
        (∀ r, s.stage.record = .staged r → t.stage.record = .staged r ∧
          (s.pawl.state = .set → inPlace r → t.mode = .settled ∨ t.mode = .idle) ∧
          (¬ inPlace r ∨ (s.pawl.state ≠ .set ∧ s.pawl.state ≠ .stuck) → t.mode = .hold)))

/-- A HALT from a member, the station's own included, puts a station in UNSTAGED, MOVING, SETTLED, IDLE or HOLD into
HALTED: the motor is off, no jog is left, and a claim that waits is withdrawn; the last stop record takes the
cause and the originator, and nothing is latched. In HALTED it changes nothing more than any frame does (R134,
R140, R166, R178). -/
def Obligations.HaltFrameHalts : Prop :=
  ∀ (s : State) (f : RxFrame) (cause : FaultKind),
    f.prec = 0 → readHalt f.payload = some cause → s.mode ≠ .rollcall → s.mode ≠ .barred →
    isMember s f.station.toNat = true →
    let u := heardFrom s (wire kindHalt f)
    ∃ t, exec (.haltFrame f) s = .next t ∧ t.outer = u.outer ∧ FaultsKept u t ∧
      t.line.haltSlot = u.line.haltSlot ∧
      (s.mode ≠ .halted →
        t.mode = .halted ∧
          t.modeCtl.lastStop =
            some ⟨.halted, .haltFrame, some cause, some f.station.toNat, ⟨s.timeBase, false⟩⟩ ∧
          t.stage = { s.stage with awaitingSet := false } ∧
          (MotionSafe s → t.engine.drive = .off ∧ t.engine.jog = .none) ∧
          (∀ r n, t.engine.stroke ≠ .running r n) ∧
          (∀ w, s.line.claim = .waiting w → s.claiming = true → t.line.claim = .empty)) ∧
      (s.mode = .halted → t.inner = u.inner)

/-- A LOAD appends its entry, the target held to 200,000 and each lead that is present to 8,000, to the staging bank;
a bank of 16 keeps its first 15 entries and is marked overrun. A CLEAR empties the bank and the mark. Neither has
any other effect than the frame's sign of life (R66, R67, R68). -/
def Obligations.PlanLoadClear : Prop :=
  ∀ (s : State) (f : RxFrame) (low : BitVec 6),
    s.mode ≠ .rollcall → s.mode ≠ .barred → isMember s f.station.toNat = true →
    (∀ (target : Nat) (car set : Option Nat),
      contentOf (wirePlan 0 low f) = some (.plan (.load target car set)) →
      let u := heardFrom s (wirePlan 0 low f)
      let entry : PlanEntry := ⟨min target 200000, car.map (min · 8000), set.map (min · 8000)⟩
      ∃ t, exec (.load low f) s = .next t ∧ (Quiet s → t.inner = u.inner) ∧
        t.outer =
          { u.outer with
            plan :=
              if s.plan.staging.length < 16 then
                { s.plan with staging := s.plan.staging ++ [entry] }
              else
                { s.plan with staging := s.plan.staging.take 15 ++ [entry], overrun := true } }) ∧
    (contentOf (wirePlan 1 low f) = some (.plan .clear) →
      let u := heardFrom s (wirePlan 1 low f)
      ∃ t, exec (.clear low f) s = .next t ∧ (Quiet s → t.inner = u.inner) ∧
        t.outer = { u.outer with plan := { s.plan with staging := [], overrun := false } })

/-- An ADOPT is checked for the mode, then for an empty and for an overrun staging bank, and refused with the first
that fails; else the staging bank is copied to the active bank, the plan tag is that of R72, the new content goes
to settings memory and a POSE is requested (R69, R70, R72). -/
def Obligations.AdoptCopiesStaging : Prop :=
  ∀ (s : State) (f : RxFrame) (low : BitVec 6),
    s.mode ≠ .rollcall → s.mode ≠ .barred → isMember s f.station.toNat = true →
    contentOf (wirePlan 2 low f) = some (.plan .adopt) →
    let u := heardFrom s (wirePlan 2 low f)
    let rightMode : Prop :=
      s.mode = .unstaged ∨ (s.mode = .idle ∧ s.stageIx = some (.stage 0))
    let refusal : Reason → State → Prop := fun why t =>
      t.outer =
        { u.outer with
          lastRefused := some ⟨.adopt, why, f.station.toNat, ⟨s.timeBase, false⟩⟩ } ∧
      (Quiet s → t.inner = u.inner)
    let value : PlanEntry → Nat := fun e => e.target + 3 * e.carLead.getD 0 + 5 * e.setLead.getD 0
    ∃ t, exec (.adopt low f) s = .next t ∧
      (¬ rightMode → refusal .mode t) ∧
      (rightMode → s.plan.staging = [] → refusal .stagingEmpty t) ∧
      (rightMode → s.plan.staging ≠ [] → s.plan.overrun = true → refusal .stagingOverrun t) ∧
      (rightMode → s.plan.staging ≠ [] → s.plan.overrun = false →
        t.outer =
          { u.outer with
            plan :=
              { s.plan with
                active := s.plan.staging
                tag :=
                  (s.plan.staging.length +
                    (s.plan.staging.mapIdx fun i e => (i + 1) * value e).sum) % 65536 } } ∧
        t.retained.content = { retainedNow s with plan := s.plan.staging } ∧
        (s.retained.writing = none →
          t.retained.writing = some t.retained.content ∧ t.retained.marker = false) ∧
        (s.retained.writing ≠ none →
          t.retained.writing = s.retained.writing ∧ t.retained.rewriteOwed = true) ∧
        (t.line.posePending = true ∨ t.line.poseAgain = true) ∧ t.mode = s.mode ∧
        t.stage = s.stage ∧ FaultsKept u t)

/-! ### Strokes: counts, ends, limits and choice -/

/-- A local halt-class event in any mode: an encoder error, a count that would leave the screw's travel, and an
opening of the emergency contact each latch their kind, halt the station where it has a table, fill the HALT slot if
it is empty, and leave the drive off. A closing of the contact ends the condition alone (R11, R124, R167, R177, R179,
R181, R182). The record of ENCODER takes the travel (R124), and of a staged column the lift with it (R181), which is
assumption 35. -/
def Obligations.HaltInputs : Prop :=
  (∀ (s : State) (c : Instr) (k : FaultKind),
    (c = .encoderError ∧ k = .encoder) ∨
      (c = .countEvent true ∧ s.engine.travel = 240000 ∧ k = .encoder) ∨
      (c = .countEvent false ∧ s.engine.travel = 0 ∧ k = .encoder) ∨
      (c = .emergencyOpen ∧ s.pendant.levels.emergencyClosed = true ∧ k = .emergency) →
    ∃ t, exec c s = .next t ∧
      t.fault k =
        recordAfterAt
          (match k, s.stage.record with
           | .encoder, .staged r =>
             .liftAndTravel ((s.engine.travel : Int) - r.contactZero) s.engine.travel
           | _, _ => columnPlace s) s k
          (s.active k || k == .emergency) none ∧
      OtherFaultsKept s t k ∧
      t.outer =
        { s.outer with
          pendant :=
            if k = .emergency then
              { s.pendant with levels := { s.pendant.levels with emergencyClosed := false } }
            else s.pendant } ∧
      t.mode = (if s.mode = .rollcall ∨ s.mode = .barred then s.mode else .halted) ∧
      t.modeCtl.lastStop =
        (if s.mode = .rollcall ∨ s.mode = .barred ∨ s.mode = .halted then s.modeCtl.lastStop
         else some ⟨.halted, .fault, some k, none, ⟨s.timeBase, false⟩⟩) ∧
      t.line.haltSlot =
        some (s.line.haltSlot.getD
          ⟨kindHalt, 0, BitVec.ofNat 6 s.own, [BitVec.ofNat 8 (faultCode k).val]⟩) ∧
      (MotionSafe s → t.engine.drive = .off)) ∧
  (∀ s : State, s.pendant.levels.emergencyClosed = false →
    ∃ t, exec .emergencyClose s = .next t ∧
      t.outer =
        { s.outer with
          pendant := { s.pendant with levels := { s.pendant.levels with emergencyClosed := true } } } ∧
      t.fault .emergency = { s.fault .emergency with active := false } ∧
      (Calm s → t.inner = { s.inner with faults := t.inner.faults } ∧
        OtherFaultsKept s t .emergency))

/-- A count in the stroke's direction lowers the remaining count and one against it raises it, each with travel, while
the column is in band and, in SETTLED, the group is not at rest. At 0 the stroke ends: no stroke runs, the drive is
off, the last stroke is recorded, in MOVING the end of a nudge clears nudge-due, that of a final lowering stroke
commands the pawl SET, and a staged station has its arrival test, a lowering arrival then waiting for SET, and in
SETTLED a group at rest makes the station IDLE. A raise above L + A is DRIFT with an abort, and a contact stroke that
reaches travel 240,000 is TRAVEL_LIMIT (R81, R82, R90, R97, R124, R128, R129, R131, R160, R173). -/
def Obligations.CountsRunStroke : Prop :=
  ∀ (s : State) (up : Bool) (r : Stroke) (n x : Nat),
    s.engine.stroke = .running r n → s.stage.awaitingSet = false →
    (up = true → s.engine.travel < 240000 ∧ x = s.engine.travel + 1) →
    (up = false → 0 < s.engine.travel ∧ x = s.engine.travel - 1) →
    let forward : Prop := (up = true ↔ r.dir = .raise)
    let atTop : Prop := r.kind = .contact ∧ x = 240000
    let resting : Bool :=
      match s.stageIx with
      | some (.stage k) => restAt s k
      | _ => false
    let quietly : Prop :=
      Quiet s ∨ (InBand s ∧ (s.mode = .moving ∨ (s.mode = .settled ∧ resting = false)))
    let moved : State := { s with engine := { s.engine with travel := x } }
    let ended : State → Prop := fun t =>
      t.engine.limit = none ∧ t.engine.restRef = x ∧ t.engine.lastDir = r.dir ∧
        t.engine.lastEnd = ⟨s.timeBase, false⟩ ∧
        t.engine.dwell = some (s.timeBase + BitVec.ofNat 32 (10 * s.cfg.trev)) ∧
        t.loadMon.watch = false ∧ (∀ r' n', t.engine.stroke ≠ .running r' n') ∧
        (MotionSafe s → t.engine.drive = .off)
    ∃ t, exec (.countEvent up) s = .next t ∧ t.outer = { s.outer with travel := x } ∧
      (¬ atTop → forward → 1 < n → quietly →
        t.inner =
          { s.inner with engine := { s.engine with travel := x, stroke := .running r (n - 1) } }) ∧
      (¬ atTop → ¬ forward → n < s.cfg.l + s.cfg.a → quietly →
        t.inner =
          { s.inner with engine := { s.engine with travel := x, stroke := .running r (n + 1) } }) ∧
      (¬ atTop → forward → n ≤ 1 → ended t ∧
        (Quiet s → t.mode = s.mode ∧ t.engine.stroke = .rest ∧ t.stage = s.stage ∧
          t.pawl = s.pawl ∧ t.ceiling.nudgeDue = s.ceiling.nudgeDue) ∧
        (s.mode = .settled → t.mode = (if resting then .idle else .settled) ∧
          t.engine.stroke = .rest ∧ t.stage = s.stage ∧ t.pawl = s.pawl ∧
          t.ceiling.nudgeDue = s.ceiling.nudgeDue) ∧
        (s.mode = .moving → r.kind = .nudge → t.ceiling.nudgeDue = false) ∧
        (∀ q, s.mode = .moving → s.stage.record = .staged q →
          ¬ (r.dir = .lower ∧ r.final = true) ∨ s.pawl.state = .withdrawn →
          ArrivalTested s t q s.stage.dir ((x : Int) - q.contactZero)) ∧
        (s.mode = .moving → r.dir = .lower → r.final = true → s.pawl.state = .withdrawn →
          t.pawl.commanded = .set ∧ t.pawl.state = .setting)) ∧
      (¬ atTop → ¬ forward → s.cfg.l + s.cfg.a ≤ n → ended t ∧
        t.fault .drift = recordAfter moved .drift (s.active .drift) none ∧
        t.mode = (if s.mode = .rollcall ∨ s.mode = .barred then s.mode else .halted)) ∧
      (r.kind = .contact → r.dir = .raise → x = 240000 → s.stage.record = .unstaged →
        t.fault .travelLimit = recordAfter moved .travelLimit (s.active .travelLimit) none ∧
        t.engine.restRef = 240000 ∧ t.engine.stroke = .rest ∧ t.stage.record = .unstaged ∧
        t.mode = (if s.mode = .moving then .hold else s.mode))

/-- With no stroke running and no jog, a count moves travel, and more than A from the rest reference it is DRIFT and
moves the reference there. During a jog no such test is made, and a jog ends at the end of the screw's travel
(R124, R136, R138, R139, R140). -/
def Obligations.CountsAtRest : Prop :=
  ∀ (s : State) (up : Bool) (x : Nat),
    (∀ r n, s.engine.stroke ≠ .running r n) →
    (up = true → s.engine.travel < 240000 ∧ x = s.engine.travel + 1) →
    (up = false → 0 < s.engine.travel ∧ x = s.engine.travel - 1) →
    let crept : Prop :=
      (s.cfg.a : Int) < x - s.engine.restRef ∨ (x : Int) - s.engine.restRef < -(s.cfg.a : Int)
    let moved : State := { s with engine := { s.engine with travel := x } }
    ∃ t, exec (.countEvent up) s = .next t ∧ t.outer = { s.outer with travel := x } ∧
      (s.engine.jog = .none → ¬ crept → Quiet s → t.inner = moved.inner) ∧
      (s.engine.jog = .none → crept →
        t.fault .drift = recordAfter moved .drift (s.active .drift) none ∧
        t.engine.restRef = x ∧
        t.mode = (if s.mode = .rollcall ∨ s.mode = .barred then s.mode else .halted)) ∧
      (s.engine.jog ≠ .none → Quiet s →
        ((s.engine.jog = .up ∧ x = 240000) ∨ (s.engine.jog = .down ∧ x = 0) →
          t.engine.jog = .none ∧ t.engine.source = .stroke ∧ t.engine.restRef = x ∧
            (s.engine.stroke = .rest → t.engine.drive = .off) ∧
            (s.engine.jog = .down → s.pawl.state = .withdrawn → t.pawl.state = .setting)) ∧
        (¬ ((s.engine.jog = .up ∧ x = 240000) ∨ (s.engine.jog = .down ∧ x = 0)) →
          t.inner = moved.inner))

/-- The expiry of the stroke time limit while a stroke runs aborts it with STALL, and the station halts with a HALT
frame (R134, R135, R177). -/
def Obligations.StrokeTimeLimit : Prop :=
  ∀ (s : State) (r : Stroke) (n : Nat),
    s.engine.stroke = .running r n → due s.timeBase s.engine.limit = true →
    ∃ t, exec .strokeTimeLimitExpiry s = .next t ∧ t.outer = s.outer ∧
      t.fault .stall = recordAfter s .stall (s.active .stall) none ∧ OtherFaultsKept s t .stall ∧
      t.engine.stroke = .rest ∧ t.engine.limit = none ∧ t.engine.restRef = s.engine.travel ∧
      t.engine.lastDir = r.dir ∧ t.engine.lastEnd = ⟨s.timeBase, false⟩ ∧
      (MotionSafe s → t.engine.drive = .off) ∧
      t.mode = (if s.mode = .rollcall ∨ s.mode = .barred then s.mode else .halted) ∧
      t.line.haltSlot =
        some (s.line.haltSlot.getD ⟨kindHalt, 0, BitVec.ofNat 6 s.own, [3#8]⟩)

/-- At the reversal dwell expiry a station in MOVING at REST, its column in band, evaluates. With the preconditions of
its class passed it is offered a TAIL, FULL or CHOP by distance and room, or waits with reason LEAD; a lowering
station with a nudge due is offered the nudge, and one with none due and its pawl SET asks for the pawl to be
withdrawn; a nudge of length 0 is no longer due, and the lowering class is evaluated at once. A station taking up is
offered a contact stroke of length L, or at the top of the screw's travel reports TRAVEL_LIMIT and holds. The first
precondition that fails gives reason PEERS, PAWL or DWELL, and the wait stamp follows the reason. An evaluation with
direction lower, no nudge due and lowering-ready sets the lowering-release flag (R95). While stage control waits for
the pawl to be SET, the outcome is ARRIVED and the reason NONE. Outside MOVING and SETTLED the expiry changes the
compare alone (R87, R90, R92, R94, R96, R97, R98, R99, R100, R101, R191). -/
def Obligations.EvaluationAtDwell : Prop :=
  ∀ s : State, due s.timeBase s.engine.dwell = true →
    let s' : State := { s with engine := { s.engine with dwell := none } }
    ∃ t, exec .reversalDwellExpiry s = .next t ∧ t.outer = s.outer ∧
      (Quiet s → t.inner = s'.inner) ∧
      (∀ (r : StagedRec) (h : Int),
        s.mode = .moving → s.engine.stroke = .rest → s.stage.awaitingSet = false → InBand s →
        s.stage.record = .staged r → s.lift = some h → s.stage.dir ≠ .none →
        let lowers : Bool := s.stage.dir == .lower
        let d : Int := if lowers then h - r.effTarget else r.effTarget - h
        let g : Int := if lowers then h - leadFloor s r else leadCeiling s r - h
        let nudge : Bool := lowers && s.ceiling.nudgeDue
        let len : Nat := min s.cfg.n (240000 - s.engine.travel)
        let dir : Direction := if lowers && !nudge then .lower else .raise
        let released : Bool := s.ceiling.release || loweringReady s
        let peers : Prop :=
          allLive s = true ∧ peerFault s = false ∧ anyHold s = false ∧ anyHalted s = false ∧
            (dir = .lower → released = true)
        let pawl : Prop := s.pawl.state = if dir = .lower then .withdrawn else .set
        let asks : Prop :=
          dir = .lower ∧ s.pawl.state = .set ∧ allLive s = true ∧ peerFault s = false ∧
            anyHold s = false ∧ anyHalted s = false
        let dwell : Prop :=
          s.engine.lastDir = .none ∨ s.engine.lastDir = dir ∨ s.engine.lastEnd.expired = true ∨
            10 * s.cfg.trev ≤ (s.timeBase - s.engine.lastEnd.value).toNat
        let offers : StrokeKind → Nat → Prop := fun kind length =>
          let stop : Int := if dir = .lower then h - length else h + length
          t.ceiling.reason = .spacing ∧
            t.ceiling.outcome =
              .offer
                { kind := kind, dir := dir, start := h, stop := some stop
                  final :=
                    kind != .nudge &&
                      (-(s.cfg.a : Int) ≤ r.effTarget - stop && r.effTarget - stop ≤ s.cfg.a)
                  stage := r.stage, length := length }
        let waits : WaitReason → Prop := fun why =>
          t.ceiling.outcome = .wait ∧ t.ceiling.reason = why ∧ t.spacing.offer = none
        (d ≤ s.cfg.a → t.ceiling.outcome = .arrived ∧ t.ceiling.reason = .none) ∧
        t.ceiling.release = (s.ceiling.release || (lowers && !s.ceiling.nudgeDue && loweringReady s)) ∧
        WaitTimed s t ∧
        ((s.cfg.a : Int) < d → asks → MotionSafe s →
          t.pawl.state = .withdrawing ∧ t.pawl.commanded = .withdrawn ∧
            waits (if s.ceiling.release then .pawl else .peers)) ∧
        ((s.cfg.a : Int) < d → ¬ asks → ¬ peers → waits .peers) ∧
        ((s.cfg.a : Int) < d → ¬ asks → peers → ¬ pawl → waits .pawl) ∧
        ((s.cfg.a : Int) < d → peers → pawl → ¬ dwell → waits .dwell) ∧
        ((s.cfg.a : Int) < d → peers → pawl → dwell → nudge = false →
          (d ≤ s.cfg.l → d ≤ g → offers .tail d.toNat) ∧
          (¬ (d ≤ s.cfg.l ∧ d ≤ g) → (s.cfg.l : Int) ≤ g → offers .full s.cfg.l) ∧
          (¬ (d ≤ s.cfg.l ∧ d ≤ g) → g < s.cfg.l → (s.settings.chop : Int) ≤ g →
            offers .chop s.settings.chop) ∧
          (¬ (d ≤ s.cfg.l ∧ d ≤ g) → g < s.cfg.l → g < s.settings.chop → waits .lead)) ∧
        ((s.cfg.a : Int) < d → peers → pawl → dwell → nudge = true → 0 < len →
          (nudgeFits s (h + len) = true → offers .nudge len) ∧
          (nudgeFits s (h + len) = false → waits .lead)) ∧
        ((s.cfg.a : Int) < d → peers → pawl → dwell → nudge = true → len = 0 → MotionSafe s →
          t.ceiling.nudgeDue = false ∧ t.pawl.state = .withdrawing ∧
            t.pawl.commanded = .withdrawn ∧ waits (if s.ceiling.release then .pawl else .peers))) ∧
      (∀ r : StagedRec,
        s.mode = .moving → s.engine.stroke = .rest → s.stage.awaitingSet = true →
        s.pawl.state ≠ .set → InBand s → s.stage.record = .staged r →
        t.mode = .moving ∧ t.stage = s.stage ∧ t.pawl = s.pawl ∧ t.ceiling.outcome = .arrived ∧
          t.ceiling.reason = .none ∧ t.spacing.offer = none) ∧
      (s.mode = .moving → s.engine.stroke = .rest → s.stage.awaitingSet = false →
        s.stage.record = .unstaged →
        let x := s.engine.travel
        let peers : Prop :=
          allLive s = true ∧ peerFault s = false ∧ anyHold s = false ∧ anyHalted s = false
        let dwell : Prop :=
          s.engine.lastDir = .none ∨ s.engine.lastDir = .raise ∨ s.engine.lastEnd.expired = true ∨
            10 * s.cfg.trev ≤ (s.timeBase - s.engine.lastEnd.value).toNat
        let waits : WaitReason → Prop := fun why =>
          t.ceiling.outcome = .wait ∧ t.ceiling.reason = why ∧ t.spacing.offer = none
        (240000 ≤ x → t.mode = .hold ∧ t.ceiling.outcome = .idle ∧ t.spacing.offer = none ∧
          t.fault .travelLimit = recordAfter s .travelLimit (s.active .travelLimit) none ∧
          t.modeCtl.lastStop =
            some ⟨.hold, .fault, some .travelLimit, none, ⟨s.timeBase, false⟩⟩) ∧
        (x < 240000 → WaitTimed s t ∧
          (¬ peers → waits .peers) ∧
          (peers → s.pawl.state ≠ .set → waits .pawl) ∧
          (peers → s.pawl.state = .set → ¬ dwell → waits .dwell) ∧
          (peers → s.pawl.state = .set → dwell →
            t.ceiling.reason = .spacing ∧
              t.ceiling.outcome =
                .offer
                  { kind := .contact, dir := .raise, start := x, stop := none, final := false
                    stage := .stage 0, length := s.cfg.l })))

/-- Whenever a staged station in MOVING at REST evaluates, a raising or lowering stroke that it is given to claim ends
between the lift and the effective target, and no further from any LIVE staged peer's lift than the effective set
lead, nor from one of its own car group than the effective car lead; each of these leads is at least L when the values
in force keep their order. L and C are above 0, as every start leaves them. The effective leads are those of R88's
table: toward a plan stage, whose entry k − 1 may carry either lead, the set lead held in L to 8000 and the car lead,
or CL, held in L to SL_eff, and SL and CL toward any other; the ceiling and the floor are those of R89, and a floor is
the least or greatest lift of a LIVE staged peer (R25, R63, R66, R74, R88, R89, R92, R99, R103). -/
def Obligations.OfferWithinLeads : Prop :=
  (∀ (s : State) (k : StageIx),
    let held : Nat → Nat → Nat → Nat := fun low high v =>
      if v < low then low else if high < v then high else v
    (∀ (j : Nat) (e : PlanEntry), k = .stage (j + 1) → s.plan.active[j]? = some e →
      setLeadEff s k = (match e.setLead with | some v => held s.cfg.l 8000 v | none => s.cfg.sl) ∧
      carLeadEff s k =
        held s.cfg.l (setLeadEff s k) (match e.carLead with | some v => v | none => s.cfg.cl)) ∧
    (k = .stage 0 ∨ k = .setdown → setLeadEff s k = s.cfg.sl ∧ carLeadEff s k = s.cfg.cl)) ∧
  (∀ (s : State) (r : StagedRec) (z : Int),
    let peer : Bool → Int → Prop := fun ownCar x =>
      ∃ q ∈ peerRows s, q.marks.live = .live ∧ q.report.lift = some x ∧
        (ownCar = true → q.fixed.car = s.straps.car.val)
    (z ≤ leadCeiling s r ↔
      z ≤ r.effTarget ∧ (∀ x, peer true x → z ≤ x + carLeadEff s r.stage) ∧
        ∀ x, peer false x → z ≤ x + setLeadEff s r.stage) ∧
    (leadFloor s r ≤ z ↔
      r.effTarget ≤ z ∧ (∀ x, peer true x → x - carLeadEff s r.stage ≤ z) ∧
        ∀ x, peer false x → x - setLeadEff s r.stage ≤ z) ∧
    (nudgeFits s z = true ↔
      (∀ x, peer true x → z ≤ x + s.cfg.cl) ∧ ∀ x, peer false x → z ≤ x + s.cfg.sl)) ∧
  ∀ (s : State) (r : StagedRec) (o : Stroke) (z : Int),
    s.mode = .moving → s.engine.stroke = .rest → s.stage.record = .staged r →
    (evaluate s).spacing.offer = some o → o.stop = some z → 0 < s.cfg.l → 0 < s.settings.chop →
    (s.cfg.l ≤ s.cfg.cl ∧ s.cfg.cl ≤ s.cfg.sl ∧ s.cfg.l ≤ 8000 →
      s.cfg.l ≤ carLeadEff s r.stage ∧ carLeadEff s r.stage ≤ setLeadEff s r.stage) ∧
    (o.kind ≠ .nudge → o.dir = .raise → o.start < z ∧ z ≤ r.effTarget) ∧
    (o.dir = .lower → z < o.start ∧ r.effTarget ≤ z) ∧
    (∀ q ∈ peerRows s, ∀ x : Int, q.marks.live = .live → q.report.lift = some x →
      let sl : Int := if o.kind = .nudge then s.cfg.sl else setLeadEff s r.stage
      let cl : Int := if o.kind = .nudge then s.cfg.cl else carLeadEff s r.stage
      (o.dir = .raise → z ≤ x + sl) ∧ (o.dir = .lower → x - sl ≤ z) ∧
      (q.fixed.car = s.straps.car.val →
        (o.dir = .raise → z ≤ x + cl) ∧ (o.dir = .lower → x - cl ≤ z)))

/-! ### The pawl, the load and contact -/

/-- A change of a pawl switch is stored and taken by the pawl state: a movement completes when the switch at its
destination closes with the other open, an event that contradicts the state at rest, both switches closed at a
destination, or the time limit's expiry during a movement makes the pawl STUCK, and any other event changes the
stored level alone. STUCK reports PAWL_STUCK, which halts the station where it has a table and fills the HALT slot.
In MOVING, SET hands over an arrival that waits for it, and WITHDRAWN clears nudge-due (R82, R84, R97, R142, R145,
R146, R147, R173, R177). -/
def Obligations.PawlMoves : Prop :=
  ∀ (s : State),
    let stuck : State → Prop := fun t =>
      t.pawl.state = .stuck ∧ t.pawl.pendingWithdraw = false ∧
        t.fault .pawlStuck = recordAfter s .pawlStuck (s.active .pawlStuck) none ∧
        t.mode = (if s.mode = .rollcall ∨ s.mode = .barred then s.mode else .halted) ∧
        t.line.haltSlot =
          some (s.line.haltSlot.getD ⟨kindHalt, 0, BitVec.ofNat 6 s.own, [5#8]⟩)
    (∀ closed : Bool, s.pawl.setClosed ≠ closed →
      let other : Bool := s.pawl.withdrawnClosed
      ∃ t, exec (.switchEvent .set closed) s = .next t ∧
        t.outer = { s.outer with setClosed := closed } ∧
        ((s.pawl.state = .set ∧ closed = false) ∨ (s.pawl.state = .withdrawn ∧ closed = true) ∨
            (s.pawl.state = .setting ∧ closed = true ∧ other = true) → stuck t) ∧
        (s.pawl.state = .setting → closed = true → other = false → Quiet s ∨ s.mode = .settled →
          (s.pawl.pendingWithdraw = false ∨ s.engine.jog ≠ .downWait →
            t.pawl.state = .set ∧ t.pawl.limit = none) ∧
          (s.pawl.pendingWithdraw = true → s.engine.jog = .downWait →
            t.pawl.state = .withdrawing ∧ t.pawl.commanded = .withdrawn)) ∧
        (s.pawl.state = .setting → closed = true → other = false → s.mode = .moving →
          s.pawl.pendingWithdraw = false →
          (s.stage.awaitingSet = false → s.stage.dir ≠ .lower →
            t.pawl.state = .set ∧ t.pawl.limit = none) ∧
          (∀ r, s.stage.awaitingSet = true → s.stage.record = .staged r → InBand s →
            t.pawl.state = .set ∧ t.pawl.limit = none ∧
              if r.stage = .setdown then
                t.mode = .unstaged ∧ t.stage = ⟨.unstaged, .none, false⟩ ∧ t.lift = none ∧
                  t.retained.content = ⟨none, .none, s.plan.active⟩ ∧
                  t.ceiling.nudgeDue = false
              else
                (t.mode = .settled ∨ t.mode = .idle) ∧
                  t.stage = { s.stage with awaitingSet := false })) ∧
        (s.pawl.state = .withdrawing ∨ s.pawl.state = .stuck ∨
            (s.pawl.state = .set ∧ closed = true) ∨
            ((s.pawl.state = .withdrawn ∨ s.pawl.state = .setting) ∧ closed = false) →
          Calm s →
          t.inner = { s.inner with pawl := { s.pawl with setClosed := closed } })) ∧
    (∀ closed : Bool, s.pawl.withdrawnClosed ≠ closed →
      let other : Bool := s.pawl.setClosed
      ∃ t, exec (.switchEvent .withdrawn closed) s = .next t ∧
        t.outer = { s.outer with withdrawnClosed := closed } ∧
        ((s.pawl.state = .set ∧ closed = true) ∨ (s.pawl.state = .withdrawn ∧ closed = false) ∨
            (s.pawl.state = .withdrawing ∧ closed = true ∧ other = true) → stuck t) ∧
        (s.pawl.state = .withdrawing → closed = true → other = false → Quiet s →
          t.pawl.state = .withdrawn ∧ t.pawl.limit = none ∧ t.ceiling.nudgeDue = false ∧
            t.engine.jog =
              (if s.engine.jog = .downWait ∧ s.pendant.levels.jogDown = true then .down
               else s.engine.jog)) ∧
        (∀ r, s.pawl.state = .withdrawing → closed = true → other = false → s.mode = .moving →
          s.stage.record = .staged r → InBand s →
          t.mode = .moving ∧ t.pawl.state = .withdrawn ∧ t.pawl.limit = none ∧
            t.ceiling.nudgeDue = false ∧ t.stage = s.stage) ∧
        (s.pawl.state = .setting ∨ s.pawl.state = .stuck ∨
            (s.pawl.state = .withdrawn ∧ closed = true) ∨
            ((s.pawl.state = .set ∨ s.pawl.state = .withdrawing) ∧ closed = false) →
          Calm s →
          t.inner = { s.inner with pawl := { s.pawl with withdrawnClosed := closed } })) ∧
    (due s.timeBase s.pawl.limit = true →
      s.pawl.state = .withdrawing ∨ s.pawl.state = .setting →
      ∃ t, exec .pawlTimeLimitExpiry s = .next t ∧ t.outer = s.outer ∧ stuck t ∧
        t.pawl.limit = none)

/-- A reading becomes the present reading, with the over-range flag at 4095. One above W_r after one at or below it is
an OVERLOAD, which halts the station where it has a table; one at or below it ends the condition. One of W_c or more
ends a jog up. A stroke in band runs on, and one below W_c during a contact stroke leaves the contact watch armed. A
staged LIVE station that stays in SETTLED and whose car group carries W_min or more compares its part
of the load with its share: it reports LOAD_SHARE when it leaves the band, reports nothing new when it goes from over
to under or back, and ends the condition when it is back in band; one in MOVING goes to HOLD with LOAD_SHARE, where
the check is not active and the condition ends (R64, R138, R154, R155, R157, R160, R161, R162, R163, R175). -/
def Obligations.LoadReading : Prop :=
  ∀ (s : State) (v : Fin 4096), s.loadMon.watch = false ∨ v.val < s.cfg.wc →
    let above : Bool := s.cfg.wr < v.val
    let u : State :=
      { s with loadMon := { s.loadMon with present := v.val, overRange := v.val == 4095 } }
    ∃ t, exec (.loadReading v) s = .next t ∧
      t.outer =
        { s.outer with present := v.val, overRange := v.val == 4095, above := above } ∧
      t.fault .overload =
        (if above = true ∧ s.loadMon.above = false then recordAfter s .overload true none
         else if above = false ∧ s.loadMon.above = true then
           { s.fault .overload with active := false }
         else s.fault .overload) ∧
      (above = true → s.loadMon.above = false →
        t.mode = (if s.mode = .rollcall ∨ s.mode = .barred then s.mode else .halted) ∧
        t.line.haltSlot =
          some (s.line.haltSlot.getD ⟨kindHalt, 0, BitVec.ofNat 6 s.own, [1#8]⟩) ∧
        (MotionSafe s → t.engine.drive = .off)) ∧
      (s.engine.jog = .up → s.cfg.wc ≤ v.val → t.engine.jog = .none ∧
        (s.engine.stroke = .rest → t.engine.drive = .off)) ∧
      (¬ (above = true ∧ s.loadMon.above = false) →
        ¬ (s.engine.jog = .up ∧ s.cfg.wc ≤ v.val) → Quiet s →
        t.inner = { s.inner with faults := t.inner.faults } ∧ OtherFaultsKept s t .overload) ∧
      (∀ r n, s.engine.stroke = .running r n → s.mode = .moving → s.stage.awaitingSet = false → InBand u →
        ¬ (above = true ∧ s.loadMon.above = false) → ¬ (s.engine.jog = .up ∧ s.cfg.wc ≤ v.val) →
        t.inner = { s.inner with faults := t.inner.faults } ∧ OtherFaultsKept s t .overload) ∧
      (s.mode = .settled → s.lift.isSome = true →
        selfLive s = true → s.cfg.wmin ≤ totalW u → above = false → t.mode = .settled →
        let was : Bool := s.loadMon.share = .over ∨ s.loadMon.share = .under
        let out : FaultRec :=
          if was then s.fault .loadShare else recordAfter s .loadShare true none
        let own : Nat := 16 * v.val * totalU u
        let part : Nat := s.straps.share.val * totalW u
        (t.loadMon.totalW, t.loadMon.totalU, t.loadMon.totalN) = (totalW u, totalU u, totalN u) ∧
        ((16 + s.cfg.b) * part < own →
          t.loadMon.share = .over ∧ t.fault .loadShare = out) ∧
        (own < (16 - s.cfg.b) * part → ¬ (16 + s.cfg.b) * part < own →
          t.loadMon.share = .under ∧ t.fault .loadShare = out) ∧
        (¬ (16 + s.cfg.b) * part < own → ¬ own < (16 - s.cfg.b) * part →
          t.loadMon.share = .inBand ∧
            t.fault .loadShare =
              if was then { s.fault .loadShare with active := false } else s.fault .loadShare)) ∧
      (s.mode = .moving → s.lift.isSome = true → selfLive s = true → s.cfg.wmin ≤ totalW u →
        above = false → s.loadMon.share = .inactive ∨ s.loadMon.share = .inBand →
        (16 + s.cfg.b) * (s.straps.share.val * totalW u) < 16 * v.val * totalU u ∨
          16 * v.val * totalU u < (16 - s.cfg.b) * (s.straps.share.val * totalW u) →
        t.mode = .hold ∧ t.loadMon.share = .inactive ∧
          t.fault .loadShare = recordAfter s .loadShare false none ∧
          t.modeCtl.lastStop =
            some ⟨.hold, .fault, some .loadShare, none, ⟨s.timeBase, false⟩⟩)

/-- A reading of W_c or more during a contact stroke captures contact: the stroke ends, and the station is staged at
stage 0 with the present travel as contact zero, handed to settings memory; in MOVING, raising, it settles. When the
same reading begins OVERLOAD the station is halted either way, and whether contact is captured first is left free
(R77, R81, R130, R157, R159; assumption 10). -/
def Obligations.ContactCapture : Prop :=
  ∀ (s : State) (v : Fin 4096) (r : Stroke) (n : Nat),
    s.engine.stroke = .running r n → r.kind = .contact → r.dir = .raise → s.loadMon.watch = true →
    s.cfg.wc ≤ v.val → s.stage.record = .unstaged → s.stage.awaitingSet = false →
    let captured : State → Prop := fun t =>
      t.stage.record = .staged ⟨s.engine.travel, .stage 0, 0, 0, false⟩ ∧ t.lift = some 0 ∧
        t.retained.content = ⟨some ⟨s.engine.travel, .stage 0⟩, s.stage.dir, s.plan.active⟩
    ∃ t, exec (.loadReading v) s = .next t ∧
      t.engine.stroke = .rest ∧ t.engine.limit = none ∧ t.loadMon.watch = false ∧
      t.engine.restRef = s.engine.travel ∧ t.engine.lastDir = .raise ∧
      t.engine.lastEnd = ⟨s.timeBase, false⟩ ∧
      (v.val ≤ s.cfg.wr ∨ s.loadMon.above = true →
        captured t ∧ t.openOrders = s.openOrders ∧
          (s.mode = .moving → s.stage.dir = .raise → t.mode = .settled ∨ t.mode = .idle)) ∧
      (s.cfg.wr < v.val → s.loadMon.above = false →
        t.openOrders = s.openOrders + 1 ∧
          t.mode = (if s.mode = .rollcall ∨ s.mode = .barred then s.mode else .halted) ∧
          t.latched .overload = true ∧ t.active .overload = true ∧
          (Config.contactBeforeHalt s.openOrders = true → captured t) ∧
          (Config.contactBeforeHalt s.openOrders = false →
            s.mode ≠ .rollcall → s.mode ≠ .barred → s.mode ≠ .halted →
            t.stage.record = .unstaged))

/-! ### The pendant -/

/-- A press of UP, DOWN, STOP or RESUME with the key on, in a mode that has a table, queues its ORDER frame, or is
counted as discarded when the queue holds 4; any other press, and a release, changes the level alone (R11, R184,
R185). -/
def Obligations.OrderButtonQueues : Prop :=
  ∀ (s : State) (b : OrderButton) (pressed : Bool), buttonLevel s b ≠ pressed →
    let takes : Prop :=
      pressed = true ∧ s.pendant.levels.key = true ∧ s.mode ≠ .rollcall ∧ s.mode ≠ .barred
    let code : Byte := match b with | .up => 0 | .down => 1 | .stop => 2 | .resume => 3
    let level : Outer :=
      { s.outer with
        pendant := { s.pendant with levels := withButton b pressed s.pendant.levels } }
    ∃ t, exec (.orderButtonPress b pressed) s = .next t ∧ (Calm s → t.inner = s.inner) ∧
      (takes → s.line.orderQueue.length < 4 →
        t.outer =
          { level with
            orderQueue :=
              s.line.orderQueue ++ [⟨kindOrder, 0, BitVec.ofNat 6 s.own, [code]⟩] }) ∧
      (takes → 4 ≤ s.line.orderQueue.length →
        t.outer =
          { level with
            pendant :=
              ⟨withButton b pressed s.pendant.levels, oneMore 65535 s.pendant.discards⟩ }) ∧
      (¬ takes → t.outer = level)

/-- Jog. In UNSTAGED, with the key on, the stroke engine at REST, no jog in progress and the other button not held, a
press of JOG UP below W_c and travel 240,000 runs the motor up, and a press of JOG DOWN above travel 0 runs it down
if the pawl is WITHDRAWN, else waits and commands the pawl withdrawn. A release, the other button or the key turned
off ends the jog: drive off, and after a jog down the pawl commanded SET. Any other press, release or turn of the
key changes the level alone (R137, R138, R139, R140, R143, R144, R184). -/
def Obligations.JogRunsAndEnds : Prop :=
  ∀ (s : State) (c : Instr), s.engine.stroke = .rest →
    let l := s.pendant.levels
    let free : Prop := s.mode = .unstaged ∧ l.key = true ∧ s.engine.jog = .none
    let levels : Option PendantLevels :=
      match c with
      | .jogUpPress => if l.jogUp then none else some { l with jogUp := true }
      | .jogDownPress => if l.jogDown then none else some { l with jogDown := true }
      | .jogUpRelease => if l.jogUp then some { l with jogUp := false } else none
      | .jogDownRelease => if l.jogDown then some { l with jogDown := false } else none
      | .keySwitch on => if l.key = on then none else some { l with key := on }
      | _ => none
    let up : Prop :=
      c = .jogUpPress ∧ free ∧ l.jogDown = false ∧ s.loadMon.present < s.cfg.wc ∧
        s.engine.travel < 240000
    let down : Prop :=
      c = .jogDownPress ∧ free ∧ l.jogUp = false ∧ 0 < s.engine.travel
    let lowering : Prop := s.engine.jog = .down ∨ s.engine.jog = .downWait
    let ends : Prop :=
      (c = .jogUpRelease ∧ s.engine.jog = .up) ∨ (c = .jogDownRelease ∧ lowering) ∨
        (c = .jogUpPress ∧ lowering) ∨ (c = .jogDownPress ∧ s.engine.jog = .up) ∨
        (c = .keySwitch false ∧ s.engine.jog ≠ .none)
    ∀ new, levels = some new →
    ∃ t, exec c s = .next t ∧
      t.outer = { s.outer with pendant := { s.pendant with levels := new } } ∧
      (up → t.inner =
        { s.inner with engine := { s.engine with jog := .up, source := .jog, drive := .runUp } }) ∧
      (down → s.pawl.state = .withdrawn → t.inner =
        { s.inner with engine := { s.engine with jog := .down, source := .jog, drive := .runDown } }) ∧
      (down → s.pawl.state = .set →
        t.engine = { s.engine with jog := .downWait, source := .jog, drive := .off } ∧
          t.pawl =
            { s.pawl with
              state := .withdrawing, commanded := .withdrawn
              limit := some (s.timeBase + BitVec.ofNat 32 (10 * s.cfg.tpw)) }) ∧
      (ends → Quiet s →
        t.engine =
          { s.engine with
            jog := .none, source := .stroke, drive := .off, restRef := s.engine.travel } ∧
        (lowering → t.pawl.commanded = .set ∨ s.pawl.state = .set ∨ s.pawl.state = .setting) ∧
        (lowering → s.pawl.state = .withdrawn → t.pawl.state = .setting) ∧
        (lowering → s.pawl.state = .withdrawing →
          t.pawl.state = if s.pawl.setClosed then .set else .setting)) ∧
      (¬ up → ¬ down → ¬ ends → Calm s → t.inner = s.inner)

/-! ### Settings memory, stamps and the service port -/

/-- At a write completion the record holds, with a valid marker, the content that the write began with; with rewrite
owed it is cleared and a new write of the present content begins at once, its marker invalid until it ends, and else
the write state is IDLE (R41, R43). -/
def Obligations.WriteCompletes : Prop :=
  ∀ (s : State) (c : RetContent), s.retained.writing = some c →
    ∃ t, exec .writeCompletion s = .next t ∧ t.outer = s.outer ∧
      (Calm s → t.inner =
        { s.inner with
          retained :=
            { s.retained with
              record := c
              marker := !s.retained.rewriteOwed
              writing := if s.retained.rewriteOwed then some s.retained.content else none
              rewriteOwed := false } })

/-- STAMP_EXPIRED sets the expired mark of the stamp named, once its age exceeds 100,000 units, and of no other
(R20); before that age it does nothing (assumption 3), and the stamps of the refused order, of the last stop and of
the first-occurrence records are marked like the rest (assumption 27). WAITING_LONG takes effect when the wait reason
is not NONE and the wait stamp is expired or at least 2 s old, and lights the amber lamp in MOVING (R191). Neither
changes anything else. -/
def Obligations.StampsAndWaits : Prop :=
  (∀ (s : State) (ref : StampRef), Calm s →
    ∃ t, exec (.stampExpired ref) s = .next t ∧
      (∀ st, stampOf s ref = some st →
        stampOf t ref =
          some (if 100000 < (s.timeBase - st.value).toNat then ⟨st.value, true⟩ else st)) ∧
      (∀ other, other ≠ ref → stampOf t other = stampOf s other) ∧
      t.unstamped.outer = s.unstamped.outer ∧ t.unstamped.inner = s.unstamped.inner) ∧
  (∀ s : State, s.notice = false → s.ceiling.reason ≠ .none →
    s.lamps.waitStamp.expired = true ∨ 20000 ≤ (s.timeBase - s.lamps.waitStamp.value).toNat →
    ∃ t, exec .waitingLong s = .next t ∧ t.outer = s.outer ∧ t.inner = s.inner ∧
      t.ceiling = s.ceiling ∧ t.spacing = s.spacing ∧ t.loadMon = s.loadMon ∧
      t.faults = s.faults ∧ t.lamps.waitingLong = true ∧
      (s.mode = .moving → t.lamps.shown = .amberSteady))

/-- A request record that arrives whole while the port hunts and sends nothing is taken at once, and its reply
record is sent: STATUS, PEER, READ FAULTS, PLAN READ and SETTINGS READ reply with what the station shows at that
moment, field by field in the order of R189, R46 and R188, and change nothing else but, at READ FAULTS, the snapshot
counts (R183, R186, R187). Numbers, ages, flags and fields that may be absent are encoded as R188 has them, and named
values by the codes of R6 or by their places in the lists of R46, R121, R160, R165 and R168. The orders, widths and
presence bytes that R188 leaves open are assumption 20, the code of a stop record's mode is assumption 39; which place
is sent of an ENCODER record that holds the lift and the travel stays free (assumption 35). -/
def Obligations.ServiceReads : Prop :=
  ∀ (s : State), s.service.collecting = none → s.service.gap = none → s.service.sending = none →
    let num : Nat → List Byte := fun n => [BitVec.ofNat 8 n]
    let flag : Bool → List Byte := fun b => [if b then 1 else 0]
    let lift : Option Int → List Byte := fun o =>
      match o with
      | none => [0]
      | some h => 1 :: beInt24 h
    let small : Option Nat → List Byte := fun o =>
      match o with
      | none => [0]
      | some n => [1, BitVec.ofNat 8 n]
    let lead : Option Nat → List Byte := fun o =>
      match o with
      | none => [0]
      | some n => 1 :: be16 n
    let stamp : Stamp → List Byte := fun st => be32 st.value.toNat
    let age : Stamp → List Byte := fun st =>
      be16 (if st.expired then 65535 else (s.timeBase - st.value).toNat / 10)
    let staged : Option StagedRec :=
      match s.stage.record with
      | .staged r => some r
      | _ => none
    let held : Option RetStage :=
      match s.stage.record with
      | .staged r => some ⟨r.contactZero, r.stage⟩
      | .restored r => some r
      | .unstaged => none
    let status : List Byte :=
      num (modeCode s.mode) ++ flag s.modeCtl.rejoined
        ++ (match s.modeCtl.lastRefused with
            | none => [0]
            | some r =>
              1 :: (num (match r.kind with | .advance => 0 | .retreat => 1 | .resume => 3 | .adopt => 4)
                ++ num (refusalCode r.reason) ++ num r.originator ++ stamp r.stamp))
        ++ (match s.modeCtl.lastStop with
            | none => [0]
            | some r =>
              1 :: (num (modeCode r.entered)
                ++ num (match r.origin with
                  | .stopOrder => 0 | .fault => 1 | .haltFrame => 2 | .contagion => 3)
                ++ small (r.kind.map fun k => (faultCode k).val) ++ small r.station ++ stamp r.stamp))
        ++ flag held.isSome ++ small (held.map fun r => stageCode r.stage) ++ num (dirCode s.stage.dir)
        ++ lift (staged.map (·.target)) ++ lift (staged.map (·.effTarget))
        ++ (match held with
            | none => [0]
            | some r => 1 :: be24 r.contactZero)
        ++ be24 s.engine.travel ++ lift (staged.map fun r => (s.engine.travel : Int) - r.contactZero)
        ++ num (match s.engine.drive with | .runUp => 0 | .runDown => 1 | .off => 2)
        ++ num (match s.engine.source with | .stroke => 0 | .jog => 1) ++ num (pawlCode s.pawl.state)
        ++ be16 s.loadMon.present ++ flag s.loadMon.overRange
        ++ num (match s.loadMon.share with | .inactive => 0 | .inBand => 1 | .over => 2 | .under => 3)
        ++ be24 s.loadMon.totalW ++ be16 s.loadMon.totalU ++ num s.loadMon.totalN
        ++ num (reasonCode s.ceiling.reason) ++ num s.spacing.withdrawals
        ++ num (match s.engine.stroke with | .running r _ => dirCode r.dir | _ => 0)
        ++ be16 s.plan.tag ++ be16 s.settings.tag ++ flag s.settings.adjusted
        ++ be16 s.line.badFrames ++ be16 s.line.discarded ++ num s.line.failures
        ++ be16 s.pendant.discards
        ++ flag s.pendant.levels.up ++ flag s.pendant.levels.down ++ flag s.pendant.levels.stop
        ++ flag s.pendant.levels.resume ++ flag s.pendant.levels.jogUp
        ++ flag s.pendant.levels.jogDown ++ flag s.pendant.levels.key
        ++ flag s.pendant.levels.emergencyClosed
        ++ flag s.pawl.setClosed ++ flag s.pawl.withdrawnClosed ++ be32 s.timeBase.toNat
    let peer : Row → List Byte := fun r =>
      num r.fixed.number ++ num r.fixed.car ++ num r.fixed.feeder ++ num r.fixed.share
        ++ be32 r.fixed.serial.toNat ++ num (modeCode r.report.mode) ++ lift r.report.lift
        ++ num (dirCode r.report.flight) ++ lift r.report.committedEnd ++ be16 r.report.load
        ++ num (pawlCode r.report.pawl) ++ small (r.report.stage.map stageCode)
        ++ num (dirCode r.report.dir) ++ be16 r.report.planTag ++ be16 r.report.faults.toNat
        ++ flag r.report.rejoined ++ num (match r.marks.live with | .live => 0 | .lost => 1)
        ++ age r.marks.lastHeard ++ age r.marks.lastClaim
    let faults : List Byte :=
      allKinds.flatMap fun k =>
        flag (s.latched k) ++ flag (conditionKind k && s.active k) ++ num (s.fault k).count
          ++ match (s.fault k).first with
             | none => [0]
             | some o =>
               1 :: (stamp o.stamp
                 ++ (match o.place with
                     | .lift h => beInt24 h ++ [0]
                     | .travel x => beInt24 x ++ [1]
                     | .liftAndTravel h x =>
                       if Config.encoderReplyLift then beInt24 h ++ [0] else beInt24 x ++ [1])
                 ++ small o.peer)
    let entry : PlanEntry → List Byte := fun e => be24 e.target ++ lead e.carLead ++ lead e.setLead
    let settings : List Byte :=
      ((List.finRange 20).flatMap fun k =>
        be16 s.settings.stored[k].value ++
          be16 ([s.cfg.m, s.cfg.cl, s.cfg.sl, s.cfg.l, s.cfg.a, s.cfg.n, s.cfg.d, s.cfg.gl, s.cfg.gs,
            s.cfg.p, s.cfg.s, s.cfg.tst, s.cfg.tpw, s.cfg.trev, s.cfg.wc, s.cfg.wr, s.cfg.b,
            s.cfg.wmin, s.cfg.rq, s.cfg.rmax].getD k.val 0))
        ++ be16 s.settings.tag ++ flag s.settings.adjusted
    let replies : State → Nat → List Byte → Prop := fun t kind bytes =>
      t.outer =
        { s.outer with
          service := { s.service with sending := some (recordOf (kind + 128) bytes) } }
    (∃ t, exec (.status (recordOf 1 [])) s = .next t ∧ replies t 1 (0 :: status) ∧
      (Calm s → t.inner = s.inner)) ∧
    (∀ n : Byte, ∃ t, exec (.peer (recordOf 2 [n])) s = .next t ∧ (Calm s → t.inner = s.inner) ∧
      (47 < n.toNat → replies t 2 [2]) ∧
      (n.toNat ≤ 47 → rowOf s n.toNat = none → replies t 2 [3]) ∧
      (∀ r, n.toNat ≤ 47 → rowOf s n.toNat = some r → replies t 2 (0 :: peer r))) ∧
    (∃ t, exec (.readFaults (recordOf 3 [])) s = .next t ∧ replies t 3 (0 :: faults) ∧
      (Calm s → t.inner = { s.inner with faults := t.inner.faults } ∧
        ∀ k, (t.fault k).snapshot = (s.fault k).count ∧ (t.fault k).count = (s.fault k).count ∧
          t.latched k = s.latched k ∧ (t.fault k).first = (s.fault k).first)) ∧
    (∀ bank : Byte, ∃ t, exec (.planRead (recordOf 5 [bank])) s = .next t ∧
      (Calm s → t.inner = s.inner) ∧
      (bank = 0 →
        replies t 5
          (0 :: (num s.plan.staging.length ++ flag s.plan.overrun ++ s.plan.staging.flatMap entry))) ∧
      (bank = 1 →
        replies t 5
          (0 :: (num s.plan.active.length ++ be16 s.plan.tag ++ s.plan.active.flatMap entry))) ∧
      (1 < bank.toNat → replies t 5 [2])) ∧
    (∃ t, exec (.settingsRead (recordOf 9 [])) s = .next t ∧ replies t 9 (0 :: settings) ∧
      (Calm s → t.inner = s.inner))

/-- Requests that act: ACK clears each latched kind of its set whose count equals its snapshot and whose
condition is not active, and replies with the set cleared; PLAN LOAD, PLAN CLEAR and PLAN ADOPT are REFUSED
without a table, BUSY with a full PLAN queue, and else queue one PLAN frame; SETTING WRITE stores a value within
its parameter's range, in force from the next start. A request of any kind that completes while a reply is sent waits,
or is dropped behind one that waits, and when the reply is out it is taken as if it arrived then. A record is collected
with the gap to its next byte timed, and 10 ms without one drop it; one whose sum, kind or length is not right is
ignored, and no reply is sent (R27, R183, R187, R188, R190). That bytes come
together as one command is assumption 19. -/
def Obligations.ServiceWrites : Prop :=
  (∀ (s : State), s.service.collecting = none → s.service.gap = none →
    let reply : Nat → List Byte → Service := fun kind bytes =>
      { s.service with sending := some (recordOf (kind + 128) bytes) }
    let queues : Instr → Nat → List Byte → Prop := fun c kind payload =>
      ∃ t, exec c s = .next t ∧ (Calm s → t.inner = s.inner) ∧
        t.outer =
          (if s.mode = .rollcall ∨ s.mode = .barred then { s.outer with service := reply kind [3] }
           else if 4 ≤ s.line.planQueue.length then { s.outer with service := reply kind [1] }
           else
             { s.outer with
               service := reply kind [0]
               planQueue :=
                 s.line.planQueue ++ [⟨kindPlan, 0, BitVec.ofNat 6 s.own, payload⟩] })
    (s.service.sending = none →
      (∀ a b : Byte,
        let clears : FaultKind → Bool := fun k =>
          (a ++ b).getLsbD (faultCode k).val && s.latched k &&
            (s.fault k).count == (s.fault k).snapshot && !(conditionKind k && s.active k)
        ∃ t, exec (.ack (recordOf 4 [a, b])) s = .next t ∧
          t.outer = { s.outer with service := reply 4 (0 :: be16 (setOf clears).toNat) } ∧
          (Quiet s → (∀ k, t.latched k = (s.latched k && !clears k)) ∧ t.mode = s.mode ∧
            t.inner =
              { s.inner with
                faults := t.inner.faults
                posePending := t.line.posePending
                poseAgain := t.line.poseAgain })) ∧
      (∀ (b : Byte) (rest : List Byte), lengthFits 6 (b :: rest) = true →
        queues (.planLoad (recordOf 6 (b :: rest))) 6 ((b &&& 3) :: rest)) ∧
      queues (.planClear (recordOf 7 [])) 7 [64] ∧
      queues (.planAdopt (recordOf 8 [])) 8 [128] ∧
      (∀ n a b : Byte,
        let value : Nat := a.toNat * 256 + b.toNat
        let allowed : Prop :=
          1 ≤ n.toNat ∧ n.toNat ≤ 20 ∧
            (paramTable.getD (n.toNat - 1) ⟨0, 0, 0⟩).low ≤ value ∧
            value ≤ (paramTable.getD (n.toNat - 1) ⟨0, 0, 0⟩).high
        ∃ t, exec (.settingWrite (recordOf 10 [n, a, b])) s = .next t ∧
          (Calm s → t.inner = s.inner) ∧
          (¬ allowed → t.outer = { s.outer with service := reply 10 [2] }) ∧
          (allowed →
            t.outer =
              { s.outer with
                service := reply 10 [0]
                settings :=
                  { s.settings with
                    stored :=
                      s.settings.stored.setIfInBounds (n.toNat - 1) ⟨value, true⟩ } }))) ∧
    (∀ (kind sum : Byte) (payload : List Byte), payload.length < 256 →
      let body := kind :: BitVec.ofNat 8 payload.length :: payload
      sum ≠ -(body.foldl (· + ·) 0) ∨ kind.toNat = 0 ∨ 10 < kind.toNat ∨
        lengthFits kind.toNat payload = false →
      ∃ t, exec (.status (126 :: (body ++ [sum]))) s = .next t ∧ (Calm s → t.inner = s.inner) ∧
        t.outer = s.outer) ∧
    (∀ r : Request, 1 ≤ r.kind → r.kind ≤ 10 → lengthFits r.kind r.payload = true →
      (∀ sent, s.service.sending = some sent →
        (s.service.waiting = none →
          ∃ t, exec (askedBy r) s = .next t ∧ (Calm s → t.inner = s.inner) ∧
            t.outer = { s.outer with service := { s.service with waiting := some r } }) ∧
        (s.service.waiting.isSome = true →
          ∃ t, exec (askedBy r) s = .next t ∧ (Calm s → t.inner = s.inner) ∧ t.outer = s.outer) ∧
        (s.service.waiting = some r →
          ∃ t, exec .replySent s = .next t ∧
            exec (askedBy r) { s with service := ⟨none, none, none, none⟩ } = .next t)) ∧
      (∀ n, n < (recordOf r.kind r.payload).length - 1 →
        ∃ t, exec (.status ((recordOf r.kind r.payload).take (n + 1))) s = .next t ∧
          (Calm s → t.inner = s.inner) ∧
          t.outer =
            { s.outer with
              service :=
                { s.service with
                  collecting := some (((recordOf r.kind r.payload).take (n + 1)).drop 1)
                  gap := some (s.timeBase + 100) } })) ∧
    (∀ sent, s.service.sending = some sent → s.service.waiting = none →
      ∃ t, exec .replySent s = .next t ∧ (Calm s → t.inner = s.inner) ∧
        t.outer = { s.outer with service := ⟨none, none, none, none⟩ })) ∧
  (∀ s : State, due s.timeBase s.service.gap = true →
    ∃ t, exec .serviceByteGap s = .next t ∧ (Calm s → t.inner = s.inner) ∧
      t.outer = { s.outer with service := { s.service with collecting := none, gap := none } })
end

