-- ==== Sys2Proof/Laws/Outer.lean ====
section
/-! SUPPORT. What the shared operations leave alone: the part of the state that only a command's own effect
writes, and that neither mode entries, occurrences, pawl and stroke operations nor the settling of
notices touch. One lemma per operation. -/

namespace Sys2Proof.Machine

/-! ### Requests, flags and faults -/

@[simp] theorem outer_notify (s : State) : (notify s).outer = s.outer := rfl

@[simp] theorem outer_requestPose (s : State) : (requestPose s).outer = s.outer := by
  unfold requestPose; split <;> [rfl; (split <;> rfl)]

@[simp] theorem outer_setFault (k : FaultKind) (r : FaultRec) (s : State) :
    (setFault k r s).outer = s.outer := rfl

@[simp] theorem outer_latchAt (p : Place) (n : Option Nat) (k : FaultKind) (s : State) :
    (latchAt p n k s).outer = s.outer := by
  unfold latchAt; simp only []; split <;> simp

@[simp] theorem outer_setActive (k : FaultKind) (on : Bool) (s : State) :
    (setActive k on s).outer = s.outer := rfl

/-! ### Claims, strokes and jogs -/

@[simp] theorem outer_withdrawNow (s : State) : (withdrawNow s).outer = s.outer := rfl

@[simp] theorem outer_requestWithdrawal (s : State) : (requestWithdrawal s).outer = s.outer := by
  unfold requestWithdrawal; split <;> simp <;> rfl

@[simp] theorem outer_causeOfWithdrawal (s : State) : (causeOfWithdrawal s).outer = s.outer := by
  unfold causeOfWithdrawal; split <;> simp

@[simp] theorem outer_stopRun (d : Direction) (s : State) : (stopRun d s).outer = s.outer := by
  unfold stopRun; simp; rfl

@[simp] theorem outer_abortStroke (s : State) : (abortStroke s).outer = s.outer := by
  unfold abortStroke; split <;> simp

@[simp] theorem outer_cutStroke (s : State) : (cutStroke s).outer = s.outer := by
  unfold cutStroke; split <;> [(split <;> simp); rfl]

@[simp] theorem outer_shortStop (s : State) : (shortStop s).outer = s.outer := by
  unfold shortStop; split <;> [(simp; rfl); rfl]

@[simp] theorem outer_dropJog (s : State) : (dropJog s).outer = s.outer := rfl

/-! ### Pawl -/

@[simp] theorem outer_armPawlLimit (s : State) : (armPawlLimit s).outer = s.outer := rfl
@[simp] theorem outer_disarmPawlLimit (s : State) : (disarmPawlLimit s).outer = s.outer := rfl
@[simp] theorem outer_commandPawl (c : PawlCommand) (s : State) :
    (commandPawl c s).outer = s.outer := rfl

@[simp] theorem outer_engineOnPawl (p : PawlState) (s : State) :
    (engineOnPawl p s).outer = s.outer := by
  unfold engineOnPawl
  split
  · split <;> rfl
  · simp only []
    split
    · rw [outer_dropJog]; exact outer_cutStroke s
    · simp

@[simp] theorem outer_reportPawl (p : PawlState) (s : State) : (reportPawl p s).outer = s.outer := by
  unfold reportPawl
  simp only []
  split
  · refine (outer_engineOnPawl _ _).trans ?_
    simp; rfl
  · simp; rfl

@[simp] theorem outer_pawlWithdraw (s : State) : (pawlWithdraw s).outer = s.outer := by
  unfold pawlWithdraw
  split
  · split <;> simp ; rfl
  · rfl

@[simp] theorem outer_pawlSet (s : State) : (pawlSet s).outer = s.outer := by
  unfold pawlSet
  simp only []
  split
  · rfl
  · rfl
  · split <;> simp <;> rfl
  · simp; rfl
  · rfl

@[simp] theorem outer_endJog (s : State) : (endJog s).outer = s.outer := by
  unfold endJog; split <;> [rfl; (split <;> simp)]

@[simp] theorem outer_pawlReachesSet (s : State) : (pawlReachesSet s).outer = s.outer := by
  unfold pawlReachesSet; simp only []; split <;> simp <;> rfl

@[simp] theorem outer_pawlFoundWithdrawn (s : State) : (pawlFoundWithdrawn s).outer = s.outer := by
  unfold pawlFoundWithdrawn; simp

@[simp] theorem outer_pawlOnResume (s : State) : (pawlOnResume s).outer = s.outer := by
  unfold pawlOnResume; split <;> [(split <;> simp); rfl]

/-! ### Stage, retained content, ceiling -/

@[simp] theorem outer_beginWrite (s : State) : (beginWrite s).outer = s.outer := rfl

@[simp] theorem outer_handRetained (s : State) : (handRetained s).outer = s.outer := by
  unfold handRetained; simp only []; split <;> rfl

@[simp] theorem outer_stageEntry (k : StageIx) (s : State) : (stageEntry k s).outer = s.outer := by
  unfold stageEntry; split <;> [(simp; rfl); rfl]

@[simp] theorem outer_setReason (r : WaitReason) (s : State) : (setReason r s).outer = s.outer := rfl

@[simp] theorem outer_ceilingIdle (s : State) : (ceilingIdle s).outer = s.outer := rfl

/-! ### Mode control -/

@[simp] theorem outer_recordStop (m : Mode) (o : StopOrigin) (k : Option FaultKind) (n : Option Nat)
    (s : State) : (recordStop m o k n s).outer = s.outer := rfl

@[simp] theorem outer_setMode (m : Mode) (s : State) : (setMode m s).outer = s.outer := by
  unfold setMode; simp; rfl

@[simp] theorem outer_enterUnstaged (s : State) : (enterUnstaged s).outer = s.outer := by
  unfold enterUnstaged
  simp only [outer_pawlSet, outer_ceilingIdle]
  split
  · exact outer_setMode _ s
  · exact (outer_handRetained _).trans (outer_setMode _ s)

@[simp] theorem outer_enterSettled (s : State) : (enterSettled s).outer = s.outer := by
  simp [enterSettled]

@[simp] theorem outer_enterIdle (s : State) : (enterIdle s).outer = s.outer := by simp [enterIdle]

@[simp] theorem outer_enterHold (s : State) : (enterHold s).outer = s.outer := by simp [enterHold]

@[simp] theorem outer_enterHalted (s : State) : (enterHalted s).outer = s.outer := by
  simp [enterHalted]

@[simp] theorem outer_placeHalt (k : FaultKind) (s : State) : (placeHalt k s).outer = s.outer := by
  unfold placeHalt; split <;> [rfl; (split <;> rfl)]

@[simp] theorem outer_modeOnFault (k : FaultKind) (s : State) :
    (modeOnFault k s).outer = s.outer := by
  unfold modeOnFault
  split
  · split <;> simp
  · split <;> simp

@[simp] theorem outer_reportAt (p : Place) (k : FaultKind) (n : Option Nat) (s : State) :
    (reportAt p k n s).outer = s.outer := by simp [reportAt]

@[simp] theorem outer_report (k : FaultKind) (n : Option Nat) (s : State) :
    (report k n s).outer = s.outer := by simp [report]

@[simp] theorem outer_reportEncoder (s : State) : (reportEncoder s).outer = s.outer := by
  simp [reportEncoder]

@[simp] theorem outer_shareEval (s : State) : (shareEval s).outer = s.outer := by
  unfold shareEval
  simp only []
  split
  · simp; rfl
  · split
    · simp; rfl
    · rfl

@[simp] theorem outer_pawlStuck (s : State) : (pawlStuck s).outer = s.outer := by
  unfold pawlStuck; simp; rfl

@[simp] theorem outer_endStaging (s : State) : (endStaging s).outer = s.outer := by
  unfold endStaging; simp; rfl

@[simp] theorem outer_handOverArrival (s : State) : (handOverArrival s).outer = s.outer := by
  unfold handOverArrival; split <;> simp

@[simp] theorem outer_arrive (s : State) : (arrive s).outer = s.outer := by
  unfold arrive
  split
  · simp
  · simp only []
    split
    · rfl
    · simp; rfl

@[simp] theorem outer_markLimitReported (s : State) : (markLimitReported s).outer = s.outer := by
  unfold markLimitReported; split <;> rfl

@[simp] theorem outer_arrivalTest (s : State) : (arrivalTest s).outer = s.outer := by
  unfold arrivalTest
  split
  · split
    · simp only []
      split
      · split <;> simp
      · split <;> simp
    · rfl
  · rfl

@[simp] theorem outer_enterMoving (s : State) : (enterMoving s).outer = s.outer := by
  unfold enterMoving
  simp only [outer_arrivalTest, outer_shareEval]
  split
  · exact (outer_setMode _ _).trans (outer_endJog s)
  · simp

@[simp] theorem outer_takeUp (s : State) : (takeUp s).outer = s.outer := by
  unfold takeUp; simp; rfl

@[simp] theorem outer_strokeEnd (r : Stroke) (s : State) : (strokeEnd r s).outer = s.outer := by
  unfold strokeEnd
  simp only []
  split
  · rw [outer_arrivalTest]
    split
    · rw [outer_pawlSet]; split <;> exact outer_stopRun _ s
    · split <;> exact outer_stopRun _ s
  · simp

@[simp] theorem outer_captureContact (s : State) : (captureContact s).outer = s.outer := by
  unfold captureContact
  simp only [outer_arrivalTest, outer_handRetained, outer_notify]
  exact outer_stopRun _ s

@[simp] theorem outer_contactReport (s : State) : (contactReport s).outer = s.outer := by
  unfold contactReport; split <;> [(split <;> simp); rfl]

@[simp] theorem outer_topOfTravel (s : State) : (topOfTravel s).outer = s.outer := by
  simp [topOfTravel]

@[simp] theorem outer_contactTest (s : State) : (contactTest s).outer = s.outer := by
  unfold contactTest; split <;> [(simp; rfl); rfl]

/-! ### Spacing and ceiling units -/

@[simp] theorem outer_queueClaim (r : Stroke) (s : State) : (queueClaim r s).outer = s.outer := rfl

@[simp] theorem outer_tryQueue (s : State) : (tryQueue s).outer = s.outer := by
  unfold tryQueue
  split
  · rfl
  · split
    · split <;> rfl
    · rfl

@[simp] theorem outer_handOffer (o : Option Stroke) (s : State) : (handOffer o s).outer = s.outer := by
  unfold handOffer; split <;> [rfl; (simp; rfl)]

@[simp] theorem outer_giveOffer (r : Stroke) (s : State) : (giveOffer r s).outer = s.outer := by
  unfold giveOffer; simp; rfl

@[simp] theorem outer_giveWait (r : WaitReason) (s : State) : (giveWait r s).outer = s.outer := by
  unfold giveWait; simp; rfl

@[simp] theorem outer_giveArrived (s : State) : (giveArrived s).outer = s.outer := by
  unfold giveArrived; simp; rfl

@[simp] theorem outer_offerOrLead (o : Option Stroke) (s : State) :
    (offerOrLead o s).outer = s.outer := by
  unfold offerOrLead; split <;> simp

@[simp] theorem outer_evalTakeUp (s : State) : (evalTakeUp s).outer = s.outer := by
  unfold evalTakeUp; split <;> [simp; (split <;> simp)]

@[simp] theorem outer_evalRaise (r : StagedRec) (h : Int) (s : State) :
    (evalRaise r h s).outer = s.outer := by
  unfold evalRaise; split <;> simp

@[simp] theorem outer_evalLower (r : StagedRec) (h : Int) (s : State) :
    (evalLower r h s).outer = s.outer := by
  unfold evalLower; simp only []; split <;> (split <;> simp)

@[simp] theorem outer_markRelease (s : State) : (markRelease s).outer = s.outer := by
  unfold markRelease; split <;> rfl

@[simp] theorem outer_evalNudge (r : StagedRec) (h : Int) (s : State) :
    (evalNudge r h s).outer = s.outer := by
  unfold evalNudge
  split
  · split
    · simp; rfl
    · split <;> simp
  · simp

@[simp] theorem outer_evalAtRest (s : State) : (evalAtRest s).outer = s.outer := by
  unfold evalAtRest
  split
  · simp only []
    split
    · simp
    · split
      · split <;> simp
      · simp
  · simp

@[simp] theorem outer_evaluate (s : State) : (evaluate s).outer = s.outer := by
  unfold evaluate
  split
  · split
    · simp
    · simp only []
      split
      · rfl
      · simp; rfl
    · simp
  · simp

/-! ### Settling -/

@[simp] theorem outer_awaitTest (s : State) : (awaitTest s).outer = s.outer := by
  unfold awaitTest; split <;> [(simp; rfl); rfl]

@[simp] theorem outer_restTest (s : State) : (restTest s).outer = s.outer := by
  unfold restTest; split <;> [(split <;> simp); rfl]

@[simp] theorem outer_readers (s : State) : (readers s).outer = s.outer := by simp [readers]

@[simp] theorem outer_settle (n : Nat) (s : State) : (settle n s).outer = s.outer := by
  induction n generalizing s with
  | zero => rfl
  | succ n ih =>
    unfold settle
    split
    · rw [ih, outer_readers]; rfl
    · rfl

@[simp] theorem outer_armBusy (s : State) : (armBusy s).outer = s.outer := by
  unfold armBusy; split <;> rfl

@[simp] theorem outer_refreshLamps (s : State) : (refreshLamps s).outer = s.outer := rfl

@[simp] theorem outer_clearNotice (s : State) : (clearNotice s).outer = s.outer := rfl

@[simp] theorem outer_finish (s : State) : (finish s).outer = s.outer := by simp [finish]

end Sys2Proof.Machine
end

