-- ==== Sys2Proof/Laws/Quiet.lean ====
section
/-! SUPPORT. Settling outside MOVING and SETTLED changes nothing but the ceiling unit's outcome, the offer, the
share evaluation's results, the line-busy limit and the lamps. -/

namespace Sys2Proof.Machine

theorem faultCode_injective {j k : FaultKind} (h : faultCode j = faultCode k) : j = k := by
  revert h; cases j <;> cases k <;> decide

theorem fault_setFault_same (k : FaultKind) (r : FaultRec) (s : State) :
    (setFault k r s).fault k = r := by
  simp [setFault, State.fault]

theorem fault_setFault_other {j k : FaultKind} (h : j ≠ k) (r : FaultRec) (s : State) :
    (setFault k r s).fault j = s.fault j := by
  have hne : (faultCode k).val ≠ (faultCode j).val :=
    fun e => h (faultCode_injective (Fin.ext e)).symm
  simp [setFault, State.fault, Vector.getElem_set_ne _ _ hne]

/-- Ending LOAD_SHARE touches no other flag and no record. -/
theorem inner_endShare (s : State) : (setActive .loadShare false s).inner = s.inner := by
  have hf : ∀ k, (setActive .loadShare false s).fault k
      = if k = .loadShare then { s.fault .loadShare with active := false } else s.fault k := by
    intro k
    by_cases h : k = .loadShare
    · subst h; simp [setActive, fault_setFault_same]
    · simp [setActive, fault_setFault_other h, h]
  unfold State.inner
  have : (fun k => ((setActive .loadShare false s).latched k,
      k != .loadShare && (setActive .loadShare false s).active k,
      ((setActive .loadShare false s).fault k).count,
      ((setActive .loadShare false s).fault k).first,
      ((setActive .loadShare false s).fault k).snapshot))
      = fun k => (s.latched k, k != .loadShare && s.active k, (s.fault k).count,
          (s.fault k).first, (s.fault k).snapshot) := by
    funext k
    simp only [State.latched, State.active, hf]
    by_cases h : k = .loadShare <;> simp [h]
  rw [this]
  rfl

theorem shareOf_quiet {s : State} (h : Quiet s) : shareOf s = .inactive := by
  simp [shareOf, shareActive, h.1, h.2]

/-- The inner part does not depend on the share evaluation's results. -/
theorem inner_shareEval {s : State} (h : Quiet s) :
    (shareEval s).inner = s.inner ∧ (shareEval s).notice = s.notice := by
  unfold shareEval
  simp only [shareOf_quiet h]
  rw [if_neg (by simp [outOfBand])]
  split
  · exact ⟨inner_endShare _, rfl⟩
  · exact ⟨rfl, rfl⟩

theorem inner_ceilingIdle (s : State) : (ceilingIdle s).inner = s.inner := rfl

theorem awaitTest_quiet {s : State} (h : Quiet s) : awaitTest s = s := by
  simp [awaitTest, h.1]

theorem restTest_quiet {s : State} (h : Quiet s) : restTest s = s := by
  unfold restTest; split <;> simp [h.2]

/-- The readers leave the inner part alone outside MOVING and SETTLED, and send no notice. -/
theorem readers_quiet {s : State} (h : Quiet s) :
    (readers s).inner = s.inner ∧ (readers s).notice = s.notice := by
  have hs := inner_shareEval h
  have hm : (shareEval s).mode = s.mode := congrArg Inner.mode hs.1
  have hq : Quiet (shareEval s) := by rw [Quiet, hm]; exact h
  unfold readers
  rw [awaitTest_quiet hq, restTest_quiet hq]
  unfold evaluate
  rw [hm, if_neg h.1]
  exact ⟨(inner_ceilingIdle _).trans hs.1, hs.2⟩

theorem settle_quiet (n : Nat) {s : State} (h : Quiet s) : (settle n s).inner = s.inner := by
  cases n with
  | zero => rfl
  | succ n =>
    unfold settle
    split
    · have hq : Quiet { s with notice := false } := h
      obtain ⟨hi, hn⟩ := readers_quiet hq
      have : settle n (readers { s with notice := false }) = readers { s with notice := false } := by
        cases n with
        | zero => rfl
        | succ n =>
          unfold settle
          rw [if_neg]
          rw [hn]
          exact Bool.false_ne_true
      rw [this, hi]
      rfl
    · rfl

/-- What ends a command leaves the inner part alone outside MOVING and SETTLED. -/
theorem finish_quiet {s : State} (h : Quiet s) : (finish s).inner = s.inner := by
  have h1 : (finish s).inner = (settle settleRounds s).inner := by
    unfold finish
    generalize settle settleRounds s = t
    unfold armBusy
    split <;> rfl
  rw [h1, settle_quiet _ h]

/-- With no notice outstanding, settling does nothing. -/
theorem settle_still (n : Nat) {s : State} (h : s.notice = false) : settle n s = s := by
  cases n with
  | zero => rfl
  | succ n => unfold settle; rw [h]; rfl

/-- What ends a command leaves the inner part of a calm state alone. -/
theorem finish_calm {s : State} (h : Calm s) : (finish s).inner = s.inner := by
  rcases h with h | h
  · exact finish_quiet h
  · unfold finish
    rw [settle_still _ h]
    unfold armBusy
    split <;> rfl

end Sys2Proof.Machine
end

