-- ==== Sys2Proof/Laws/Motion.lean ====
section
/-! SUPPORT. What the shared operations do to the stroke engine, the pawl, the claim and the mode: each keeps
the agreement of drive, source, pawl and claim (`Core`), and the larger ones keep a safe state safe. -/

namespace Sys2Proof.Machine

/-- The part of the state that a safe motion rests on. -/
structure MView where
  stroke : StrokeState
  jog : JogState
  source : Source
  drive : Drive
  pawl : PawlState
  offer : Option Stroke
  claim : ClaimSlot
  mode : Mode

/-- That part of a state. -/
def State.mview (s : State) : MView :=
  ⟨s.engine.stroke, s.engine.jog, s.engine.source, s.engine.drive, s.pawl.state, s.spacing.offer,
    s.line.claim, s.mode⟩

/-- The stroke engine is CLAIMING. -/
def isClaiming : StrokeState → Bool
  | .claiming _ => true
  | _ => false

/-- A stroke runs. -/
def isRunning : StrokeState → Bool
  | .running _ _ => true
  | _ => false

/-- A running stroke lowers. -/
def runLowers : StrokeState → Bool
  | .running r _ => r.dir == .lower
  | _ => false

/-- The shape of a claimed or running stroke. -/
def strokeOk : StrokeState → Prop
  | .claiming r => StrokeOk r
  | .running r _ => StrokeOk r
  | .rest => True

/-- The parts of `MotionSafe` that do not speak of the mode. -/
structure MView.Core (m : MView) : Prop where
  drive : m.drive = driveOf m.source m.stroke m.jog
  source : m.source = if m.jog = .none then .stroke else .jog
  runPawl : runLowers m.stroke = true → m.pawl = .withdrawn
  jogPawl : m.jog = .down → m.pawl = .withdrawn
  jogRest : m.jog ≠ .none → m.stroke = .rest
  shape : strokeOk m.stroke
  slot : isClaiming m.stroke = true ↔ m.claim ≠ .empty
  offer : ∀ r, m.offer = some r → StrokeOk r

/-- The parts of `MotionSafe` that speak of the mode. -/
structure MView.Place (m : MView) : Prop where
  jogMode : m.jog ≠ .none → m.mode = .unstaged
  runMode : isRunning m.stroke = true → m.mode ≠ .rollcall ∧ m.mode ≠ .barred ∧ m.mode ≠ .halted
  claimMode : isClaiming m.stroke = true → m.mode ≠ .rollcall ∧ m.mode ≠ .barred

/-- Both parts. -/
def MView.Safe (m : MView) : Prop := m.Core ∧ m.Place

theorem claiming_eq (s : State) : s.claiming = isClaiming s.engine.stroke := by
  unfold State.claiming isClaiming; rfl

/-- A safe state, said over its view. -/
theorem motionSafe_iff (s : State) : MotionSafe s ↔ s.mview.Safe := by
  constructor
  · intro h
    refine ⟨⟨h.drive, h.source, ?_, h.jogPawl, h.jogRest, ?_, ?_, h.offerShape⟩, h.jogMode, ?_, ?_⟩
    · intro hr
      cases hs : s.engine.stroke with
      | running r n =>
        simp [State.mview, hs, runLowers] at hr
        exact h.runPawl r n hs hr
      | rest => simp [State.mview, hs, runLowers] at hr
      | claiming r => simp [State.mview, hs, runLowers] at hr
    · cases hs : s.engine.stroke with
      | running r n => simp only [State.mview, hs]; exact h.strokeShape r (.inr ⟨n, hs⟩)
      | rest => simp only [State.mview, hs]; trivial
      | claiming r => simp only [State.mview, hs]; exact h.strokeShape r (.inl hs)
    · change isClaiming s.engine.stroke = true ↔ s.line.claim ≠ .empty
      rw [← claiming_eq]; exact h.claimSlot
    · intro hr
      cases hs : s.engine.stroke with
      | running r n => exact h.runMode r n hs
      | rest => simp [State.mview, hs, isRunning] at hr
      | claiming r => simp [State.mview, hs, isRunning] at hr
    · intro hc
      exact h.claimMode (by rw [claiming_eq]; exact hc)
  · intro ⟨c, p⟩
    refine ⟨c.drive, c.source, p.jogMode, c.jogRest, ?_, ?_, c.jogPawl, ?_, ?_, ?_, c.offer⟩
    · intro r n hs
      have h := p.runMode
      simp only [State.mview, hs, isRunning, true_implies] at h
      exact h
    · intro r n hs hd
      have h := c.runPawl
      simp only [State.mview, hs, runLowers, beq_iff_eq] at h
      exact h hd
    · intro r hs
      have h := c.shape
      rcases hs with hs | ⟨n, hs⟩ <;> (simp only [State.mview, hs] at h; exact h)
    · rw [claiming_eq]; exact c.slot
    · rw [claiming_eq]; exact p.claimMode

/-! ### Operations that leave the view alone -/

@[simp] theorem mview_notify (s : State) : (notify s).mview = s.mview := rfl
@[simp] theorem mview_requestPose (s : State) : (requestPose s).mview = s.mview := by
  unfold requestPose; split <;> [rfl; (split <;> rfl)]
@[simp] theorem mview_setFault (k : FaultKind) (r : FaultRec) (s : State) :
    (setFault k r s).mview = s.mview := rfl
@[simp] theorem mview_setActive (k : FaultKind) (on : Bool) (s : State) :
    (setActive k on s).mview = s.mview := rfl
@[simp] theorem mview_latchAt (p : Place) (n : Option Nat) (k : FaultKind) (s : State) :
    (latchAt p n k s).mview = s.mview := by
  unfold latchAt; simp only []; split <;> simp
@[simp] theorem mview_armPawlLimit (s : State) : (armPawlLimit s).mview = s.mview := rfl
@[simp] theorem mview_disarmPawlLimit (s : State) : (disarmPawlLimit s).mview = s.mview := rfl
@[simp] theorem mview_commandPawl (c : PawlCommand) (s : State) :
    (commandPawl c s).mview = s.mview := rfl
@[simp] theorem mview_beginWrite (s : State) : (beginWrite s).mview = s.mview := rfl
@[simp] theorem mview_handRetained (s : State) : (handRetained s).mview = s.mview := by
  unfold handRetained; simp only []; split <;> rfl
@[simp] theorem mview_stageEntry (k : StageIx) (s : State) : (stageEntry k s).mview = s.mview := by
  unfold stageEntry; split <;> [(simp; rfl); rfl]
@[simp] theorem mview_setReason (r : WaitReason) (s : State) : (setReason r s).mview = s.mview := rfl
@[simp] theorem mview_recordStop (m : Mode) (o : StopOrigin) (k : Option FaultKind)
    (n : Option Nat) (s : State) : (recordStop m o k n s).mview = s.mview := rfl
@[simp] theorem mview_refuse (k : RefusedKind) (r : Reason) (n : Nat) (s : State) :
    (refuse k r n s).mview = s.mview := rfl
@[simp] theorem mview_placeHalt (k : FaultKind) (s : State) : (placeHalt k s).mview = s.mview := by
  unfold placeHalt; split <;> [rfl; (split <;> rfl)]
@[simp] theorem mview_markLimitReported (s : State) : (markLimitReported s).mview = s.mview := by
  unfold markLimitReported; split <;> rfl
@[simp] theorem mview_markRelease (s : State) : (markRelease s).mview = s.mview := by
  unfold markRelease; split <;> rfl
@[simp] theorem mview_armBusy (s : State) : (armBusy s).mview = s.mview := by
  unfold armBusy; split <;> rfl
theorem mview_clearNotice (s : State) : (clearNotice s).mview = s.mview := rfl
@[simp] theorem mview_refreshLamps (s : State) : (refreshLamps s).mview = s.mview := rfl
@[simp] theorem mview_writeShare (s : State) : (writeShare s).mview = s.mview := rfl
@[simp] theorem mview_countDiscarded (s : State) : (countDiscarded s).mview = s.mview := rfl

theorem mview_setMode (m : Mode) (s : State) : (setMode m s).mview = { s.mview with mode := m } := by
  unfold setMode; simp; rfl

theorem mview_ceilingIdle (s : State) :
    (ceilingIdle s).mview = { s.mview with offer := none } := rfl

/-! ### Driving less -/

/-- One view drives no more than another of the same mode: no stroke, claim or jog that the other has not. -/
structure MView.Less (t s : MView) : Prop where
  mode : t.mode = s.mode
  jog : t.jog ≠ .none → s.jog ≠ .none
  run : isRunning t.stroke = true → isRunning s.stroke = true
  claim : isClaiming t.stroke = true → isClaiming s.stroke = true

theorem MView.Less.refl (s : MView) : s.Less s := ⟨rfl, id, id, id⟩

theorem MView.Less.trans {a b c : MView} (h : a.Less b) (k : b.Less c) : a.Less c :=
  ⟨h.mode.trans k.mode, k.jog ∘ h.jog, k.run ∘ h.run, k.claim ∘ h.claim⟩

theorem MView.Less.place {t s : MView} (h : t.Less s) (p : s.Place) : t.Place :=
  ⟨fun j => h.mode ▸ p.jogMode (h.jog j), fun r => h.mode ▸ p.runMode (h.run r),
    fun c => h.mode ▸ p.claimMode (h.claim c)⟩

/-- An operation that keeps `Core` and drives no more. -/
def Tame (f : State → State) : Prop :=
  ∀ s, s.mview.Core → (f s).mview.Core ∧ (f s).mview.Less s.mview

theorem Tame.comp {f g : State → State} (hf : Tame f) (hg : Tame g) : Tame fun s => f (g s) :=
  fun s h => ⟨(hf _ (hg s h).1).1, (hf _ (hg s h).1).2.trans (hg s h).2⟩

theorem Tame.safe {f : State → State} (hf : Tame f) {s : State} (h : s.mview.Safe) :
    (f s).mview.Safe := ⟨(hf s h.1).1, (hf s h.1).2.place h.2⟩

theorem tame_of_eq {f : State → State} (h : ∀ s, (f s).mview = s.mview) : Tame f :=
  fun s c => by rw [h s]; exact ⟨c, .refl _⟩

/-- What a withdrawal makes of a view. -/
theorem mview_withdrawNow (s : State) :
    (withdrawNow s).mview = { s.mview with
      stroke := .rest, drive := driveOf s.engine.source .rest s.engine.jog, claim := .empty } := rfl

theorem tame_withdrawNow : Tame withdrawNow := by
  intro s c
  rw [mview_withdrawNow]
  refine ⟨⟨rfl, c.source, ?_, c.jogPawl, fun _ => rfl, trivial, ?_, c.offer⟩, ⟨rfl, id, ?_, ?_⟩⟩ <;>
    simp [runLowers, isClaiming, isRunning]

theorem tame_requestWithdrawal : Tame requestWithdrawal := by
  intro s c
  unfold requestWithdrawal
  split
  · exact ⟨c, .refl _⟩
  · exact tame_withdrawNow s c
  · rename_i f b hc
    refine ⟨⟨c.drive, c.source, c.runPawl, c.jogPawl, c.jogRest, c.shape, ?_, c.offer⟩, ⟨rfl, id, id, id⟩⟩
    have hs := c.slot
    simp only [State.mview] at hs ⊢
    rw [hs, hc]
    simp
  · exact ⟨c, .refl _⟩

theorem tame_causeOfWithdrawal : Tame causeOfWithdrawal := by
  intro s c
  unfold causeOfWithdrawal
  split
  · exact tame_requestWithdrawal s c
  · exact ⟨c, .refl _⟩

theorem mview_stopRun (d : Direction) (s : State) :
    (stopRun d s).mview = { s.mview with
      stroke := .rest, drive := driveOf s.engine.source .rest s.engine.jog } := by
  unfold stopRun; simp; rfl

/-- The end of a running stroke. -/
theorem tame_stopRun {s : State} {r : Stroke} {n : Nat} (d : Direction)
    (hs : s.engine.stroke = .running r n) (c : s.mview.Core) :
    (stopRun d s).mview.Core ∧ (stopRun d s).mview.Less s.mview := by
  rw [mview_stopRun]
  refine ⟨⟨rfl, c.source, ?_, c.jogPawl, fun _ => rfl, trivial, ?_, c.offer⟩, ⟨rfl, id, ?_, ?_⟩⟩
  · simp [runLowers]
  · have h := c.slot
    simp [State.mview, hs, isClaiming] at h ⊢
    exact h
  · simp [isRunning]
  · simp [isClaiming]

theorem tame_abortStroke : Tame abortStroke := by
  intro s c
  unfold abortStroke
  split
  · rename_i r n hs; exact tame_stopRun _ hs c
  · exact ⟨c, .refl _⟩

theorem tame_cutStroke : Tame cutStroke := by
  intro s c
  unfold cutStroke
  split
  · rename_i r n hs
    split
    · exact tame_stopRun _ hs c
    · exact ⟨c, .refl _⟩
  · exact ⟨c, .refl _⟩

theorem cutStroke_lowers (s : State) : runLowers (cutStroke s).engine.stroke = false := by
  unfold cutStroke
  split
  · rename_i r n hs
    split
    · have h : (stopRun r.dir s).engine.stroke = .rest := congrArg MView.stroke (mview_stopRun _ s)
      simp [h, runLowers]
    · simp [runLowers, *]
  · rename_i h
    cases hs : s.engine.stroke with
    | running r n => exact absurd hs (h r n)
    | rest => rfl
    | claiming r => rfl

theorem tame_shortStop : Tame shortStop := by
  intro s c
  unfold shortStop
  split
  · rename_i r n hs
    simp only [mview_requestPose, mview_notify]
    have hd := c.drive; have hr := c.runPawl; have hk := c.shape; have hl := c.slot
    have hj := c.jogRest
    simp only [State.mview, hs] at hd hr hk hl hj
    refine ⟨⟨?_, c.source, ?_, c.jogPawl, fun h => absurd (hj h) nofun, ?_, ?_, c.offer⟩, ⟨rfl, id, ?_, ?_⟩⟩
    · simp only [State.mview]; rw [hd]; rfl
    · exact hr
    · exact hk
    · exact hl
    · simp [State.mview, hs, isRunning]
    · simp [State.mview, isClaiming]
  · exact ⟨c, .refl _⟩

theorem mview_dropJog (s : State) :
    (dropJog s).mview = { s.mview with
      jog := .none, source := .stroke, drive := driveOf .stroke s.engine.stroke .none } := rfl

theorem tame_dropJog : Tame dropJog := by
  intro s c
  rw [mview_dropJog]
  exact ⟨⟨rfl, rfl, c.runPawl, by simp, by simp, c.shape, c.slot, c.offer⟩, ⟨rfl, by simp, id, id⟩⟩

/-! ### Pawl -/

/-- `Core` but for what it says of the pawl. -/
structure MView.CoreP (m : MView) : Prop where
  drive : m.drive = driveOf m.source m.stroke m.jog
  source : m.source = if m.jog = .none then .stroke else .jog
  jogRest : m.jog ≠ .none → m.stroke = .rest
  shape : strokeOk m.stroke
  slot : isClaiming m.stroke = true ↔ m.claim ≠ .empty
  offer : ∀ r, m.offer = some r → StrokeOk r

theorem MView.Core.coreP {m : MView} (c : m.Core) : m.CoreP :=
  ⟨c.drive, c.source, c.jogRest, c.shape, c.slot, c.offer⟩

theorem causeOfWithdrawal_coreP {s : State} (c : s.mview.CoreP) :
    (causeOfWithdrawal s).mview.CoreP ∧ (causeOfWithdrawal s).mview.Less s.mview
      ∧ (causeOfWithdrawal s).mview.pawl = s.mview.pawl := by
  unfold causeOfWithdrawal
  split
  · unfold requestWithdrawal
    split
    · exact ⟨c, .refl _, rfl⟩
    · rw [mview_withdrawNow]
      refine ⟨⟨rfl, c.source, fun _ => rfl, trivial, ?_, c.offer⟩, ⟨rfl, id, ?_, ?_⟩, rfl⟩ <;>
        simp [isClaiming, isRunning]
    · rename_i f b hc
      refine ⟨⟨c.drive, c.source, c.jogRest, c.shape, ?_, c.offer⟩, ⟨rfl, id, id, id⟩, rfl⟩
      have hs := c.slot
      simp only [State.mview] at hs ⊢
      rw [hs, hc]
      simp
    · exact ⟨c, .refl _, rfl⟩
  · exact ⟨c, .refl _, rfl⟩

theorem cutStroke_coreP {s : State} (c : s.mview.CoreP) :
    (cutStroke s).mview.CoreP ∧ (cutStroke s).mview.Less s.mview
      ∧ (cutStroke s).mview.pawl = s.mview.pawl := by
  unfold cutStroke
  split
  · rename_i r n hs
    split
    · rw [mview_stopRun]
      refine ⟨⟨rfl, c.source, fun _ => rfl, trivial, ?_, c.offer⟩, ⟨rfl, id, ?_, ?_⟩, rfl⟩
      · have h := c.slot
        simp [State.mview, hs, isClaiming] at h ⊢
        exact h
      · simp [isRunning]
      · simp [isClaiming]
    · exact ⟨c, .refl _, rfl⟩
  · exact ⟨c, .refl _, rfl⟩

/-- The stroke engine's part of a pawl report makes the pawl's part of `Core` good. -/
theorem engineOnPawl_core {s : State} (c : s.mview.CoreP) :
    (engineOnPawl s.pawl.state s).mview.Core
      ∧ (engineOnPawl s.pawl.state s).mview.Less s.mview := by
  unfold engineOnPawl
  split
  · rename_i hw
    split
    · rename_i hj
      have hsrc : s.engine.source = .jog := by
        have h := c.source
        simp only [State.mview, hj.1] at h
        simpa using h
      have hr : s.engine.stroke = .rest := c.jogRest (by simp [State.mview, hj.1])
      refine ⟨⟨rfl, ?_, fun _ => hw, fun _ => hw, fun _ => hr, c.shape, c.slot, c.offer⟩,
        ⟨rfl, ?_, id, id⟩⟩
      · simp [State.mview, hsrc]
      · simp [State.mview, hj.1]
    · exact ⟨⟨c.drive, c.source, fun _ => hw, fun _ => hw, c.jogRest, c.shape, c.slot, c.offer⟩, .refl _⟩
  · rename_i hw
    obtain ⟨c', l, hp⟩ := cutStroke_coreP c
    have hl := cutStroke_lowers s
    simp only []
    split
    · refine ⟨⟨rfl, rfl, ?_, ?_, fun h => absurd rfl h, c'.shape, c'.slot, c'.offer⟩,
        ⟨l.mode, ?_, l.run, l.claim⟩⟩
      · intro h
        have h' : runLowers (cutStroke s).engine.stroke = true := h
        rw [hl] at h'; exact absurd h' Bool.false_ne_true
      · intro h; exact absurd h (by simp [State.mview, dropJog])
      · intro h; exact absurd rfl h
    · rename_i hj
      refine ⟨⟨c'.drive, c'.source, ?_, ?_, c'.jogRest, c'.shape, c'.slot, c'.offer⟩, l⟩
      · intro h
        have h' : runLowers (cutStroke s).engine.stroke = true := h
        rw [hl] at h'; exact absurd h' Bool.false_ne_true
      · intro h; exact absurd h hj

/-- A pawl report keeps `Core`, whatever the pawl's state was. -/
theorem reportPawl_core (p : PawlState) {s : State} (c : s.mview.CoreP) :
    (reportPawl p s).mview.Core ∧ (reportPawl p s).mview.Less s.mview := by
  have key : ∀ t : State, t.mview.CoreP → t.pawl.state = p → t.mview.Less s.mview →
      (engineOnPawl p t).mview.Core ∧ (engineOnPawl p t).mview.Less s.mview := by
    intro t ct hp l
    have h := engineOnPawl_core ct
    rw [hp] at h
    exact ⟨h.1, h.2.trans l⟩
  have h0 : (requestPose (notify { s with pawl := { s.pawl with state := p } })).mview
      = { s.mview with pawl := p } := by simp; rfl
  have c0 : (requestPose (notify { s with pawl := { s.pawl with state := p } })).mview.CoreP := by
    rw [h0]; exact ⟨c.drive, c.source, c.jogRest, c.shape, c.slot, c.offer⟩
  obtain ⟨c1, l1, p1⟩ := causeOfWithdrawal_coreP c0
  have l0 : MView.Less { s.mview with pawl := p } s.mview := ⟨rfl, id, id, id⟩
  rw [h0] at l1 p1
  have h := key _ c1 p1 (l1.trans l0)
  unfold reportPawl
  simp only []
  split
  · exact h
  · exact h

theorem tame_reportPawl (p : PawlState) : Tame (reportPawl p) :=
  fun _ c => reportPawl_core p c.coreP

theorem tame_pawlWithdraw : Tame pawlWithdraw := by
  intro s c
  unfold pawlWithdraw
  split
  · split
    · have h := tame_reportPawl .withdrawing (armPawlLimit (commandPawl .withdrawn s)) c
      exact h
    · exact ⟨c, .refl _⟩
    · exact ⟨c, .refl _⟩
  · exact ⟨c, .refl _⟩

theorem tame_pawlSet : Tame pawlSet := by
  intro s c
  unfold pawlSet
  simp only []
  split
  · exact ⟨c, .refl _⟩
  · exact ⟨c, .refl _⟩
  · have h := tame_reportPawl .setting (armPawlLimit (commandPawl .set
      { s with pawl := { s.pawl with pendingWithdraw := false } })) c
    split
    · have h2 := tame_reportPawl .set (disarmPawlLimit (reportPawl .setting (armPawlLimit
        (commandPawl .set { s with pawl := { s.pawl with pendingWithdraw := false } })))) h.1
      exact ⟨h2.1, h2.2.trans h.2⟩
    · exact h
  · exact tame_reportPawl .setting (armPawlLimit (commandPawl .set
      { s with pawl := { s.pawl with pendingWithdraw := false } })) c
  · exact ⟨c, .refl _⟩

theorem tame_pawlReachesSet : Tame pawlReachesSet := by
  intro s c
  unfold pawlReachesSet
  have h := tame_reportPawl .set
    (disarmPawlLimit { s with pawl := { s.pawl with pendingWithdraw := false } }) c
  simp only []
  split
  · have h2 := tame_pawlWithdraw _ h.1
    exact ⟨h2.1, h2.2.trans h.2⟩
  · exact h

theorem tame_pawlFoundWithdrawn : Tame pawlFoundWithdrawn := by
  intro s c
  unfold pawlFoundWithdrawn
  have h := tame_reportPawl .withdrawn (commandPawl .set s) c
  have h2 := tame_reportPawl .setting (armPawlLimit (reportPawl .withdrawn (commandPawl .set s))) h.1
  exact ⟨h2.1, h2.2.trans h.2⟩

theorem tame_pawlOnResume : Tame pawlOnResume := by
  intro s c
  unfold pawlOnResume
  split
  · split
    · exact tame_reportPawl _ s c
    · exact tame_pawlFoundWithdrawn s c
    · exact ⟨c, .refl _⟩
  · exact ⟨c, .refl _⟩

theorem tame_endJog : Tame endJog := by
  intro s c
  unfold endJog
  split
  · exact ⟨c, .refl _⟩
  · split
    · exact (tame_pawlSet.comp tame_dropJog) s c
    · exact tame_dropJog s c

theorem dropJog_jog (s : State) : (dropJog s).engine.jog = .none := rfl

theorem endJog_jog {s : State} (c : s.mview.Core) : (endJog s).engine.jog = .none := by
  unfold endJog
  split
  · assumption
  · split
    · have h := tame_pawlSet (dropJog s) (tame_dropJog s c).1
      by_contra hj
      exact h.2.jog hj (dropJog_jog s)
    · rfl

/-! ### Mode entries -/

theorem tame_ceilingIdle : Tame ceilingIdle := by
  intro s c
  rw [mview_ceilingIdle]
  exact ⟨⟨c.drive, c.source, c.runPawl, c.jogPawl, c.jogRest, c.shape, c.slot, by simp⟩,
    ⟨rfl, id, id, id⟩⟩

theorem setMode_core (m : Mode) {s : State} (c : s.mview.Core) : (setMode m s).mview.Core := by
  rw [mview_setMode]
  exact ⟨c.drive, c.source, c.runPawl, c.jogPawl, c.jogRest, c.shape, c.slot, c.offer⟩

theorem setMode_place {m : Mode} {s : State} (hj : s.engine.jog = .none)
    (h1 : m ≠ .rollcall) (h2 : m ≠ .barred) (h3 : m ≠ .halted) : (setMode m s).mview.Place := by
  rw [mview_setMode]
  exact ⟨fun h => absurd hj h, fun _ => ⟨h1, h2, h3⟩, fun _ => ⟨h1, h2⟩⟩

/-- Entry to UNSTAGED from a safe state. -/
theorem safe_enterUnstaged {s : State} (h : s.mview.Safe) : (enterUnstaged s).mview.Safe := by
  have c0 := setMode_core .unstaged h.1
  have p0 : (setMode .unstaged s).mview.Place := by
    rw [mview_setMode]
    exact ⟨fun _ => rfl, fun _ => ⟨nofun, nofun, nofun⟩, fun _ => ⟨nofun, nofun⟩⟩
  have key : ∀ t : State, t.mview = (setMode .unstaged s).mview →
      (pawlSet (ceilingIdle { t with
        ceiling := { t.ceiling with nudgeDue := false, release := false } })).mview.Safe := by
    intro t ht
    have hs : t.mview.Safe := by rw [ht]; exact ⟨c0, p0⟩
    have hs' : State.mview { t with
        ceiling := { t.ceiling with nudgeDue := false, release := false } } = t.mview := rfl
    exact (tame_pawlSet.comp tame_ceilingIdle).safe (by rw [hs']; exact hs)
  unfold enterUnstaged
  simp only []
  split
  · exact key _ rfl
  · exact key _ (by rw [mview_handRetained]; rfl)

theorem safe_enterSettled {s : State} (h : s.mview.Safe) (hj : s.engine.jog = .none) :
    (enterSettled s).mview.Safe :=
  (tame_pawlSet.comp tame_ceilingIdle).safe
    ⟨setMode_core _ h.1, setMode_place hj nofun nofun nofun⟩

theorem safe_enterIdle {s : State} (h : s.mview.Safe) (hj : s.engine.jog = .none) :
    (enterIdle s).mview.Safe :=
  ⟨setMode_core _ h.1, setMode_place hj nofun nofun nofun⟩

theorem tame_holdEntry : Tame fun s => pawlSet (ceilingIdle (causeOfWithdrawal (shortStop s))) :=
  tame_pawlSet.comp (tame_ceilingIdle.comp (tame_causeOfWithdrawal.comp tame_shortStop))

theorem safe_enterHold {s : State} (h : s.mview.Safe) (hj : s.engine.jog = .none) :
    (enterHold s).mview.Safe :=
  tame_holdEntry.safe ⟨setMode_core _ h.1, setMode_place hj nofun nofun nofun⟩

theorem abortStroke_rests (s : State) : isRunning (abortStroke s).engine.stroke = false := by
  unfold abortStroke
  split
  · have h : (stopRun (Stroke.dir ‹_›) s).engine.stroke = .rest :=
      congrArg MView.stroke (mview_stopRun _ s)
    simp [h, isRunning]
  · rename_i h
    cases hs : s.engine.stroke with
    | running r n => exact absurd hs (h r n)
    | rest => rfl
    | claiming r => rfl

/-- Entry to HALTED from any state with `Core`: no jog and no running stroke is left. -/
theorem safe_enterHalted {s : State} (c : s.mview.Core) :
    (enterHalted s).mview.Safe ∧ (enterHalted s).mview.mode = .halted := by
  have c0 := setMode_core .halted c
  have j1 := tame_endJog _ c0
  have a1 := tame_abortStroke _ j1.1
  have hm : (abortStroke (endJog (setMode .halted s))).mview.mode = .halted := by
    rw [a1.2.mode, j1.2.mode, mview_setMode]
  have hp : (abortStroke (endJog (setMode .halted s))).mview.Place := by
    refine ⟨?_, ?_, ?_⟩
    · intro h
      exact absurd (endJog_jog c0) (a1.2.jog h)
    · intro h
      have : isRunning (abortStroke (endJog (setMode .halted s))).engine.stroke = true := h
      rw [abortStroke_rests] at this
      exact absurd this Bool.false_ne_true
    · intro _
      rw [hm]; exact ⟨nofun, nofun⟩
  have tail : Tame fun s => pawlSet (ceilingIdle (causeOfWithdrawal s)) :=
    tame_pawlSet.comp (tame_ceilingIdle.comp tame_causeOfWithdrawal)
  exact ⟨tail.safe ⟨a1.1, hp⟩, (tail _ a1.1).2.mode.trans hm⟩

/-! ### Occurrences and arrivals -/

theorem safe_modeOnFault (k : FaultKind) {s : State} (h : s.mview.Safe) :
    (modeOnFault k s).mview.Safe := by
  unfold modeOnFault
  split
  · split <;> simp only [mview_placeHalt, mview_recordStop]
    · exact h
    · exact h
    · exact h
    · exact (safe_enterHalted h.1).1
  · split
    · rename_i hm
      rw [mview_recordStop]
      have hm' : s.mode = .moving := by simpa using (Bool.and_eq_true_iff.mp hm).2
      refine safe_enterHold h ?_
      by_contra hj
      have := h.2.jogMode hj
      simp [State.mview, hm'] at this
    · exact h

theorem safe_reportAt (p : Place) (k : FaultKind) (n : Option Nat) {s : State} (h : s.mview.Safe) :
    (reportAt p k n s).mview.Safe := safe_modeOnFault k (by rw [mview_latchAt]; exact h)

theorem safe_report (k : FaultKind) (n : Option Nat) {s : State} (h : s.mview.Safe) :
    (report k n s).mview.Safe := safe_reportAt _ k n h

theorem safe_shareEval {s : State} (h : s.mview.Safe) : (shareEval s).mview.Safe := by
  unfold shareEval
  simp only []
  split
  · exact safe_report _ _ (by rw [mview_setActive, mview_writeShare]; exact h)
  · split
    · rw [mview_setActive, mview_writeShare]; exact h
    · rw [mview_writeShare]; exact h

theorem jog_none_of_mode {s : State} (h : s.mview.Safe) (hm : s.mode ≠ .unstaged) :
    s.engine.jog = .none := by
  by_contra hj; exact hm (h.2.jogMode hj)

theorem safe_pawlStuck {s : State} (h : s.mview.Safe) : (pawlStuck s).mview.Safe := by
  unfold pawlStuck
  exact safe_report _ _ ((tame_reportPawl .stuck).safe
    (s := { s with pawl := { s.pawl with limit := none, pendingWithdraw := false } }) h)

theorem safe_endStaging {s : State} (h : s.mview.Safe) : (endStaging s).mview.Safe := by
  unfold endStaging
  exact safe_enterUnstaged (by rw [mview_handRetained, mview_notify]; exact h)

theorem safe_handOverArrival {s : State} (h : s.mview.Safe) (hm : s.mode = .moving) :
    (handOverArrival s).mview.Safe := by
  unfold handOverArrival
  split
  · exact safe_endStaging h
  · exact safe_enterSettled h (jog_none_of_mode h (by rw [hm]; nofun))
  · exact h

theorem safe_arrive {s : State} (h : s.mview.Safe) (hm : s.mode = .moving) :
    (arrive s).mview.Safe := by
  unfold arrive
  split
  · exact safe_handOverArrival h hm
  · simp only []
    split
    · exact h
    · exact tame_pawlSet.safe (s := { s with stage := { s.stage with awaitingSet := true } }) h

theorem safe_arrivalTest {s : State} (h : s.mview.Safe) : (arrivalTest s).mview.Safe := by
  unfold arrivalTest
  split
  · split
    · rename_i hm
      simp only []
      split
      · split
        · exact safe_report _ _ (by rw [mview_markLimitReported]; exact h)
        · exact safe_arrive h hm
      · split
        · exact h
        · exact safe_report _ _ h
    · exact h
  · exact h

/-- Entry to MOVING from a safe state. -/
theorem safe_enterMoving {s : State} (h : s.mview.Safe) : (enterMoving s).mview.Safe := by
  have j := tame_endJog s h.1
  have hs : (setMode .moving (endJog s)).mview.Safe :=
    ⟨setMode_core _ j.1, setMode_place (endJog_jog h.1) nofun nofun nofun⟩
  unfold enterMoving
  simp only []
  split <;> exact safe_arrivalTest (safe_shareEval hs)

theorem safe_takeUp {s : State} (h : s.mview.Safe) : (takeUp s).mview.Safe := by
  unfold takeUp
  exact safe_enterMoving (by rw [mview_handRetained, mview_notify]; exact h)

theorem safe_stopRun {s : State} {r : Stroke} {n : Nat} (d : Direction)
    (hs : s.engine.stroke = .running r n) (h : s.mview.Safe) : (stopRun d s).mview.Safe :=
  ⟨(tame_stopRun d hs h.1).1, (tame_stopRun d hs h.1).2.place h.2⟩

end Sys2Proof.Machine
end

