-- ==== Sys2Proof/Laws/Settling.lean ====
section
/-! SUPPORT. The spacing unit, the ceiling unit and the settling of notices keep a safe state safe. -/

namespace Sys2Proof.Machine

/-! ### Stroke ends and contact -/

theorem safe_strokeTail (r : Stroke) {s : State} (h : s.mview.Safe) :
    (if s.mode = .moving then
      arrivalTest (if r.dir = .lower ∧ r.final = true then
        pawlSet (if r.kind = .nudge then { s with ceiling := { s.ceiling with nudgeDue := false } }
          else s)
        else if r.kind = .nudge then { s with ceiling := { s.ceiling with nudgeDue := false } }
          else s)
      else s).mview.Safe := by
  split
  · refine safe_arrivalTest ?_
    have h1 : (if r.kind = .nudge then { s with ceiling := { s.ceiling with nudgeDue := false } }
        else s).mview.Safe := by split <;> exact h
    split
    · exact tame_pawlSet.safe h1
    · exact h1
  · exact h

theorem safe_strokeEnd {s : State} {r q : Stroke} {n : Nat}
    (hs : s.engine.stroke = .running q n) (h : s.mview.Safe) : (strokeEnd r s).mview.Safe :=
  safe_strokeTail r (safe_stopRun r.dir hs h)

theorem safe_captureContact {s : State} {r : Stroke} {n : Nat}
    (hs : s.engine.stroke = .running r n) (h : s.mview.Safe) : (captureContact s).mview.Safe := by
  unfold captureContact
  refine safe_arrivalTest ?_
  rw [mview_handRetained, mview_notify]
  exact safe_stopRun .raise hs h

theorem safe_contactReport {s : State} (h : s.mview.Safe) : (contactReport s).mview.Safe := by
  unfold contactReport
  split
  · rename_i r n hs
    split
    · exact safe_captureContact hs h
    · exact h
  · exact h

theorem safe_contactTest {s : State} (h : s.mview.Safe) : (contactTest s).mview.Safe := by
  unfold contactTest
  split
  · exact safe_contactReport (s := { s with loadMon := { s.loadMon with watch := false } }) h
  · exact h

/-! ### Spacing unit -/

/-- A claim is queued at REST in MOVING with the slot EMPTY. -/
theorem safe_queueClaim {s : State} {r : Stroke} (h : s.mview.Safe) (ok : StrokeOk r)
    (hr : s.engine.stroke = .rest) (hm : s.mode = .moving) : (queueClaim r s).mview.Safe := by
  have hd := h.1.drive
  simp only [State.mview, hr] at hd
  have hd' : s.engine.drive = driveOf s.engine.source (.claiming r) s.engine.jog := by
    rw [hd]; cases s.engine.source <;> rfl
  refine ⟨⟨hd', h.1.source, ?_, h.1.jogPawl, ?_, ok, ?_, h.1.offer⟩, ⟨h.2.jogMode, ?_, ?_⟩⟩
  · intro hl; simp [State.mview, queueClaim, runLowers] at hl
  · intro hj; exact absurd (jog_none_of_mode h (by rw [hm]; nofun)) hj
  · simp [State.mview, queueClaim, isClaiming]
  · intro hl; simp [State.mview, queueClaim, isRunning] at hl
  · intro _
    have : (queueClaim r s).mview.mode = .moving := hm
    rw [this]; exact ⟨nofun, nofun⟩

theorem safe_tryQueue {s : State} (h : s.mview.Safe) : (tryQueue s).mview.Safe := by
  unfold tryQueue
  split
  · exact h
  · rename_i r ho
    split
    · rename_i hc
      split
      · exact safe_queueClaim h (h.1.offer r ho) hc.1 hc.2.1
      · exact h
    · exact h

/-- Setting the offer to one of right shape, or to none. -/
theorem safe_setOffer {s t : State} (h : s.mview.Safe)
    (ht : t.mview = { s.mview with offer := t.spacing.offer })
    (ok : ∀ r, t.spacing.offer = some r → StrokeOk r) : t.mview.Safe := by
  rw [ht]
  exact ⟨⟨h.1.drive, h.1.source, h.1.runPawl, h.1.jogPawl, h.1.jogRest, h.1.shape, h.1.slot, ok⟩,
    ⟨h.2.jogMode, h.2.runMode, h.2.claimMode⟩⟩

theorem safe_handOffer {s : State} (o : Option Stroke) (ok : ∀ r, o = some r → StrokeOk r)
    (h : s.mview.Safe) : (handOffer o s).mview.Safe := by
  unfold handOffer
  split
  · exact safe_setOffer h rfl (by simp)
  · rename_i r
    refine safe_tryQueue (safe_setOffer (s := s) h rfl ?_)
    intro q hq
    exact ok q (by simpa using hq)

/-! ### Ceiling unit -/

theorem safe_giveOffer {s : State} {r : Stroke} (ok : StrokeOk r) (h : s.mview.Safe) :
    (giveOffer r s).mview.Safe := by
  unfold giveOffer
  refine safe_handOffer _ ?_ ?_
  · intro q hq; cases hq; exact ok
  · exact h

theorem safe_giveWait {s : State} (w : WaitReason) (h : s.mview.Safe) :
    (giveWait w s).mview.Safe := by
  unfold giveWait
  exact safe_handOffer none nofun h

theorem safe_giveArrived {s : State} (h : s.mview.Safe) : (giveArrived s).mview.Safe := by
  unfold giveArrived
  exact safe_handOffer none nofun h

theorem safe_offerOrLead {s : State} (o : Option Stroke) (ok : ∀ r, o = some r → StrokeOk r)
    (h : s.mview.Safe) : (offerOrLead o s).mview.Safe := by
  unfold offerOrLead
  split
  · exact safe_giveOffer (ok _ rfl) h
  · exact safe_giveWait _ h

theorem strokeOk_contact (s : State) : StrokeOk (contactStroke s) := ⟨nofun, fun _ => rfl⟩

theorem strokeOk_nudge (s : State) (r : StagedRec) (h : Int) : StrokeOk (nudgeStroke s r h) :=
  ⟨nofun, fun _ => rfl⟩

/-- A chosen raising or lowering stroke is of right shape. -/
theorem strokeOk_choose {s : State} {r : StagedRec} {h d g : Int} {dir : Direction}
    (hd : dir ≠ .none) (q : Stroke) (hq : chooseStroke s r h d g dir = some q) : StrokeOk q := by
  unfold chooseStroke at hq
  split at hq
  · cases hq; exact ⟨hd, by simp [towardTarget]⟩
  · split at hq
    · cases hq; exact ⟨hd, by simp [towardTarget]⟩
    · split at hq
      · cases hq; exact ⟨hd, by simp [towardTarget]⟩
      · cases hq

theorem safe_evalTakeUp {s : State} (h : s.mview.Safe) : (evalTakeUp s).mview.Safe := by
  unfold evalTakeUp
  split
  · exact safe_report _ _ (safe_giveWait _ h)
  · split
    · exact safe_giveOffer (strokeOk_contact s) h
    · exact safe_giveWait _ h

theorem safe_evalRaise {s : State} (r : StagedRec) (x : Int) (h : s.mview.Safe) :
    (evalRaise r x s).mview.Safe := by
  unfold evalRaise
  split
  · exact safe_offerOrLead _ (strokeOk_choose nofun) h
  · exact safe_giveWait _ h

theorem safe_evalLower {s : State} (r : StagedRec) (x : Int) (h : s.mview.Safe) :
    (evalLower r x s).mview.Safe := by
  have key : (match precondition s .lowering with
      | .none => offerOrLead (chooseStroke s r x (distance s r x) (x - leadFloor s r) .lower) s
      | reason => giveWait reason s).mview.Safe := by
    split
    · exact safe_offerOrLead _ (strokeOk_choose nofun) h
    · exact safe_giveWait _ h
  unfold evalLower
  simp only []
  split
  · exact tame_pawlWithdraw.safe key
  · exact key

theorem safe_evalNudge {s : State} (r : StagedRec) (x : Int) (h : s.mview.Safe) :
    (evalNudge r x s).mview.Safe := by
  unfold evalNudge
  split
  · split
    · exact safe_evalLower r x (by rw [mview_markRelease]; exact h)
    · split
      · exact safe_giveOffer (strokeOk_nudge s r x) h
      · exact safe_giveWait _ h
  · exact safe_giveWait _ h

theorem safe_evalAtRest {s : State} (h : s.mview.Safe) : (evalAtRest s).mview.Safe := by
  unfold evalAtRest
  split
  · have h1 : (markRelease s).mview.Safe := by rw [mview_markRelease]; exact h
    simp only []
    split
    · exact safe_giveArrived h1
    · split
      · split
        · exact safe_evalNudge _ _ h1
        · exact safe_evalLower _ _ h1
      · exact safe_evalRaise _ _ h1
  · exact safe_evalTakeUp h

theorem safe_evaluate {s : State} (h : s.mview.Safe) : (evaluate s).mview.Safe := by
  unfold evaluate
  split
  · split
    · exact tame_ceilingIdle.safe h
    · simp only []
      split
      · exact h
      · refine tame_requestWithdrawal.safe ?_; exact h
    · exact safe_evalAtRest h
  · exact tame_ceilingIdle.safe h

/-! ### Settling -/

theorem safe_awaitTest {s : State} (h : s.mview.Safe) : (awaitTest s).mview.Safe := by
  unfold awaitTest
  split
  · rename_i hc
    exact safe_handOverArrival
      (s := { s with stage := { s.stage with awaitingSet := false } }) h hc.2.1
  · exact h

theorem safe_restTest {s : State} (h : s.mview.Safe) : (restTest s).mview.Safe := by
  unfold restTest
  split
  · split
    · rename_i hc
      exact safe_enterIdle h (jog_none_of_mode h (by rw [hc.1]; nofun))
    · exact h
  · exact h

theorem safe_readers {s : State} (h : s.mview.Safe) : (readers s).mview.Safe :=
  safe_evaluate (safe_restTest (safe_awaitTest (safe_shareEval h)))

theorem safe_settle (n : Nat) {s : State} (h : s.mview.Safe) : (settle n s).mview.Safe := by
  induction n generalizing s with
  | zero => exact h
  | succ n ih =>
    unfold settle
    split
    · exact ih (safe_readers (s := { s with notice := false }) h)
    · exact h

/-- What ends every command keeps a safe state safe. -/
theorem safe_finish {s : State} (h : s.mview.Safe) : (finish s).mview.Safe := by
  unfold finish
  rw [mview_refreshLamps, mview_armBusy, mview_clearNotice]
  exact safe_settle _ h

end Sys2Proof.Machine
end

