-- ==== Sys2Proof/Laws/Faults.lean ====
section
/-! SUPPORT. The fault record and the HALT slot: which operations leave them alone, what an occurrence writes,
and which kinds settling can touch. -/

namespace Sys2Proof.Machine

/-- The fault record and the HALT slot. -/
def State.record (s : State) : Vector FaultRec 16 × Option WireFrame := (s.faults, s.line.haltSlot)

theorem fault_of_record {s t : State} (h : t.record = s.record) (k : FaultKind) :
    t.fault k = s.fault k := by
  have hf : t.faults = s.faults := congrArg Prod.fst h
  simp [State.fault, hf]

/-! ### Operations that leave both alone -/

@[simp] theorem record_notify (s : State) : (notify s).record = s.record := rfl
@[simp] theorem record_requestPose (s : State) : (requestPose s).record = s.record := by
  unfold requestPose; split <;> [rfl; (split <;> rfl)]
@[simp] theorem record_withdrawNow (s : State) : (withdrawNow s).record = s.record := rfl
@[simp] theorem record_requestWithdrawal (s : State) : (requestWithdrawal s).record = s.record := by
  unfold requestWithdrawal; split <;> rfl
@[simp] theorem record_causeOfWithdrawal (s : State) :
    (causeOfWithdrawal s).record = s.record := by
  unfold causeOfWithdrawal; split <;> simp
@[simp] theorem record_stopRun (d : Direction) (s : State) : (stopRun d s).record = s.record := by
  unfold stopRun; simp; rfl
@[simp] theorem record_abortStroke (s : State) : (abortStroke s).record = s.record := by
  unfold abortStroke; split <;> simp
@[simp] theorem record_cutStroke (s : State) : (cutStroke s).record = s.record := by
  unfold cutStroke; split <;> [(split <;> simp); rfl]
@[simp] theorem record_shortStop (s : State) : (shortStop s).record = s.record := by
  unfold shortStop; split <;> [(simp; rfl); rfl]
@[simp] theorem record_dropJog (s : State) : (dropJog s).record = s.record := rfl
@[simp] theorem record_armPawlLimit (s : State) : (armPawlLimit s).record = s.record := rfl
@[simp] theorem record_disarmPawlLimit (s : State) : (disarmPawlLimit s).record = s.record := rfl
@[simp] theorem record_commandPawl (c : PawlCommand) (s : State) :
    (commandPawl c s).record = s.record := rfl
@[simp] theorem record_engineOnPawl (p : PawlState) (s : State) :
    (engineOnPawl p s).record = s.record := by
  unfold engineOnPawl
  split
  · split <;> rfl
  · simp only []
    split
    · rw [record_dropJog]; exact record_cutStroke s
    · simp
@[simp] theorem record_reportPawl (p : PawlState) (s : State) :
    (reportPawl p s).record = s.record := by
  unfold reportPawl
  simp only []
  split
  · refine (record_engineOnPawl _ _).trans ?_
    simp; rfl
  · simp; rfl
@[simp] theorem record_pawlWithdraw (s : State) : (pawlWithdraw s).record = s.record := by
  unfold pawlWithdraw
  split
  · split <;> simp; rfl
  · rfl
@[simp] theorem record_pawlSet (s : State) : (pawlSet s).record = s.record := by
  unfold pawlSet
  simp only []
  split
  · rfl
  · rfl
  · split <;> simp <;> rfl
  · simp; rfl
  · rfl
@[simp] theorem record_endJog (s : State) : (endJog s).record = s.record := by
  unfold endJog; split <;> [rfl; (split <;> simp)]
@[simp] theorem record_beginWrite (s : State) : (beginWrite s).record = s.record := rfl
@[simp] theorem record_handRetained (s : State) : (handRetained s).record = s.record := by
  unfold handRetained; simp only []; split <;> rfl
@[simp] theorem record_stageEntry (k : StageIx) (s : State) : (stageEntry k s).record = s.record := by
  unfold stageEntry; split <;> [(simp; rfl); rfl]
@[simp] theorem record_setReason (r : WaitReason) (s : State) :
    (setReason r s).record = s.record := rfl
@[simp] theorem record_ceilingIdle (s : State) : (ceilingIdle s).record = s.record := rfl
@[simp] theorem record_recordStop (m : Mode) (o : StopOrigin) (k : Option FaultKind)
    (n : Option Nat) (s : State) : (recordStop m o k n s).record = s.record := rfl
@[simp] theorem record_setMode (m : Mode) (s : State) : (setMode m s).record = s.record := by
  unfold setMode; simp; rfl
@[simp] theorem record_enterUnstaged (s : State) : (enterUnstaged s).record = s.record := by
  unfold enterUnstaged
  simp only [record_pawlSet, record_ceilingIdle]
  split
  · exact record_setMode _ s
  · exact (record_handRetained _).trans (record_setMode _ s)
@[simp] theorem record_enterSettled (s : State) : (enterSettled s).record = s.record := by
  simp [enterSettled]
@[simp] theorem record_enterIdle (s : State) : (enterIdle s).record = s.record := by simp [enterIdle]
@[simp] theorem record_enterHold (s : State) : (enterHold s).record = s.record := by simp [enterHold]
@[simp] theorem record_enterHalted (s : State) : (enterHalted s).record = s.record := by
  simp [enterHalted]
@[simp] theorem record_endStaging (s : State) : (endStaging s).record = s.record := by
  unfold endStaging; simp; rfl
@[simp] theorem record_handOverArrival (s : State) : (handOverArrival s).record = s.record := by
  unfold handOverArrival; split <;> simp
@[simp] theorem record_arrive (s : State) : (arrive s).record = s.record := by
  unfold arrive
  split
  · simp
  · simp only []
    split
    · rfl
    · simp; rfl
@[simp] theorem record_markLimitReported (s : State) : (markLimitReported s).record = s.record := by
  unfold markLimitReported; split <;> rfl
@[simp] theorem record_markRelease (s : State) : (markRelease s).record = s.record := by
  unfold markRelease; split <;> rfl
@[simp] theorem record_tryQueue (s : State) : (tryQueue s).record = s.record := by
  unfold tryQueue
  split
  · rfl
  · split
    · split <;> rfl
    · rfl
@[simp] theorem record_handOffer (o : Option Stroke) (s : State) :
    (handOffer o s).record = s.record := by
  unfold handOffer; split <;> [rfl; (simp; rfl)]
@[simp] theorem record_giveOffer (r : Stroke) (s : State) : (giveOffer r s).record = s.record := by
  unfold giveOffer; simp; rfl
@[simp] theorem record_giveWait (r : WaitReason) (s : State) : (giveWait r s).record = s.record := by
  unfold giveWait; simp; rfl
@[simp] theorem record_giveArrived (s : State) : (giveArrived s).record = s.record := by
  unfold giveArrived; simp; rfl
@[simp] theorem record_offerOrLead (o : Option Stroke) (s : State) :
    (offerOrLead o s).record = s.record := by
  unfold offerOrLead; split <;> simp
@[simp] theorem record_evalRaise (r : StagedRec) (h : Int) (s : State) :
    (evalRaise r h s).record = s.record := by
  unfold evalRaise; split <;> simp
@[simp] theorem record_evalLower (r : StagedRec) (h : Int) (s : State) :
    (evalLower r h s).record = s.record := by
  unfold evalLower; simp only []; split <;> (split <;> simp)
@[simp] theorem record_evalNudge (r : StagedRec) (h : Int) (s : State) :
    (evalNudge r h s).record = s.record := by
  unfold evalNudge
  split
  · split
    · simp; rfl
    · split <;> simp
  · simp
@[simp] theorem record_writeShare (s : State) : (writeShare s).record = s.record := rfl
@[simp] theorem record_armBusy (s : State) : (armBusy s).record = s.record := by
  unfold armBusy; split <;> rfl
@[simp] theorem record_refreshLamps (s : State) : (refreshLamps s).record = s.record := rfl
@[simp] theorem record_clearNotice (s : State) : (clearNotice s).record = s.record := rfl
@[simp] theorem record_awaitTest (s : State) : (awaitTest s).record = s.record := by
  unfold awaitTest; split <;> [(simp; rfl); rfl]
@[simp] theorem record_restTest (s : State) : (restTest s).record = s.record := by
  unfold restTest; split <;> [(split <;> simp); rfl]

/-! ### Occurrences -/

theorem fault_requestPose (k : FaultKind) (s : State) : (requestPose s).fault k = s.fault k :=
  fault_of_record (record_requestPose s) k

/-- An occurrence writes the record of its kind, at the place given, and no other. -/
theorem fault_latchAt (p : Place) (n : Option Nat) (j k : FaultKind) (s : State) :
    (latchAt p n j s).fault k = if k = j then occurred s.timeBase p n (s.fault j) else s.fault k := by
  have h : (setFault j (occurred s.timeBase p n (s.fault j)) s).fault k
      = if k = j then occurred s.timeBase p n (s.fault j) else s.fault k := by
    split
    · rename_i e; rw [e, fault_setFault_same]
    · rename_i e; exact fault_setFault_other e _ s
  unfold latchAt
  simp only []
  split
  · exact h
  · rw [fault_requestPose]; exact h

/-- What mode control does at an occurrence leaves the fault record alone. -/
theorem fault_modeOnFault (j k : FaultKind) (s : State) :
    (modeOnFault j s).fault k = s.fault k := by
  have hp : ∀ t : State, (placeHalt j t).fault k = t.fault k := by
    intro t; unfold placeHalt; split <;> [rfl; (split <;> rfl)]
  have hh : (recordStop .halted .fault (some j) none (enterHalted s)).fault k = s.fault k :=
    fault_of_record (by simp) k
  unfold modeOnFault
  split
  · split <;> rw [hp]
    exact hh
  · split
    · have hr : (recordStop .hold .fault (some j) none (enterHold s)).record = s.record := by simp
      exact fault_of_record hr k
    · rfl

/-- An occurrence writes the record of its kind, with the place given, and no other (R181). -/
theorem fault_reportAt (p : Place) (j k : FaultKind) (n : Option Nat) (s : State) :
    (reportAt p j n s).fault k
      = if k = j then occurred s.timeBase p n (s.fault j) else s.fault k := by
  unfold reportAt
  rw [fault_modeOnFault, fault_latchAt]

theorem fault_report (j k : FaultKind) (n : Option Nat) (s : State) :
    (report j n s).fault k
      = if k = j then occurred s.timeBase (placeNow s) n (s.fault j) else s.fault k :=
  fault_reportAt _ j k n s

/-- An occurrence of ENCODER after start (R124, R181). -/
theorem fault_reportEncoder (k : FaultKind) (s : State) :
    (reportEncoder s).fault k
      = if k = .encoder then occurred s.timeBase (encoderPlace s) none (s.fault .encoder)
        else s.fault k :=
  fault_reportAt _ _ k none s

theorem fault_setActive (j k : FaultKind) (on : Bool) (s : State) :
    (setActive j on s).fault k
      = if k = j then { s.fault j with active := on } else s.fault k := by
  unfold setActive
  split
  · rename_i e; rw [e, fault_setFault_same]
  · rename_i e; exact fault_setFault_other e _ s

/-! ### What settling can touch -/

theorem fault_shareEval {k : FaultKind} (h : k ≠ .loadShare) (s : State) :
    (shareEval s).fault k = s.fault k := by
  have hw : (writeShare s).fault k = s.fault k := rfl
  unfold shareEval
  simp only []
  split
  · rw [fault_report, if_neg h, fault_setActive, if_neg h, hw]
  · split
    · rw [fault_setActive, if_neg h, hw]
    · exact hw

theorem fault_evaluate {k : FaultKind} (h : k ≠ .travelLimit) (s : State) :
    (evaluate s).fault k = s.fault k := by
  unfold evaluate
  split
  · split
    · rfl
    · simp only []
      split
      · rfl
      · exact fault_of_record (by rw [record_requestWithdrawal]; rfl) k
    · unfold evalAtRest
      split
      · simp only []
        split
        · exact fault_of_record (by simp) k
        · split
          · split <;> exact fault_of_record (by simp) k
          · exact fault_of_record (by simp) k
      · unfold evalTakeUp
        split
        · rw [fault_report, if_neg h]; exact fault_of_record (by simp) k
        · split <;> exact fault_of_record (by simp) k
  · rfl

theorem fault_readers {k : FaultKind} (h1 : k ≠ .loadShare) (h2 : k ≠ .travelLimit) (s : State) :
    (readers s).fault k = s.fault k := by
  unfold readers
  rw [fault_evaluate h2]
  exact (fault_of_record (by simp) k).trans (fault_shareEval h1 s)

/-- What ends a command touches no fault record but those of LOAD_SHARE and TRAVEL_LIMIT. -/
theorem fault_finish {k : FaultKind} (h1 : k ≠ .loadShare) (h2 : k ≠ .travelLimit) (s : State) :
    (finish s).fault k = s.fault k := by
  have hs : ∀ (n : Nat) (t : State), (settle n t).fault k = t.fault k := by
    intro n
    induction n with
    | zero => intro t; rfl
    | succ n ih =>
      intro t
      unfold settle
      split
      · rw [ih, fault_readers h1 h2]; rfl
      · rfl
  have hr : (finish s).record = (settle settleRounds s).record := by simp [finish]
  exact (fault_of_record hr k).trans (hs settleRounds s)

end Sys2Proof.Machine
end

