-- ==== Sys2Proof/Laws/Leads.lean ====
section
/-! SUPPORT. What the lead terms and the admission of a queued claim say (R89, R99, R103). -/

namespace Sys2Proof.Machine

/-- A lift is within a raising term and a bound exactly when it is within each (R89). -/
theorem le_minTerm (floor : Option Int) (lead : Nat) (c z : Int) :
    z ≤ minTerm floor lead c ↔ z ≤ c ∧ ∀ m, floor = some m → z ≤ m + lead := by
  cases floor <;> simp [minTerm]

/-- A lift is within a lowering term and a bound exactly when it is within each (R89). -/
theorem maxTerm_le (floor : Option Int) (lead : Nat) (f z : Int) :
    maxTerm floor lead f ≤ z ↔ f ≤ z ∧ ∀ m, floor = some m → m - lead ≤ z := by
  cases floor <;> simp [maxTerm]

/-- A lift is within a nudge's term exactly when the floor is absent or leaves it room (R99). -/
theorem underTerm_iff (floor : Option Int) (lead : Nat) (z : Int) :
    underTerm floor lead z = true ↔ ∀ m, floor = some m → z ≤ m + lead := by
  cases floor <;> simp [underTerm]

/-- The PEERS check of a class (R94). -/
theorem peersPass_iff (s : State) (c : StrokeClass) :
    peersPass s c = true ↔
      allLive s = true ∧ peerFault s = false ∧ anyHold s = false ∧ anyHalted s = false ∧
        (c = .lowering → s.ceiling.release = true ∨ loweringReady s = true) := by
  cases c <;> simp [peersPass, and_assoc]

/-- A staged station's record, from what `stagedRec` gives. -/
theorem stagedRec_eq_some (s : State) (r : StagedRec) :
    s.stagedRec = some r ↔ s.stage.record = .staged r := by
  unfold State.stagedRec; cases s.stage.record <;> simp

/-- The class of a stroke by its kind and direction (R91). -/
theorem classOf_eq (c : Stroke) :
    classOf c =
      if c.kind = .contact then .contact else if c.kind = .nudge then .nudge
      else if c.dir = .lower then .lowering else .raising := by
  unfold classOf; cases c.kind <;> simp

/-- The end of a queued claim lies within the present lead terms of its class (R103). -/
theorem endFits_iff (s : State) (c : Stroke) :
    endFits s c = true ↔
      (c.kind ≠ .contact →
        ∃ r z, s.stage.record = .staged r ∧ c.stop = some z ∧
          (c.kind = .nudge → nudgeFits s z = true) ∧
          (c.kind ≠ .nudge → c.dir ≠ .lower → z ≤ leadCeiling s r) ∧
          (c.kind ≠ .contact ∧ c.kind ≠ .nudge ∧ c.dir = .lower → leadFloor s r ≤ z)) := by
  unfold endFits
  rw [classOf_eq]
  simp only [← stagedRec_eq_some]
  rcases s.stagedRec with _ | r <;> rcases c.stop with _ | z <;>
    by_cases hc : c.kind = .contact <;> by_cases hn : c.kind = .nudge <;>
    by_cases hd : c.dir = .lower <;> simp [hc, hn, hd]

/-- The admission test of the ceiling unit is that of R103. -/
theorem admits_iff (s : State) (c : Stroke) : admits s c = true ↔ StillAdmitted s c := by
  have lowers : classOf c = .lowering ↔ c.kind ≠ .contact ∧ c.kind ≠ .nudge ∧ c.dir = .lower := by
    rw [classOf_eq]
    by_cases hc : c.kind = .contact <;> by_cases hn : c.kind = .nudge <;>
      by_cases hd : c.dir = .lower <;> simp [hc, hn, hd]
  unfold admits StillAdmitted
  simp only [Bool.and_eq_true, peersPass_iff, endFits_iff, lowers, nudgeFits, leadCeiling, leadFloor,
    underTerm_iff, le_minTerm, maxTerm_le, and_assoc]

end Sys2Proof.Machine
end

