-- ==== Sys2Proof/Laws/Modes.lean ====
section
/-! SUPPORT. The mode: which shared operations leave it alone, and what each mode entry makes it. -/

namespace Sys2Proof.Machine

@[simp] theorem mode_notify (s : State) : (notify s).mode = s.mode := rfl
@[simp] theorem mode_requestPose (s : State) : (requestPose s).mode = s.mode := by
  unfold requestPose; split <;> [rfl; (split <;> rfl)]
@[simp] theorem mode_withdrawNow (s : State) : (withdrawNow s).mode = s.mode := rfl
@[simp] theorem mode_requestWithdrawal (s : State) : (requestWithdrawal s).mode = s.mode := by
  unfold requestWithdrawal; split <;> rfl
@[simp] theorem mode_causeOfWithdrawal (s : State) :
    (causeOfWithdrawal s).mode = s.mode := by
  unfold causeOfWithdrawal; split <;> simp
@[simp] theorem mode_stopRun (d : Direction) (s : State) : (stopRun d s).mode = s.mode := by
  unfold stopRun; simp; rfl
@[simp] theorem mode_abortStroke (s : State) : (abortStroke s).mode = s.mode := by
  unfold abortStroke; split <;> simp
@[simp] theorem mode_cutStroke (s : State) : (cutStroke s).mode = s.mode := by
  unfold cutStroke; split <;> [(split <;> simp); rfl]
@[simp] theorem mode_shortStop (s : State) : (shortStop s).mode = s.mode := by
  unfold shortStop; split <;> [(simp; rfl); rfl]
@[simp] theorem mode_dropJog (s : State) : (dropJog s).mode = s.mode := rfl
@[simp] theorem mode_armPawlLimit (s : State) : (armPawlLimit s).mode = s.mode := rfl
@[simp] theorem mode_disarmPawlLimit (s : State) : (disarmPawlLimit s).mode = s.mode := rfl
@[simp] theorem mode_commandPawl (c : PawlCommand) (s : State) :
    (commandPawl c s).mode = s.mode := rfl
@[simp] theorem mode_engineOnPawl (p : PawlState) (s : State) :
    (engineOnPawl p s).mode = s.mode := by
  unfold engineOnPawl
  split
  · split <;> rfl
  · simp only []
    split
    · rw [mode_dropJog]; exact mode_cutStroke s
    · simp
@[simp] theorem mode_reportPawl (p : PawlState) (s : State) :
    (reportPawl p s).mode = s.mode := by
  unfold reportPawl
  simp only []
  split
  · refine (mode_engineOnPawl _ _).trans ?_
    simp; rfl
  · simp; rfl
@[simp] theorem mode_pawlWithdraw (s : State) : (pawlWithdraw s).mode = s.mode := by
  unfold pawlWithdraw
  split
  · split <;> simp; rfl
  · rfl
@[simp] theorem mode_pawlSet (s : State) : (pawlSet s).mode = s.mode := by
  unfold pawlSet
  simp only []
  split
  · rfl
  · rfl
  · split <;> simp <;> rfl
  · simp; rfl
  · rfl
@[simp] theorem mode_endJog (s : State) : (endJog s).mode = s.mode := by
  unfold endJog; split <;> [rfl; (split <;> simp)]
@[simp] theorem mode_beginWrite (s : State) : (beginWrite s).mode = s.mode := rfl
@[simp] theorem mode_handRetained (s : State) : (handRetained s).mode = s.mode := by
  unfold handRetained; simp only []; split <;> rfl
@[simp] theorem mode_stageEntry (k : StageIx) (s : State) : (stageEntry k s).mode = s.mode := by
  unfold stageEntry; split <;> [(simp; rfl); rfl]
@[simp] theorem mode_setReason (r : WaitReason) (s : State) :
    (setReason r s).mode = s.mode := rfl
@[simp] theorem mode_ceilingIdle (s : State) : (ceilingIdle s).mode = s.mode := rfl
@[simp] theorem mode_recordStop (m : Mode) (o : StopOrigin) (k : Option FaultKind)
    (n : Option Nat) (s : State) : (recordStop m o k n s).mode = s.mode := rfl
@[simp] theorem mode_placeHalt (k : FaultKind) (s : State) : (placeHalt k s).mode = s.mode := by
  unfold placeHalt; split <;> [rfl; (split <;> rfl)]
@[simp] theorem mode_setFault (k : FaultKind) (r : FaultRec) (s : State) :
    (setFault k r s).mode = s.mode := rfl
@[simp] theorem mode_setActive (k : FaultKind) (on : Bool) (s : State) :
    (setActive k on s).mode = s.mode := rfl
@[simp] theorem mode_latchAt (p : Place) (n : Option Nat) (k : FaultKind) (s : State) :
    (latchAt p n k s).mode = s.mode := by
  unfold latchAt; simp only []; split <;> simp

/-! ### Mode entries -/

@[simp] theorem mode_setMode (m : Mode) (s : State) : (setMode m s).mode = m := by
  unfold setMode; rw [mode_requestPose, mode_notify]; rfl
@[simp] theorem mode_enterUnstaged (s : State) : (enterUnstaged s).mode = .unstaged := by
  unfold enterUnstaged
  simp only [mode_pawlSet, mode_ceilingIdle]
  split
  · exact mode_setMode _ s
  · exact (mode_handRetained _).trans (mode_setMode _ s)
@[simp] theorem mode_enterSettled (s : State) : (enterSettled s).mode = .settled := by
  simp [enterSettled]
@[simp] theorem mode_enterIdle (s : State) : (enterIdle s).mode = .idle := by simp [enterIdle]
@[simp] theorem mode_enterHold (s : State) : (enterHold s).mode = .hold := by simp [enterHold]
@[simp] theorem mode_enterHalted (s : State) : (enterHalted s).mode = .halted := by
  simp [enterHalted]
@[simp] theorem mode_endStaging (s : State) : (endStaging s).mode = .unstaged := by
  simp [endStaging]

/-- The mode after an occurrence of a halt-class kind, whatever place its record takes (R167, R177). -/
theorem mode_haltReportAt {k : FaultKind} (hk : haltClass k = true) (p : Place) (n : Option Nat)
    (s : State) :
    (reportAt p k n s).mode
      = if s.mode = .rollcall ∨ s.mode = .barred then s.mode else .halted := by
  have hm : (latchAt p n k s).mode = s.mode := mode_latchAt p n k s
  unfold reportAt modeOnFault
  rw [if_pos hk]
  split
  · rename_i e; rw [hm] at e; rw [mode_placeHalt, hm, e]; rfl
  · rename_i e; rw [hm] at e; rw [mode_placeHalt, hm, e]; rfl
  · rename_i e; rw [hm] at e; rw [mode_placeHalt, hm, e]; rfl
  · rename_i h1 h2 h3
    rw [hm] at h1 h2
    rw [if_neg (by rintro (e | e); exacts [h1 e, h2 e]), mode_placeHalt]
    simp

theorem mode_haltReport {k : FaultKind} (hk : haltClass k = true) (n : Option Nat) (s : State) :
    (report k n s).mode
      = if s.mode = .rollcall ∨ s.mode = .barred then s.mode else .halted :=
  mode_haltReportAt hk _ n s

/-- The mode after an occurrence of a hold-class kind (R175). -/
theorem mode_holdReport {k : FaultKind} (hk : holdClass k = true) (n : Option Nat) (s : State) :
    (report k n s).mode = if s.mode = .moving then .hold else s.mode := by
  have hm : (latchAt (placeNow s) n k s).mode = s.mode := mode_latchAt _ n k s
  have hh : haltClass k = false := by cases k <;> first | rfl | cases hk
  unfold report reportAt modeOnFault
  rw [if_neg (by rw [hh]; exact Bool.false_ne_true), hk, hm]
  by_cases e : s.mode = .moving
  · simp [e]
  · simp [e, hm]

/-- The mode after an occurrence of a roll-class or notice-class kind (R180). -/
theorem mode_otherReport {k : FaultKind} (h1 : haltClass k = false) (h2 : holdClass k = false)
    (n : Option Nat) (s : State) : (report k n s).mode = s.mode := by
  unfold report reportAt modeOnFault
  rw [h1, h2]
  exact mode_latchAt _ n k s

end Sys2Proof.Machine
end

