-- ==== Sys2Proof/Laws/State.lean ====
section
/-! SUPPORT. What each plain record update does to each block of the state, one lemma per block and update,
true by unfolding, so that no later proof unfolds an update. -/

namespace Sys2Proof.Machine

variable (s : State)

/-! ### notify -/

@[simp] theorem pending_notify : (notify s).pending = s.pending := rfl
@[simp] theorem timeBase_notify : (notify s).timeBase = s.timeBase := rfl
@[simp] theorem serial_notify : (notify s).serial = s.serial := rfl
@[simp] theorem straps_notify : (notify s).straps = s.straps := rfl
@[simp] theorem line_notify : (notify s).line = s.line := rfl
@[simp] theorem roll_notify : (notify s).roll = s.roll := rfl
@[simp] theorem settings_notify : (notify s).settings = s.settings := rfl
@[simp] theorem retained_notify : (notify s).retained = s.retained := rfl
@[simp] theorem table_notify : (notify s).table = s.table := rfl
@[simp] theorem plan_notify : (notify s).plan = s.plan := rfl
@[simp] theorem stage_notify : (notify s).stage = s.stage := rfl
@[simp] theorem ceiling_notify : (notify s).ceiling = s.ceiling := rfl
@[simp] theorem spacing_notify : (notify s).spacing = s.spacing := rfl
@[simp] theorem engine_notify : (notify s).engine = s.engine := rfl
@[simp] theorem pawl_notify : (notify s).pawl = s.pawl := rfl
@[simp] theorem loadMon_notify : (notify s).loadMon = s.loadMon := rfl
@[simp] theorem modeCtl_notify : (notify s).modeCtl = s.modeCtl := rfl
@[simp] theorem faults_notify : (notify s).faults = s.faults := rfl
@[simp] theorem pendant_notify : (notify s).pendant = s.pendant := rfl
@[simp] theorem service_notify : (notify s).service = s.service := rfl
@[simp] theorem lamps_notify : (notify s).lamps = s.lamps := rfl
@[simp] theorem notice_notify : (notify s).notice = true := rfl

/-! ### clearNotice -/

@[simp] theorem pending_clearNotice : (clearNotice s).pending = s.pending := rfl
@[simp] theorem timeBase_clearNotice : (clearNotice s).timeBase = s.timeBase := rfl
@[simp] theorem serial_clearNotice : (clearNotice s).serial = s.serial := rfl
@[simp] theorem straps_clearNotice : (clearNotice s).straps = s.straps := rfl
@[simp] theorem line_clearNotice : (clearNotice s).line = s.line := rfl
@[simp] theorem roll_clearNotice : (clearNotice s).roll = s.roll := rfl
@[simp] theorem settings_clearNotice : (clearNotice s).settings = s.settings := rfl
@[simp] theorem retained_clearNotice : (clearNotice s).retained = s.retained := rfl
@[simp] theorem table_clearNotice : (clearNotice s).table = s.table := rfl
@[simp] theorem plan_clearNotice : (clearNotice s).plan = s.plan := rfl
@[simp] theorem stage_clearNotice : (clearNotice s).stage = s.stage := rfl
@[simp] theorem ceiling_clearNotice : (clearNotice s).ceiling = s.ceiling := rfl
@[simp] theorem spacing_clearNotice : (clearNotice s).spacing = s.spacing := rfl
@[simp] theorem engine_clearNotice : (clearNotice s).engine = s.engine := rfl
@[simp] theorem pawl_clearNotice : (clearNotice s).pawl = s.pawl := rfl
@[simp] theorem loadMon_clearNotice : (clearNotice s).loadMon = s.loadMon := rfl
@[simp] theorem modeCtl_clearNotice : (clearNotice s).modeCtl = s.modeCtl := rfl
@[simp] theorem faults_clearNotice : (clearNotice s).faults = s.faults := rfl
@[simp] theorem pendant_clearNotice : (clearNotice s).pendant = s.pendant := rfl
@[simp] theorem service_clearNotice : (clearNotice s).service = s.service := rfl
@[simp] theorem lamps_clearNotice : (clearNotice s).lamps = s.lamps := rfl
@[simp] theorem notice_clearNotice : (clearNotice s).notice = false := rfl

/-! ### tick -/

@[simp] theorem pending_tick : (tick s).pending = s.pending := rfl
@[simp] theorem timeBase_tick : (tick s).timeBase = s.timeBase + 1 := rfl
@[simp] theorem serial_tick : (tick s).serial = s.serial := rfl
@[simp] theorem straps_tick : (tick s).straps = s.straps := rfl
@[simp] theorem line_tick : (tick s).line = s.line := rfl
@[simp] theorem roll_tick : (tick s).roll = s.roll := rfl
@[simp] theorem settings_tick : (tick s).settings = s.settings := rfl
@[simp] theorem retained_tick : (tick s).retained = s.retained := rfl
@[simp] theorem table_tick : (tick s).table = s.table := rfl
@[simp] theorem plan_tick : (tick s).plan = s.plan := rfl
@[simp] theorem stage_tick : (tick s).stage = s.stage := rfl
@[simp] theorem ceiling_tick : (tick s).ceiling = s.ceiling := rfl
@[simp] theorem spacing_tick : (tick s).spacing = s.spacing := rfl
@[simp] theorem engine_tick : (tick s).engine = s.engine := rfl
@[simp] theorem pawl_tick : (tick s).pawl = s.pawl := rfl
@[simp] theorem loadMon_tick : (tick s).loadMon = s.loadMon := rfl
@[simp] theorem modeCtl_tick : (tick s).modeCtl = s.modeCtl := rfl
@[simp] theorem faults_tick : (tick s).faults = s.faults := rfl
@[simp] theorem pendant_tick : (tick s).pendant = s.pendant := rfl
@[simp] theorem service_tick : (tick s).service = s.service := rfl
@[simp] theorem lamps_tick :
    (tick s).lamps = { s.lamps with flash := (s.lamps.flash + 1) % flashPeriod } := rfl
@[simp] theorem notice_tick : (tick s).notice = s.notice := rfl

/-! ### setFault -/

@[simp] theorem pending_setFault (k : FaultKind) (r : FaultRec) :
    (setFault k r s).pending = s.pending := rfl
@[simp] theorem timeBase_setFault (k : FaultKind) (r : FaultRec) :
    (setFault k r s).timeBase = s.timeBase := rfl
@[simp] theorem serial_setFault (k : FaultKind) (r : FaultRec) :
    (setFault k r s).serial = s.serial := rfl
@[simp] theorem straps_setFault (k : FaultKind) (r : FaultRec) :
    (setFault k r s).straps = s.straps := rfl
@[simp] theorem line_setFault (k : FaultKind) (r : FaultRec) : (setFault k r s).line = s.line := rfl
@[simp] theorem roll_setFault (k : FaultKind) (r : FaultRec) : (setFault k r s).roll = s.roll := rfl
@[simp] theorem settings_setFault (k : FaultKind) (r : FaultRec) :
    (setFault k r s).settings = s.settings := rfl
@[simp] theorem retained_setFault (k : FaultKind) (r : FaultRec) :
    (setFault k r s).retained = s.retained := rfl
@[simp] theorem table_setFault (k : FaultKind) (r : FaultRec) :
    (setFault k r s).table = s.table := rfl
@[simp] theorem plan_setFault (k : FaultKind) (r : FaultRec) : (setFault k r s).plan = s.plan := rfl
@[simp] theorem stage_setFault (k : FaultKind) (r : FaultRec) :
    (setFault k r s).stage = s.stage := rfl
@[simp] theorem ceiling_setFault (k : FaultKind) (r : FaultRec) :
    (setFault k r s).ceiling = s.ceiling := rfl
@[simp] theorem spacing_setFault (k : FaultKind) (r : FaultRec) :
    (setFault k r s).spacing = s.spacing := rfl
@[simp] theorem engine_setFault (k : FaultKind) (r : FaultRec) :
    (setFault k r s).engine = s.engine := rfl
@[simp] theorem pawl_setFault (k : FaultKind) (r : FaultRec) : (setFault k r s).pawl = s.pawl := rfl
@[simp] theorem loadMon_setFault (k : FaultKind) (r : FaultRec) :
    (setFault k r s).loadMon = s.loadMon := rfl
@[simp] theorem modeCtl_setFault (k : FaultKind) (r : FaultRec) :
    (setFault k r s).modeCtl = s.modeCtl := rfl
@[simp] theorem pendant_setFault (k : FaultKind) (r : FaultRec) :
    (setFault k r s).pendant = s.pendant := rfl
@[simp] theorem service_setFault (k : FaultKind) (r : FaultRec) :
    (setFault k r s).service = s.service := rfl
@[simp] theorem lamps_setFault (k : FaultKind) (r : FaultRec) :
    (setFault k r s).lamps = s.lamps := rfl
@[simp] theorem notice_setFault (k : FaultKind) (r : FaultRec) :
    (setFault k r s).notice = s.notice := rfl

/-! ### setActive -/

@[simp] theorem pending_setActive (k : FaultKind) (on : Bool) :
    (setActive k on s).pending = s.pending := rfl
@[simp] theorem timeBase_setActive (k : FaultKind) (on : Bool) :
    (setActive k on s).timeBase = s.timeBase := rfl
@[simp] theorem serial_setActive (k : FaultKind) (on : Bool) :
    (setActive k on s).serial = s.serial := rfl
@[simp] theorem straps_setActive (k : FaultKind) (on : Bool) :
    (setActive k on s).straps = s.straps := rfl
@[simp] theorem line_setActive (k : FaultKind) (on : Bool) : (setActive k on s).line = s.line := rfl
@[simp] theorem roll_setActive (k : FaultKind) (on : Bool) : (setActive k on s).roll = s.roll := rfl
@[simp] theorem settings_setActive (k : FaultKind) (on : Bool) :
    (setActive k on s).settings = s.settings := rfl
@[simp] theorem retained_setActive (k : FaultKind) (on : Bool) :
    (setActive k on s).retained = s.retained := rfl
@[simp] theorem table_setActive (k : FaultKind) (on : Bool) :
    (setActive k on s).table = s.table := rfl
@[simp] theorem plan_setActive (k : FaultKind) (on : Bool) : (setActive k on s).plan = s.plan := rfl
@[simp] theorem stage_setActive (k : FaultKind) (on : Bool) :
    (setActive k on s).stage = s.stage := rfl
@[simp] theorem ceiling_setActive (k : FaultKind) (on : Bool) :
    (setActive k on s).ceiling = s.ceiling := rfl
@[simp] theorem spacing_setActive (k : FaultKind) (on : Bool) :
    (setActive k on s).spacing = s.spacing := rfl
@[simp] theorem engine_setActive (k : FaultKind) (on : Bool) :
    (setActive k on s).engine = s.engine := rfl
@[simp] theorem pawl_setActive (k : FaultKind) (on : Bool) : (setActive k on s).pawl = s.pawl := rfl
@[simp] theorem loadMon_setActive (k : FaultKind) (on : Bool) :
    (setActive k on s).loadMon = s.loadMon := rfl
@[simp] theorem modeCtl_setActive (k : FaultKind) (on : Bool) :
    (setActive k on s).modeCtl = s.modeCtl := rfl
@[simp] theorem pendant_setActive (k : FaultKind) (on : Bool) :
    (setActive k on s).pendant = s.pendant := rfl
@[simp] theorem service_setActive (k : FaultKind) (on : Bool) :
    (setActive k on s).service = s.service := rfl
@[simp] theorem lamps_setActive (k : FaultKind) (on : Bool) :
    (setActive k on s).lamps = s.lamps := rfl
@[simp] theorem notice_setActive (k : FaultKind) (on : Bool) :
    (setActive k on s).notice = s.notice := rfl

/-! ### withdrawNow -/

@[simp] theorem pending_withdrawNow : (withdrawNow s).pending = s.pending := rfl
@[simp] theorem timeBase_withdrawNow : (withdrawNow s).timeBase = s.timeBase := rfl
@[simp] theorem serial_withdrawNow : (withdrawNow s).serial = s.serial := rfl
@[simp] theorem straps_withdrawNow : (withdrawNow s).straps = s.straps := rfl
@[simp] theorem roll_withdrawNow : (withdrawNow s).roll = s.roll := rfl
@[simp] theorem settings_withdrawNow : (withdrawNow s).settings = s.settings := rfl
@[simp] theorem retained_withdrawNow : (withdrawNow s).retained = s.retained := rfl
@[simp] theorem table_withdrawNow : (withdrawNow s).table = s.table := rfl
@[simp] theorem plan_withdrawNow : (withdrawNow s).plan = s.plan := rfl
@[simp] theorem stage_withdrawNow : (withdrawNow s).stage = s.stage := rfl
@[simp] theorem ceiling_withdrawNow : (withdrawNow s).ceiling = s.ceiling := rfl
@[simp] theorem pawl_withdrawNow : (withdrawNow s).pawl = s.pawl := rfl
@[simp] theorem loadMon_withdrawNow : (withdrawNow s).loadMon = s.loadMon := rfl
@[simp] theorem modeCtl_withdrawNow : (withdrawNow s).modeCtl = s.modeCtl := rfl
@[simp] theorem faults_withdrawNow : (withdrawNow s).faults = s.faults := rfl
@[simp] theorem pendant_withdrawNow : (withdrawNow s).pendant = s.pendant := rfl
@[simp] theorem service_withdrawNow : (withdrawNow s).service = s.service := rfl
@[simp] theorem lamps_withdrawNow : (withdrawNow s).lamps = s.lamps := rfl
@[simp] theorem notice_withdrawNow : (withdrawNow s).notice = true := rfl

/-! ### dropJog -/

@[simp] theorem pending_dropJog : (dropJog s).pending = s.pending := rfl
@[simp] theorem timeBase_dropJog : (dropJog s).timeBase = s.timeBase := rfl
@[simp] theorem serial_dropJog : (dropJog s).serial = s.serial := rfl
@[simp] theorem straps_dropJog : (dropJog s).straps = s.straps := rfl
@[simp] theorem line_dropJog : (dropJog s).line = s.line := rfl
@[simp] theorem roll_dropJog : (dropJog s).roll = s.roll := rfl
@[simp] theorem settings_dropJog : (dropJog s).settings = s.settings := rfl
@[simp] theorem retained_dropJog : (dropJog s).retained = s.retained := rfl
@[simp] theorem table_dropJog : (dropJog s).table = s.table := rfl
@[simp] theorem plan_dropJog : (dropJog s).plan = s.plan := rfl
@[simp] theorem stage_dropJog : (dropJog s).stage = s.stage := rfl
@[simp] theorem ceiling_dropJog : (dropJog s).ceiling = s.ceiling := rfl
@[simp] theorem spacing_dropJog : (dropJog s).spacing = s.spacing := rfl
@[simp] theorem pawl_dropJog : (dropJog s).pawl = s.pawl := rfl
@[simp] theorem loadMon_dropJog : (dropJog s).loadMon = s.loadMon := rfl
@[simp] theorem modeCtl_dropJog : (dropJog s).modeCtl = s.modeCtl := rfl
@[simp] theorem faults_dropJog : (dropJog s).faults = s.faults := rfl
@[simp] theorem pendant_dropJog : (dropJog s).pendant = s.pendant := rfl
@[simp] theorem service_dropJog : (dropJog s).service = s.service := rfl
@[simp] theorem lamps_dropJog : (dropJog s).lamps = s.lamps := rfl
@[simp] theorem notice_dropJog : (dropJog s).notice = s.notice := rfl

/-! ### setJog -/

@[simp] theorem pending_setJog (j : JogState) : (setJog j s).pending = s.pending := rfl
@[simp] theorem timeBase_setJog (j : JogState) : (setJog j s).timeBase = s.timeBase := rfl
@[simp] theorem serial_setJog (j : JogState) : (setJog j s).serial = s.serial := rfl
@[simp] theorem straps_setJog (j : JogState) : (setJog j s).straps = s.straps := rfl
@[simp] theorem line_setJog (j : JogState) : (setJog j s).line = s.line := rfl
@[simp] theorem roll_setJog (j : JogState) : (setJog j s).roll = s.roll := rfl
@[simp] theorem settings_setJog (j : JogState) : (setJog j s).settings = s.settings := rfl
@[simp] theorem retained_setJog (j : JogState) : (setJog j s).retained = s.retained := rfl
@[simp] theorem table_setJog (j : JogState) : (setJog j s).table = s.table := rfl
@[simp] theorem plan_setJog (j : JogState) : (setJog j s).plan = s.plan := rfl
@[simp] theorem stage_setJog (j : JogState) : (setJog j s).stage = s.stage := rfl
@[simp] theorem ceiling_setJog (j : JogState) : (setJog j s).ceiling = s.ceiling := rfl
@[simp] theorem spacing_setJog (j : JogState) : (setJog j s).spacing = s.spacing := rfl
@[simp] theorem engine_setJog (j : JogState) :
    (setJog j s).engine =
      { s.engine with jog := j, source := .jog, drive := driveOf .jog s.engine.stroke j } := rfl
@[simp] theorem pawl_setJog (j : JogState) : (setJog j s).pawl = s.pawl := rfl
@[simp] theorem loadMon_setJog (j : JogState) : (setJog j s).loadMon = s.loadMon := rfl
@[simp] theorem modeCtl_setJog (j : JogState) : (setJog j s).modeCtl = s.modeCtl := rfl
@[simp] theorem faults_setJog (j : JogState) : (setJog j s).faults = s.faults := rfl
@[simp] theorem pendant_setJog (j : JogState) : (setJog j s).pendant = s.pendant := rfl
@[simp] theorem service_setJog (j : JogState) : (setJog j s).service = s.service := rfl
@[simp] theorem lamps_setJog (j : JogState) : (setJog j s).lamps = s.lamps := rfl
@[simp] theorem notice_setJog (j : JogState) : (setJog j s).notice = s.notice := rfl

/-! ### armPawlLimit -/

@[simp] theorem pending_armPawlLimit : (armPawlLimit s).pending = s.pending := rfl
@[simp] theorem timeBase_armPawlLimit : (armPawlLimit s).timeBase = s.timeBase := rfl
@[simp] theorem serial_armPawlLimit : (armPawlLimit s).serial = s.serial := rfl
@[simp] theorem straps_armPawlLimit : (armPawlLimit s).straps = s.straps := rfl
@[simp] theorem line_armPawlLimit : (armPawlLimit s).line = s.line := rfl
@[simp] theorem roll_armPawlLimit : (armPawlLimit s).roll = s.roll := rfl
@[simp] theorem settings_armPawlLimit : (armPawlLimit s).settings = s.settings := rfl
@[simp] theorem retained_armPawlLimit : (armPawlLimit s).retained = s.retained := rfl
@[simp] theorem table_armPawlLimit : (armPawlLimit s).table = s.table := rfl
@[simp] theorem plan_armPawlLimit : (armPawlLimit s).plan = s.plan := rfl
@[simp] theorem stage_armPawlLimit : (armPawlLimit s).stage = s.stage := rfl
@[simp] theorem ceiling_armPawlLimit : (armPawlLimit s).ceiling = s.ceiling := rfl
@[simp] theorem spacing_armPawlLimit : (armPawlLimit s).spacing = s.spacing := rfl
@[simp] theorem engine_armPawlLimit : (armPawlLimit s).engine = s.engine := rfl
@[simp] theorem pawl_armPawlLimit :
    (armPawlLimit s).pawl = { s.pawl with limit := armed s.timeBase (10 * s.cfg.tpw) } := rfl
@[simp] theorem loadMon_armPawlLimit : (armPawlLimit s).loadMon = s.loadMon := rfl
@[simp] theorem modeCtl_armPawlLimit : (armPawlLimit s).modeCtl = s.modeCtl := rfl
@[simp] theorem faults_armPawlLimit : (armPawlLimit s).faults = s.faults := rfl
@[simp] theorem pendant_armPawlLimit : (armPawlLimit s).pendant = s.pendant := rfl
@[simp] theorem service_armPawlLimit : (armPawlLimit s).service = s.service := rfl
@[simp] theorem lamps_armPawlLimit : (armPawlLimit s).lamps = s.lamps := rfl
@[simp] theorem notice_armPawlLimit : (armPawlLimit s).notice = s.notice := rfl

/-! ### disarmPawlLimit -/

@[simp] theorem pending_disarmPawlLimit : (disarmPawlLimit s).pending = s.pending := rfl
@[simp] theorem timeBase_disarmPawlLimit : (disarmPawlLimit s).timeBase = s.timeBase := rfl
@[simp] theorem serial_disarmPawlLimit : (disarmPawlLimit s).serial = s.serial := rfl
@[simp] theorem straps_disarmPawlLimit : (disarmPawlLimit s).straps = s.straps := rfl
@[simp] theorem line_disarmPawlLimit : (disarmPawlLimit s).line = s.line := rfl
@[simp] theorem roll_disarmPawlLimit : (disarmPawlLimit s).roll = s.roll := rfl
@[simp] theorem settings_disarmPawlLimit : (disarmPawlLimit s).settings = s.settings := rfl
@[simp] theorem retained_disarmPawlLimit : (disarmPawlLimit s).retained = s.retained := rfl
@[simp] theorem table_disarmPawlLimit : (disarmPawlLimit s).table = s.table := rfl
@[simp] theorem plan_disarmPawlLimit : (disarmPawlLimit s).plan = s.plan := rfl
@[simp] theorem stage_disarmPawlLimit : (disarmPawlLimit s).stage = s.stage := rfl
@[simp] theorem ceiling_disarmPawlLimit : (disarmPawlLimit s).ceiling = s.ceiling := rfl
@[simp] theorem spacing_disarmPawlLimit : (disarmPawlLimit s).spacing = s.spacing := rfl
@[simp] theorem engine_disarmPawlLimit : (disarmPawlLimit s).engine = s.engine := rfl
@[simp] theorem pawl_disarmPawlLimit :
    (disarmPawlLimit s).pawl = { s.pawl with limit := none } := rfl
@[simp] theorem loadMon_disarmPawlLimit : (disarmPawlLimit s).loadMon = s.loadMon := rfl
@[simp] theorem modeCtl_disarmPawlLimit : (disarmPawlLimit s).modeCtl = s.modeCtl := rfl
@[simp] theorem faults_disarmPawlLimit : (disarmPawlLimit s).faults = s.faults := rfl
@[simp] theorem pendant_disarmPawlLimit : (disarmPawlLimit s).pendant = s.pendant := rfl
@[simp] theorem service_disarmPawlLimit : (disarmPawlLimit s).service = s.service := rfl
@[simp] theorem lamps_disarmPawlLimit : (disarmPawlLimit s).lamps = s.lamps := rfl
@[simp] theorem notice_disarmPawlLimit : (disarmPawlLimit s).notice = s.notice := rfl

/-! ### commandPawl -/

@[simp] theorem pending_commandPawl (c : PawlCommand) : (commandPawl c s).pending = s.pending := rfl
@[simp] theorem timeBase_commandPawl (c : PawlCommand) :
    (commandPawl c s).timeBase = s.timeBase := rfl
@[simp] theorem serial_commandPawl (c : PawlCommand) : (commandPawl c s).serial = s.serial := rfl
@[simp] theorem straps_commandPawl (c : PawlCommand) : (commandPawl c s).straps = s.straps := rfl
@[simp] theorem line_commandPawl (c : PawlCommand) : (commandPawl c s).line = s.line := rfl
@[simp] theorem roll_commandPawl (c : PawlCommand) : (commandPawl c s).roll = s.roll := rfl
@[simp] theorem settings_commandPawl (c : PawlCommand) :
    (commandPawl c s).settings = s.settings := rfl
@[simp] theorem retained_commandPawl (c : PawlCommand) :
    (commandPawl c s).retained = s.retained := rfl
@[simp] theorem table_commandPawl (c : PawlCommand) : (commandPawl c s).table = s.table := rfl
@[simp] theorem plan_commandPawl (c : PawlCommand) : (commandPawl c s).plan = s.plan := rfl
@[simp] theorem stage_commandPawl (c : PawlCommand) : (commandPawl c s).stage = s.stage := rfl
@[simp] theorem ceiling_commandPawl (c : PawlCommand) : (commandPawl c s).ceiling = s.ceiling := rfl
@[simp] theorem spacing_commandPawl (c : PawlCommand) : (commandPawl c s).spacing = s.spacing := rfl
@[simp] theorem engine_commandPawl (c : PawlCommand) : (commandPawl c s).engine = s.engine := rfl
@[simp] theorem pawl_commandPawl (c : PawlCommand) :
    (commandPawl c s).pawl = { s.pawl with commanded := c } := rfl
@[simp] theorem loadMon_commandPawl (c : PawlCommand) : (commandPawl c s).loadMon = s.loadMon := rfl
@[simp] theorem modeCtl_commandPawl (c : PawlCommand) : (commandPawl c s).modeCtl = s.modeCtl := rfl
@[simp] theorem faults_commandPawl (c : PawlCommand) : (commandPawl c s).faults = s.faults := rfl
@[simp] theorem pendant_commandPawl (c : PawlCommand) : (commandPawl c s).pendant = s.pendant := rfl
@[simp] theorem service_commandPawl (c : PawlCommand) : (commandPawl c s).service = s.service := rfl
@[simp] theorem lamps_commandPawl (c : PawlCommand) : (commandPawl c s).lamps = s.lamps := rfl
@[simp] theorem notice_commandPawl (c : PawlCommand) : (commandPawl c s).notice = s.notice := rfl

/-! ### beginWrite -/

@[simp] theorem pending_beginWrite : (beginWrite s).pending = s.pending := rfl
@[simp] theorem timeBase_beginWrite : (beginWrite s).timeBase = s.timeBase := rfl
@[simp] theorem serial_beginWrite : (beginWrite s).serial = s.serial := rfl
@[simp] theorem straps_beginWrite : (beginWrite s).straps = s.straps := rfl
@[simp] theorem line_beginWrite : (beginWrite s).line = s.line := rfl
@[simp] theorem roll_beginWrite : (beginWrite s).roll = s.roll := rfl
@[simp] theorem settings_beginWrite : (beginWrite s).settings = s.settings := rfl
@[simp] theorem retained_beginWrite :
    (beginWrite s).retained =
      { s.retained with marker := false, writing := some s.retained.content } := rfl
@[simp] theorem table_beginWrite : (beginWrite s).table = s.table := rfl
@[simp] theorem plan_beginWrite : (beginWrite s).plan = s.plan := rfl
@[simp] theorem stage_beginWrite : (beginWrite s).stage = s.stage := rfl
@[simp] theorem ceiling_beginWrite : (beginWrite s).ceiling = s.ceiling := rfl
@[simp] theorem spacing_beginWrite : (beginWrite s).spacing = s.spacing := rfl
@[simp] theorem engine_beginWrite : (beginWrite s).engine = s.engine := rfl
@[simp] theorem pawl_beginWrite : (beginWrite s).pawl = s.pawl := rfl
@[simp] theorem loadMon_beginWrite : (beginWrite s).loadMon = s.loadMon := rfl
@[simp] theorem modeCtl_beginWrite : (beginWrite s).modeCtl = s.modeCtl := rfl
@[simp] theorem faults_beginWrite : (beginWrite s).faults = s.faults := rfl
@[simp] theorem pendant_beginWrite : (beginWrite s).pendant = s.pendant := rfl
@[simp] theorem service_beginWrite : (beginWrite s).service = s.service := rfl
@[simp] theorem lamps_beginWrite : (beginWrite s).lamps = s.lamps := rfl
@[simp] theorem notice_beginWrite : (beginWrite s).notice = s.notice := rfl

/-! ### setReason -/

@[simp] theorem pending_setReason (r : WaitReason) : (setReason r s).pending = s.pending := rfl
@[simp] theorem timeBase_setReason (r : WaitReason) : (setReason r s).timeBase = s.timeBase := rfl
@[simp] theorem serial_setReason (r : WaitReason) : (setReason r s).serial = s.serial := rfl
@[simp] theorem straps_setReason (r : WaitReason) : (setReason r s).straps = s.straps := rfl
@[simp] theorem line_setReason (r : WaitReason) : (setReason r s).line = s.line := rfl
@[simp] theorem roll_setReason (r : WaitReason) : (setReason r s).roll = s.roll := rfl
@[simp] theorem settings_setReason (r : WaitReason) : (setReason r s).settings = s.settings := rfl
@[simp] theorem retained_setReason (r : WaitReason) : (setReason r s).retained = s.retained := rfl
@[simp] theorem table_setReason (r : WaitReason) : (setReason r s).table = s.table := rfl
@[simp] theorem plan_setReason (r : WaitReason) : (setReason r s).plan = s.plan := rfl
@[simp] theorem stage_setReason (r : WaitReason) : (setReason r s).stage = s.stage := rfl
@[simp] theorem ceiling_setReason (r : WaitReason) :
    (setReason r s).ceiling = { s.ceiling with reason := r } := rfl
@[simp] theorem spacing_setReason (r : WaitReason) : (setReason r s).spacing = s.spacing := rfl
@[simp] theorem engine_setReason (r : WaitReason) : (setReason r s).engine = s.engine := rfl
@[simp] theorem pawl_setReason (r : WaitReason) : (setReason r s).pawl = s.pawl := rfl
@[simp] theorem loadMon_setReason (r : WaitReason) : (setReason r s).loadMon = s.loadMon := rfl
@[simp] theorem modeCtl_setReason (r : WaitReason) : (setReason r s).modeCtl = s.modeCtl := rfl
@[simp] theorem faults_setReason (r : WaitReason) : (setReason r s).faults = s.faults := rfl
@[simp] theorem pendant_setReason (r : WaitReason) : (setReason r s).pendant = s.pendant := rfl
@[simp] theorem service_setReason (r : WaitReason) : (setReason r s).service = s.service := rfl
@[simp] theorem notice_setReason (r : WaitReason) : (setReason r s).notice = s.notice := rfl

/-! ### ceilingIdle -/

@[simp] theorem pending_ceilingIdle : (ceilingIdle s).pending = s.pending := rfl
@[simp] theorem timeBase_ceilingIdle : (ceilingIdle s).timeBase = s.timeBase := rfl
@[simp] theorem serial_ceilingIdle : (ceilingIdle s).serial = s.serial := rfl
@[simp] theorem straps_ceilingIdle : (ceilingIdle s).straps = s.straps := rfl
@[simp] theorem line_ceilingIdle : (ceilingIdle s).line = s.line := rfl
@[simp] theorem roll_ceilingIdle : (ceilingIdle s).roll = s.roll := rfl
@[simp] theorem settings_ceilingIdle : (ceilingIdle s).settings = s.settings := rfl
@[simp] theorem retained_ceilingIdle : (ceilingIdle s).retained = s.retained := rfl
@[simp] theorem table_ceilingIdle : (ceilingIdle s).table = s.table := rfl
@[simp] theorem plan_ceilingIdle : (ceilingIdle s).plan = s.plan := rfl
@[simp] theorem stage_ceilingIdle : (ceilingIdle s).stage = s.stage := rfl
@[simp] theorem ceiling_ceilingIdle :
    (ceilingIdle s).ceiling = { s.ceiling with outcome := .idle, reason := .none } := rfl
@[simp] theorem spacing_ceilingIdle :
    (ceilingIdle s).spacing = { s.spacing with offer := none, instant := none } := rfl
@[simp] theorem engine_ceilingIdle : (ceilingIdle s).engine = s.engine := rfl
@[simp] theorem pawl_ceilingIdle : (ceilingIdle s).pawl = s.pawl := rfl
@[simp] theorem loadMon_ceilingIdle : (ceilingIdle s).loadMon = s.loadMon := rfl
@[simp] theorem modeCtl_ceilingIdle : (ceilingIdle s).modeCtl = s.modeCtl := rfl
@[simp] theorem faults_ceilingIdle : (ceilingIdle s).faults = s.faults := rfl
@[simp] theorem pendant_ceilingIdle : (ceilingIdle s).pendant = s.pendant := rfl
@[simp] theorem service_ceilingIdle : (ceilingIdle s).service = s.service := rfl
@[simp] theorem notice_ceilingIdle : (ceilingIdle s).notice = s.notice := rfl

/-! ### recordStop -/

@[simp] theorem pending_recordStop (m : Mode) (o : StopOrigin) (k : Option FaultKind) (n : Option Nat) :
    (recordStop m o k n s).pending = s.pending := rfl
@[simp] theorem timeBase_recordStop (m : Mode) (o : StopOrigin) (k : Option FaultKind) (n : Option Nat) :
    (recordStop m o k n s).timeBase = s.timeBase := rfl
@[simp] theorem serial_recordStop (m : Mode) (o : StopOrigin) (k : Option FaultKind) (n : Option Nat) :
    (recordStop m o k n s).serial = s.serial := rfl
@[simp] theorem straps_recordStop (m : Mode) (o : StopOrigin) (k : Option FaultKind) (n : Option Nat) :
    (recordStop m o k n s).straps = s.straps := rfl
@[simp] theorem line_recordStop (m : Mode) (o : StopOrigin) (k : Option FaultKind) (n : Option Nat) :
    (recordStop m o k n s).line = s.line := rfl
@[simp] theorem roll_recordStop (m : Mode) (o : StopOrigin) (k : Option FaultKind) (n : Option Nat) :
    (recordStop m o k n s).roll = s.roll := rfl
@[simp] theorem settings_recordStop (m : Mode) (o : StopOrigin) (k : Option FaultKind) (n : Option Nat) :
    (recordStop m o k n s).settings = s.settings := rfl
@[simp] theorem retained_recordStop (m : Mode) (o : StopOrigin) (k : Option FaultKind) (n : Option Nat) :
    (recordStop m o k n s).retained = s.retained := rfl
@[simp] theorem table_recordStop (m : Mode) (o : StopOrigin) (k : Option FaultKind) (n : Option Nat) :
    (recordStop m o k n s).table = s.table := rfl
@[simp] theorem plan_recordStop (m : Mode) (o : StopOrigin) (k : Option FaultKind) (n : Option Nat) :
    (recordStop m o k n s).plan = s.plan := rfl
@[simp] theorem stage_recordStop (m : Mode) (o : StopOrigin) (k : Option FaultKind) (n : Option Nat) :
    (recordStop m o k n s).stage = s.stage := rfl
@[simp] theorem ceiling_recordStop (m : Mode) (o : StopOrigin) (k : Option FaultKind) (n : Option Nat) :
    (recordStop m o k n s).ceiling = s.ceiling := rfl
@[simp] theorem spacing_recordStop (m : Mode) (o : StopOrigin) (k : Option FaultKind) (n : Option Nat) :
    (recordStop m o k n s).spacing = s.spacing := rfl
@[simp] theorem engine_recordStop (m : Mode) (o : StopOrigin) (k : Option FaultKind) (n : Option Nat) :
    (recordStop m o k n s).engine = s.engine := rfl
@[simp] theorem pawl_recordStop (m : Mode) (o : StopOrigin) (k : Option FaultKind) (n : Option Nat) :
    (recordStop m o k n s).pawl = s.pawl := rfl
@[simp] theorem loadMon_recordStop (m : Mode) (o : StopOrigin) (k : Option FaultKind) (n : Option Nat) :
    (recordStop m o k n s).loadMon = s.loadMon := rfl
@[simp] theorem modeCtl_recordStop (m : Mode) (o : StopOrigin) (k : Option FaultKind) (n : Option Nat) :
    (recordStop m o k n s).modeCtl =
      { s.modeCtl with lastStop := some ⟨m, o, k, n, Stamp.written s.timeBase⟩ } := rfl
@[simp] theorem faults_recordStop (m : Mode) (o : StopOrigin) (k : Option FaultKind) (n : Option Nat) :
    (recordStop m o k n s).faults = s.faults := rfl
@[simp] theorem pendant_recordStop (m : Mode) (o : StopOrigin) (k : Option FaultKind) (n : Option Nat) :
    (recordStop m o k n s).pendant = s.pendant := rfl
@[simp] theorem service_recordStop (m : Mode) (o : StopOrigin) (k : Option FaultKind) (n : Option Nat) :
    (recordStop m o k n s).service = s.service := rfl
@[simp] theorem lamps_recordStop (m : Mode) (o : StopOrigin) (k : Option FaultKind) (n : Option Nat) :
    (recordStop m o k n s).lamps = s.lamps := rfl
@[simp] theorem notice_recordStop (m : Mode) (o : StopOrigin) (k : Option FaultKind) (n : Option Nat) :
    (recordStop m o k n s).notice = s.notice := rfl

/-! ### refuse -/

@[simp] theorem pending_refuse (k : RefusedKind) (r : Reason) (n : Nat) :
    (refuse k r n s).pending = s.pending := rfl
@[simp] theorem timeBase_refuse (k : RefusedKind) (r : Reason) (n : Nat) :
    (refuse k r n s).timeBase = s.timeBase := rfl
@[simp] theorem serial_refuse (k : RefusedKind) (r : Reason) (n : Nat) :
    (refuse k r n s).serial = s.serial := rfl
@[simp] theorem straps_refuse (k : RefusedKind) (r : Reason) (n : Nat) :
    (refuse k r n s).straps = s.straps := rfl
@[simp] theorem line_refuse (k : RefusedKind) (r : Reason) (n : Nat) :
    (refuse k r n s).line = s.line := rfl
@[simp] theorem roll_refuse (k : RefusedKind) (r : Reason) (n : Nat) :
    (refuse k r n s).roll = s.roll := rfl
@[simp] theorem settings_refuse (k : RefusedKind) (r : Reason) (n : Nat) :
    (refuse k r n s).settings = s.settings := rfl
@[simp] theorem retained_refuse (k : RefusedKind) (r : Reason) (n : Nat) :
    (refuse k r n s).retained = s.retained := rfl
@[simp] theorem table_refuse (k : RefusedKind) (r : Reason) (n : Nat) :
    (refuse k r n s).table = s.table := rfl
@[simp] theorem plan_refuse (k : RefusedKind) (r : Reason) (n : Nat) :
    (refuse k r n s).plan = s.plan := rfl
@[simp] theorem stage_refuse (k : RefusedKind) (r : Reason) (n : Nat) :
    (refuse k r n s).stage = s.stage := rfl
@[simp] theorem ceiling_refuse (k : RefusedKind) (r : Reason) (n : Nat) :
    (refuse k r n s).ceiling = s.ceiling := rfl
@[simp] theorem spacing_refuse (k : RefusedKind) (r : Reason) (n : Nat) :
    (refuse k r n s).spacing = s.spacing := rfl
@[simp] theorem engine_refuse (k : RefusedKind) (r : Reason) (n : Nat) :
    (refuse k r n s).engine = s.engine := rfl
@[simp] theorem pawl_refuse (k : RefusedKind) (r : Reason) (n : Nat) :
    (refuse k r n s).pawl = s.pawl := rfl
@[simp] theorem loadMon_refuse (k : RefusedKind) (r : Reason) (n : Nat) :
    (refuse k r n s).loadMon = s.loadMon := rfl
@[simp] theorem modeCtl_refuse (k : RefusedKind) (r : Reason) (n : Nat) :
    (refuse k r n s).modeCtl =
      { s.modeCtl with lastRefused := some ⟨k, r, n, Stamp.written s.timeBase⟩ } := rfl
@[simp] theorem faults_refuse (k : RefusedKind) (r : Reason) (n : Nat) :
    (refuse k r n s).faults = s.faults := rfl
@[simp] theorem pendant_refuse (k : RefusedKind) (r : Reason) (n : Nat) :
    (refuse k r n s).pendant = s.pendant := rfl
@[simp] theorem service_refuse (k : RefusedKind) (r : Reason) (n : Nat) :
    (refuse k r n s).service = s.service := rfl
@[simp] theorem lamps_refuse (k : RefusedKind) (r : Reason) (n : Nat) :
    (refuse k r n s).lamps = s.lamps := rfl
@[simp] theorem notice_refuse (k : RefusedKind) (r : Reason) (n : Nat) :
    (refuse k r n s).notice = s.notice := rfl

/-! ### queueClaim -/

@[simp] theorem pending_queueClaim (r : Stroke) : (queueClaim r s).pending = s.pending := rfl
@[simp] theorem timeBase_queueClaim (r : Stroke) : (queueClaim r s).timeBase = s.timeBase := rfl
@[simp] theorem serial_queueClaim (r : Stroke) : (queueClaim r s).serial = s.serial := rfl
@[simp] theorem straps_queueClaim (r : Stroke) : (queueClaim r s).straps = s.straps := rfl
@[simp] theorem roll_queueClaim (r : Stroke) : (queueClaim r s).roll = s.roll := rfl
@[simp] theorem settings_queueClaim (r : Stroke) : (queueClaim r s).settings = s.settings := rfl
@[simp] theorem retained_queueClaim (r : Stroke) : (queueClaim r s).retained = s.retained := rfl
@[simp] theorem table_queueClaim (r : Stroke) : (queueClaim r s).table = s.table := rfl
@[simp] theorem plan_queueClaim (r : Stroke) : (queueClaim r s).plan = s.plan := rfl
@[simp] theorem stage_queueClaim (r : Stroke) : (queueClaim r s).stage = s.stage := rfl
@[simp] theorem ceiling_queueClaim (r : Stroke) : (queueClaim r s).ceiling = s.ceiling := rfl
@[simp] theorem pawl_queueClaim (r : Stroke) : (queueClaim r s).pawl = s.pawl := rfl
@[simp] theorem loadMon_queueClaim (r : Stroke) : (queueClaim r s).loadMon = s.loadMon := rfl
@[simp] theorem modeCtl_queueClaim (r : Stroke) : (queueClaim r s).modeCtl = s.modeCtl := rfl
@[simp] theorem faults_queueClaim (r : Stroke) : (queueClaim r s).faults = s.faults := rfl
@[simp] theorem pendant_queueClaim (r : Stroke) : (queueClaim r s).pendant = s.pendant := rfl
@[simp] theorem service_queueClaim (r : Stroke) : (queueClaim r s).service = s.service := rfl
@[simp] theorem lamps_queueClaim (r : Stroke) : (queueClaim r s).lamps = s.lamps := rfl
@[simp] theorem notice_queueClaim (r : Stroke) : (queueClaim r s).notice = s.notice := rfl

/-! ### stampClaim -/

@[simp] theorem pending_stampClaim (n : Nat) : (stampClaim n s).pending = s.pending := rfl
@[simp] theorem timeBase_stampClaim (n : Nat) : (stampClaim n s).timeBase = s.timeBase := rfl
@[simp] theorem serial_stampClaim (n : Nat) : (stampClaim n s).serial = s.serial := rfl
@[simp] theorem straps_stampClaim (n : Nat) : (stampClaim n s).straps = s.straps := rfl
@[simp] theorem line_stampClaim (n : Nat) : (stampClaim n s).line = s.line := rfl
@[simp] theorem roll_stampClaim (n : Nat) : (stampClaim n s).roll = s.roll := rfl
@[simp] theorem settings_stampClaim (n : Nat) : (stampClaim n s).settings = s.settings := rfl
@[simp] theorem retained_stampClaim (n : Nat) : (stampClaim n s).retained = s.retained := rfl
@[simp] theorem table_stampClaim (n : Nat) : (stampClaim n s).table = s.table := rfl
@[simp] theorem plan_stampClaim (n : Nat) : (stampClaim n s).plan = s.plan := rfl
@[simp] theorem stage_stampClaim (n : Nat) : (stampClaim n s).stage = s.stage := rfl
@[simp] theorem ceiling_stampClaim (n : Nat) : (stampClaim n s).ceiling = s.ceiling := rfl
@[simp] theorem engine_stampClaim (n : Nat) : (stampClaim n s).engine = s.engine := rfl
@[simp] theorem pawl_stampClaim (n : Nat) : (stampClaim n s).pawl = s.pawl := rfl
@[simp] theorem loadMon_stampClaim (n : Nat) : (stampClaim n s).loadMon = s.loadMon := rfl
@[simp] theorem modeCtl_stampClaim (n : Nat) : (stampClaim n s).modeCtl = s.modeCtl := rfl
@[simp] theorem faults_stampClaim (n : Nat) : (stampClaim n s).faults = s.faults := rfl
@[simp] theorem pendant_stampClaim (n : Nat) : (stampClaim n s).pendant = s.pendant := rfl
@[simp] theorem service_stampClaim (n : Nat) : (stampClaim n s).service = s.service := rfl
@[simp] theorem lamps_stampClaim (n : Nat) : (stampClaim n s).lamps = s.lamps := rfl
@[simp] theorem notice_stampClaim (n : Nat) : (stampClaim n s).notice = s.notice := rfl

/-! ### writeShare -/

@[simp] theorem pending_writeShare : (writeShare s).pending = s.pending := rfl
@[simp] theorem timeBase_writeShare : (writeShare s).timeBase = s.timeBase := rfl
@[simp] theorem serial_writeShare : (writeShare s).serial = s.serial := rfl
@[simp] theorem straps_writeShare : (writeShare s).straps = s.straps := rfl
@[simp] theorem line_writeShare : (writeShare s).line = s.line := rfl
@[simp] theorem roll_writeShare : (writeShare s).roll = s.roll := rfl
@[simp] theorem settings_writeShare : (writeShare s).settings = s.settings := rfl
@[simp] theorem retained_writeShare : (writeShare s).retained = s.retained := rfl
@[simp] theorem table_writeShare : (writeShare s).table = s.table := rfl
@[simp] theorem plan_writeShare : (writeShare s).plan = s.plan := rfl
@[simp] theorem stage_writeShare : (writeShare s).stage = s.stage := rfl
@[simp] theorem ceiling_writeShare : (writeShare s).ceiling = s.ceiling := rfl
@[simp] theorem spacing_writeShare : (writeShare s).spacing = s.spacing := rfl
@[simp] theorem engine_writeShare : (writeShare s).engine = s.engine := rfl
@[simp] theorem pawl_writeShare : (writeShare s).pawl = s.pawl := rfl
@[simp] theorem modeCtl_writeShare : (writeShare s).modeCtl = s.modeCtl := rfl
@[simp] theorem faults_writeShare : (writeShare s).faults = s.faults := rfl
@[simp] theorem pendant_writeShare : (writeShare s).pendant = s.pendant := rfl
@[simp] theorem service_writeShare : (writeShare s).service = s.service := rfl
@[simp] theorem lamps_writeShare : (writeShare s).lamps = s.lamps := rfl
@[simp] theorem notice_writeShare : (writeShare s).notice = s.notice := rfl

/-! ### refreshLamps -/

@[simp] theorem pending_refreshLamps : (refreshLamps s).pending = s.pending := rfl
@[simp] theorem timeBase_refreshLamps : (refreshLamps s).timeBase = s.timeBase := rfl
@[simp] theorem serial_refreshLamps : (refreshLamps s).serial = s.serial := rfl
@[simp] theorem straps_refreshLamps : (refreshLamps s).straps = s.straps := rfl
@[simp] theorem line_refreshLamps : (refreshLamps s).line = s.line := rfl
@[simp] theorem roll_refreshLamps : (refreshLamps s).roll = s.roll := rfl
@[simp] theorem settings_refreshLamps : (refreshLamps s).settings = s.settings := rfl
@[simp] theorem retained_refreshLamps : (refreshLamps s).retained = s.retained := rfl
@[simp] theorem table_refreshLamps : (refreshLamps s).table = s.table := rfl
@[simp] theorem plan_refreshLamps : (refreshLamps s).plan = s.plan := rfl
@[simp] theorem stage_refreshLamps : (refreshLamps s).stage = s.stage := rfl
@[simp] theorem ceiling_refreshLamps : (refreshLamps s).ceiling = s.ceiling := rfl
@[simp] theorem spacing_refreshLamps : (refreshLamps s).spacing = s.spacing := rfl
@[simp] theorem engine_refreshLamps : (refreshLamps s).engine = s.engine := rfl
@[simp] theorem pawl_refreshLamps : (refreshLamps s).pawl = s.pawl := rfl
@[simp] theorem loadMon_refreshLamps : (refreshLamps s).loadMon = s.loadMon := rfl
@[simp] theorem modeCtl_refreshLamps : (refreshLamps s).modeCtl = s.modeCtl := rfl
@[simp] theorem faults_refreshLamps : (refreshLamps s).faults = s.faults := rfl
@[simp] theorem pendant_refreshLamps : (refreshLamps s).pendant = s.pendant := rfl
@[simp] theorem service_refreshLamps : (refreshLamps s).service = s.service := rfl
@[simp] theorem lamps_refreshLamps :
    (refreshLamps s).lamps = { s.lamps with shown := indicationOf s } := rfl
@[simp] theorem notice_refreshLamps : (refreshLamps s).notice = s.notice := rfl

/-! ### countDiscarded -/

@[simp] theorem pending_countDiscarded : (countDiscarded s).pending = s.pending := rfl
@[simp] theorem timeBase_countDiscarded : (countDiscarded s).timeBase = s.timeBase := rfl
@[simp] theorem serial_countDiscarded : (countDiscarded s).serial = s.serial := rfl
@[simp] theorem straps_countDiscarded : (countDiscarded s).straps = s.straps := rfl
@[simp] theorem line_countDiscarded :
    (countDiscarded s).line = { s.line with discarded := bump 65535 s.line.discarded } := rfl
@[simp] theorem roll_countDiscarded : (countDiscarded s).roll = s.roll := rfl
@[simp] theorem settings_countDiscarded : (countDiscarded s).settings = s.settings := rfl
@[simp] theorem retained_countDiscarded : (countDiscarded s).retained = s.retained := rfl
@[simp] theorem table_countDiscarded : (countDiscarded s).table = s.table := rfl
@[simp] theorem plan_countDiscarded : (countDiscarded s).plan = s.plan := rfl
@[simp] theorem stage_countDiscarded : (countDiscarded s).stage = s.stage := rfl
@[simp] theorem ceiling_countDiscarded : (countDiscarded s).ceiling = s.ceiling := rfl
@[simp] theorem spacing_countDiscarded : (countDiscarded s).spacing = s.spacing := rfl
@[simp] theorem engine_countDiscarded : (countDiscarded s).engine = s.engine := rfl
@[simp] theorem pawl_countDiscarded : (countDiscarded s).pawl = s.pawl := rfl
@[simp] theorem loadMon_countDiscarded : (countDiscarded s).loadMon = s.loadMon := rfl
@[simp] theorem modeCtl_countDiscarded : (countDiscarded s).modeCtl = s.modeCtl := rfl
@[simp] theorem faults_countDiscarded : (countDiscarded s).faults = s.faults := rfl
@[simp] theorem pendant_countDiscarded : (countDiscarded s).pendant = s.pendant := rfl
@[simp] theorem service_countDiscarded : (countDiscarded s).service = s.service := rfl
@[simp] theorem lamps_countDiscarded : (countDiscarded s).lamps = s.lamps := rfl
@[simp] theorem notice_countDiscarded : (countDiscarded s).notice = s.notice := rfl

/-! ### lineBusy -/

@[simp] theorem pending_lineBusy : (lineBusy s).pending = s.pending := rfl
@[simp] theorem timeBase_lineBusy : (lineBusy s).timeBase = s.timeBase := rfl
@[simp] theorem serial_lineBusy : (lineBusy s).serial = s.serial := rfl
@[simp] theorem straps_lineBusy : (lineBusy s).straps = s.straps := rfl
@[simp] theorem line_lineBusy : (lineBusy s).line = { s.line with idle := false } := rfl
@[simp] theorem roll_lineBusy : (lineBusy s).roll = s.roll := rfl
@[simp] theorem settings_lineBusy : (lineBusy s).settings = s.settings := rfl
@[simp] theorem retained_lineBusy : (lineBusy s).retained = s.retained := rfl
@[simp] theorem table_lineBusy : (lineBusy s).table = s.table := rfl
@[simp] theorem plan_lineBusy : (lineBusy s).plan = s.plan := rfl
@[simp] theorem stage_lineBusy : (lineBusy s).stage = s.stage := rfl
@[simp] theorem ceiling_lineBusy : (lineBusy s).ceiling = s.ceiling := rfl
@[simp] theorem spacing_lineBusy : (lineBusy s).spacing = s.spacing := rfl
@[simp] theorem engine_lineBusy : (lineBusy s).engine = s.engine := rfl
@[simp] theorem pawl_lineBusy : (lineBusy s).pawl = s.pawl := rfl
@[simp] theorem loadMon_lineBusy : (lineBusy s).loadMon = s.loadMon := rfl
@[simp] theorem modeCtl_lineBusy : (lineBusy s).modeCtl = s.modeCtl := rfl
@[simp] theorem faults_lineBusy : (lineBusy s).faults = s.faults := rfl
@[simp] theorem pendant_lineBusy : (lineBusy s).pendant = s.pendant := rfl
@[simp] theorem service_lineBusy : (lineBusy s).service = s.service := rfl
@[simp] theorem lamps_lineBusy : (lineBusy s).lamps = s.lamps := rfl
@[simp] theorem notice_lineBusy : (lineBusy s).notice = s.notice := rfl

/-! ### dropAttempt -/

@[simp] theorem pending_dropAttempt : (dropAttempt s).pending = s.pending := rfl
@[simp] theorem timeBase_dropAttempt : (dropAttempt s).timeBase = s.timeBase := rfl
@[simp] theorem serial_dropAttempt : (dropAttempt s).serial = s.serial := rfl
@[simp] theorem straps_dropAttempt : (dropAttempt s).straps = s.straps := rfl
@[simp] theorem roll_dropAttempt : (dropAttempt s).roll = s.roll := rfl
@[simp] theorem settings_dropAttempt : (dropAttempt s).settings = s.settings := rfl
@[simp] theorem retained_dropAttempt : (dropAttempt s).retained = s.retained := rfl
@[simp] theorem table_dropAttempt : (dropAttempt s).table = s.table := rfl
@[simp] theorem plan_dropAttempt : (dropAttempt s).plan = s.plan := rfl
@[simp] theorem stage_dropAttempt : (dropAttempt s).stage = s.stage := rfl
@[simp] theorem ceiling_dropAttempt : (dropAttempt s).ceiling = s.ceiling := rfl
@[simp] theorem spacing_dropAttempt : (dropAttempt s).spacing = s.spacing := rfl
@[simp] theorem engine_dropAttempt : (dropAttempt s).engine = s.engine := rfl
@[simp] theorem pawl_dropAttempt : (dropAttempt s).pawl = s.pawl := rfl
@[simp] theorem loadMon_dropAttempt : (dropAttempt s).loadMon = s.loadMon := rfl
@[simp] theorem modeCtl_dropAttempt : (dropAttempt s).modeCtl = s.modeCtl := rfl
@[simp] theorem faults_dropAttempt : (dropAttempt s).faults = s.faults := rfl
@[simp] theorem pendant_dropAttempt : (dropAttempt s).pendant = s.pendant := rfl
@[simp] theorem service_dropAttempt : (dropAttempt s).service = s.service := rfl
@[simp] theorem lamps_dropAttempt : (dropAttempt s).lamps = s.lamps := rfl
@[simp] theorem notice_dropAttempt : (dropAttempt s).notice = s.notice := rfl

/-! ### beginPose -/

@[simp] theorem pending_beginPose : (beginPose s).pending = s.pending := rfl
@[simp] theorem timeBase_beginPose : (beginPose s).timeBase = s.timeBase := rfl
@[simp] theorem serial_beginPose : (beginPose s).serial = s.serial := rfl
@[simp] theorem straps_beginPose : (beginPose s).straps = s.straps := rfl
@[simp] theorem roll_beginPose : (beginPose s).roll = s.roll := rfl
@[simp] theorem settings_beginPose : (beginPose s).settings = s.settings := rfl
@[simp] theorem retained_beginPose : (beginPose s).retained = s.retained := rfl
@[simp] theorem table_beginPose : (beginPose s).table = s.table := rfl
@[simp] theorem plan_beginPose : (beginPose s).plan = s.plan := rfl
@[simp] theorem stage_beginPose : (beginPose s).stage = s.stage := rfl
@[simp] theorem ceiling_beginPose : (beginPose s).ceiling = s.ceiling := rfl
@[simp] theorem spacing_beginPose : (beginPose s).spacing = s.spacing := rfl
@[simp] theorem engine_beginPose : (beginPose s).engine = s.engine := rfl
@[simp] theorem pawl_beginPose : (beginPose s).pawl = s.pawl := rfl
@[simp] theorem loadMon_beginPose : (beginPose s).loadMon = s.loadMon := rfl
@[simp] theorem modeCtl_beginPose : (beginPose s).modeCtl = s.modeCtl := rfl
@[simp] theorem faults_beginPose : (beginPose s).faults = s.faults := rfl
@[simp] theorem pendant_beginPose : (beginPose s).pendant = s.pendant := rfl
@[simp] theorem service_beginPose : (beginPose s).service = s.service := rfl
@[simp] theorem lamps_beginPose : (beginPose s).lamps = s.lamps := rfl
@[simp] theorem notice_beginPose : (beginPose s).notice = s.notice := rfl

/-! ### closeWindow -/

@[simp] theorem pending_closeWindow : (closeWindow s).pending = s.pending := rfl
@[simp] theorem timeBase_closeWindow : (closeWindow s).timeBase = s.timeBase := rfl
@[simp] theorem serial_closeWindow : (closeWindow s).serial = s.serial := rfl
@[simp] theorem straps_closeWindow : (closeWindow s).straps = s.straps := rfl
@[simp] theorem line_closeWindow : (closeWindow s).line = s.line := rfl
@[simp] theorem roll_closeWindow :
    (closeWindow s).roll = { s.roll with quiet := none, limit := none } := rfl
@[simp] theorem settings_closeWindow : (closeWindow s).settings = s.settings := rfl
@[simp] theorem retained_closeWindow : (closeWindow s).retained = s.retained := rfl
@[simp] theorem table_closeWindow : (closeWindow s).table = s.table := rfl
@[simp] theorem plan_closeWindow : (closeWindow s).plan = s.plan := rfl
@[simp] theorem stage_closeWindow : (closeWindow s).stage = s.stage := rfl
@[simp] theorem ceiling_closeWindow : (closeWindow s).ceiling = s.ceiling := rfl
@[simp] theorem spacing_closeWindow : (closeWindow s).spacing = s.spacing := rfl
@[simp] theorem engine_closeWindow : (closeWindow s).engine = s.engine := rfl
@[simp] theorem pawl_closeWindow : (closeWindow s).pawl = s.pawl := rfl
@[simp] theorem loadMon_closeWindow : (closeWindow s).loadMon = s.loadMon := rfl
@[simp] theorem modeCtl_closeWindow : (closeWindow s).modeCtl = s.modeCtl := rfl
@[simp] theorem faults_closeWindow : (closeWindow s).faults = s.faults := rfl
@[simp] theorem pendant_closeWindow : (closeWindow s).pendant = s.pendant := rfl
@[simp] theorem service_closeWindow : (closeWindow s).service = s.service := rfl
@[simp] theorem lamps_closeWindow : (closeWindow s).lamps = s.lamps := rfl
@[simp] theorem notice_closeWindow : (closeWindow s).notice = s.notice := rfl

/-! ### armQuiet -/

@[simp] theorem pending_armQuiet : (armQuiet s).pending = s.pending := rfl
@[simp] theorem timeBase_armQuiet : (armQuiet s).timeBase = s.timeBase := rfl
@[simp] theorem serial_armQuiet : (armQuiet s).serial = s.serial := rfl
@[simp] theorem straps_armQuiet : (armQuiet s).straps = s.straps := rfl
@[simp] theorem line_armQuiet : (armQuiet s).line = s.line := rfl
@[simp] theorem roll_armQuiet :
    (armQuiet s).roll = { s.roll with quiet := armed s.timeBase (10 * s.cfg.rq) } := rfl
@[simp] theorem settings_armQuiet : (armQuiet s).settings = s.settings := rfl
@[simp] theorem retained_armQuiet : (armQuiet s).retained = s.retained := rfl
@[simp] theorem table_armQuiet : (armQuiet s).table = s.table := rfl
@[simp] theorem plan_armQuiet : (armQuiet s).plan = s.plan := rfl
@[simp] theorem stage_armQuiet : (armQuiet s).stage = s.stage := rfl
@[simp] theorem ceiling_armQuiet : (armQuiet s).ceiling = s.ceiling := rfl
@[simp] theorem spacing_armQuiet : (armQuiet s).spacing = s.spacing := rfl
@[simp] theorem engine_armQuiet : (armQuiet s).engine = s.engine := rfl
@[simp] theorem pawl_armQuiet : (armQuiet s).pawl = s.pawl := rfl
@[simp] theorem loadMon_armQuiet : (armQuiet s).loadMon = s.loadMon := rfl
@[simp] theorem modeCtl_armQuiet : (armQuiet s).modeCtl = s.modeCtl := rfl
@[simp] theorem faults_armQuiet : (armQuiet s).faults = s.faults := rfl
@[simp] theorem pendant_armQuiet : (armQuiet s).pendant = s.pendant := rfl
@[simp] theorem service_armQuiet : (armQuiet s).service = s.service := rfl
@[simp] theorem lamps_armQuiet : (armQuiet s).lamps = s.lamps := rfl
@[simp] theorem notice_armQuiet : (armQuiet s).notice = s.notice := rfl

/-! ### armPacing -/

@[simp] theorem pending_armPacing : (armPacing s).pending = s.pending := rfl
@[simp] theorem timeBase_armPacing : (armPacing s).timeBase = s.timeBase := rfl
@[simp] theorem serial_armPacing : (armPacing s).serial = s.serial := rfl
@[simp] theorem straps_armPacing : (armPacing s).straps = s.straps := rfl
@[simp] theorem line_armPacing : (armPacing s).line = s.line := rfl
@[simp] theorem roll_armPacing :
    (armPacing s).roll = { s.roll with pacing := armed s.timeBase pacingUnits } := rfl
@[simp] theorem settings_armPacing : (armPacing s).settings = s.settings := rfl
@[simp] theorem retained_armPacing : (armPacing s).retained = s.retained := rfl
@[simp] theorem table_armPacing : (armPacing s).table = s.table := rfl
@[simp] theorem plan_armPacing : (armPacing s).plan = s.plan := rfl
@[simp] theorem stage_armPacing : (armPacing s).stage = s.stage := rfl
@[simp] theorem ceiling_armPacing : (armPacing s).ceiling = s.ceiling := rfl
@[simp] theorem spacing_armPacing : (armPacing s).spacing = s.spacing := rfl
@[simp] theorem engine_armPacing : (armPacing s).engine = s.engine := rfl
@[simp] theorem pawl_armPacing : (armPacing s).pawl = s.pawl := rfl
@[simp] theorem loadMon_armPacing : (armPacing s).loadMon = s.loadMon := rfl
@[simp] theorem modeCtl_armPacing : (armPacing s).modeCtl = s.modeCtl := rfl
@[simp] theorem faults_armPacing : (armPacing s).faults = s.faults := rfl
@[simp] theorem pendant_armPacing : (armPacing s).pendant = s.pendant := rfl
@[simp] theorem service_armPacing : (armPacing s).service = s.service := rfl
@[simp] theorem lamps_armPacing : (armPacing s).lamps = s.lamps := rfl
@[simp] theorem notice_armPacing : (armPacing s).notice = s.notice := rfl

/-! ### setCandidates -/

@[simp] theorem pending_setCandidates (cs : List Candidate) :
    (setCandidates cs s).pending = s.pending := rfl
@[simp] theorem timeBase_setCandidates (cs : List Candidate) :
    (setCandidates cs s).timeBase = s.timeBase := rfl
@[simp] theorem serial_setCandidates (cs : List Candidate) :
    (setCandidates cs s).serial = s.serial := rfl
@[simp] theorem straps_setCandidates (cs : List Candidate) :
    (setCandidates cs s).straps = s.straps := rfl
@[simp] theorem line_setCandidates (cs : List Candidate) : (setCandidates cs s).line = s.line := rfl
@[simp] theorem roll_setCandidates (cs : List Candidate) :
    (setCandidates cs s).roll = { s.roll with candidates := cs } := rfl
@[simp] theorem settings_setCandidates (cs : List Candidate) :
    (setCandidates cs s).settings = s.settings := rfl
@[simp] theorem retained_setCandidates (cs : List Candidate) :
    (setCandidates cs s).retained = s.retained := rfl
@[simp] theorem table_setCandidates (cs : List Candidate) :
    (setCandidates cs s).table = s.table := rfl
@[simp] theorem plan_setCandidates (cs : List Candidate) : (setCandidates cs s).plan = s.plan := rfl
@[simp] theorem stage_setCandidates (cs : List Candidate) :
    (setCandidates cs s).stage = s.stage := rfl
@[simp] theorem ceiling_setCandidates (cs : List Candidate) :
    (setCandidates cs s).ceiling = s.ceiling := rfl
@[simp] theorem spacing_setCandidates (cs : List Candidate) :
    (setCandidates cs s).spacing = s.spacing := rfl
@[simp] theorem engine_setCandidates (cs : List Candidate) :
    (setCandidates cs s).engine = s.engine := rfl
@[simp] theorem pawl_setCandidates (cs : List Candidate) : (setCandidates cs s).pawl = s.pawl := rfl
@[simp] theorem loadMon_setCandidates (cs : List Candidate) :
    (setCandidates cs s).loadMon = s.loadMon := rfl
@[simp] theorem modeCtl_setCandidates (cs : List Candidate) :
    (setCandidates cs s).modeCtl = s.modeCtl := rfl
@[simp] theorem faults_setCandidates (cs : List Candidate) :
    (setCandidates cs s).faults = s.faults := rfl
@[simp] theorem pendant_setCandidates (cs : List Candidate) :
    (setCandidates cs s).pendant = s.pendant := rfl
@[simp] theorem service_setCandidates (cs : List Candidate) :
    (setCandidates cs s).service = s.service := rfl
@[simp] theorem lamps_setCandidates (cs : List Candidate) :
    (setCandidates cs s).lamps = s.lamps := rfl
@[simp] theorem notice_setCandidates (cs : List Candidate) :
    (setCandidates cs s).notice = s.notice := rfl

/-! ### onTable -/

@[simp] theorem pending_onTable (f : PeerTable → PeerTable) :
    (onTable f s).pending = s.pending := rfl
@[simp] theorem timeBase_onTable (f : PeerTable → PeerTable) :
    (onTable f s).timeBase = s.timeBase := rfl
@[simp] theorem serial_onTable (f : PeerTable → PeerTable) : (onTable f s).serial = s.serial := rfl
@[simp] theorem straps_onTable (f : PeerTable → PeerTable) : (onTable f s).straps = s.straps := rfl
@[simp] theorem line_onTable (f : PeerTable → PeerTable) : (onTable f s).line = s.line := rfl
@[simp] theorem roll_onTable (f : PeerTable → PeerTable) : (onTable f s).roll = s.roll := rfl
@[simp] theorem settings_onTable (f : PeerTable → PeerTable) :
    (onTable f s).settings = s.settings := rfl
@[simp] theorem retained_onTable (f : PeerTable → PeerTable) :
    (onTable f s).retained = s.retained := rfl
@[simp] theorem table_onTable (f : PeerTable → PeerTable) :
    (onTable f s).table = s.table.map f := rfl
@[simp] theorem plan_onTable (f : PeerTable → PeerTable) : (onTable f s).plan = s.plan := rfl
@[simp] theorem stage_onTable (f : PeerTable → PeerTable) : (onTable f s).stage = s.stage := rfl
@[simp] theorem ceiling_onTable (f : PeerTable → PeerTable) :
    (onTable f s).ceiling = s.ceiling := rfl
@[simp] theorem spacing_onTable (f : PeerTable → PeerTable) :
    (onTable f s).spacing = s.spacing := rfl
@[simp] theorem engine_onTable (f : PeerTable → PeerTable) : (onTable f s).engine = s.engine := rfl
@[simp] theorem pawl_onTable (f : PeerTable → PeerTable) : (onTable f s).pawl = s.pawl := rfl
@[simp] theorem loadMon_onTable (f : PeerTable → PeerTable) :
    (onTable f s).loadMon = s.loadMon := rfl
@[simp] theorem modeCtl_onTable (f : PeerTable → PeerTable) :
    (onTable f s).modeCtl = s.modeCtl := rfl
@[simp] theorem faults_onTable (f : PeerTable → PeerTable) : (onTable f s).faults = s.faults := rfl
@[simp] theorem pendant_onTable (f : PeerTable → PeerTable) :
    (onTable f s).pendant = s.pendant := rfl
@[simp] theorem service_onTable (f : PeerTable → PeerTable) :
    (onTable f s).service = s.service := rfl
@[simp] theorem lamps_onTable (f : PeerTable → PeerTable) : (onTable f s).lamps = s.lamps := rfl
@[simp] theorem notice_onTable (f : PeerTable → PeerTable) : (onTable f s).notice = true := rfl

/-! ### takeClear -/

@[simp] theorem pending_takeClear : (takeClear s).pending = s.pending := rfl
@[simp] theorem timeBase_takeClear : (takeClear s).timeBase = s.timeBase := rfl
@[simp] theorem serial_takeClear : (takeClear s).serial = s.serial := rfl
@[simp] theorem straps_takeClear : (takeClear s).straps = s.straps := rfl
@[simp] theorem line_takeClear : (takeClear s).line = s.line := rfl
@[simp] theorem roll_takeClear : (takeClear s).roll = s.roll := rfl
@[simp] theorem settings_takeClear : (takeClear s).settings = s.settings := rfl
@[simp] theorem retained_takeClear : (takeClear s).retained = s.retained := rfl
@[simp] theorem table_takeClear : (takeClear s).table = s.table := rfl
@[simp] theorem plan_takeClear :
    (takeClear s).plan = { s.plan with staging := [], overrun := false } := rfl
@[simp] theorem stage_takeClear : (takeClear s).stage = s.stage := rfl
@[simp] theorem ceiling_takeClear : (takeClear s).ceiling = s.ceiling := rfl
@[simp] theorem spacing_takeClear : (takeClear s).spacing = s.spacing := rfl
@[simp] theorem engine_takeClear : (takeClear s).engine = s.engine := rfl
@[simp] theorem pawl_takeClear : (takeClear s).pawl = s.pawl := rfl
@[simp] theorem loadMon_takeClear : (takeClear s).loadMon = s.loadMon := rfl
@[simp] theorem modeCtl_takeClear : (takeClear s).modeCtl = s.modeCtl := rfl
@[simp] theorem faults_takeClear : (takeClear s).faults = s.faults := rfl
@[simp] theorem pendant_takeClear : (takeClear s).pendant = s.pendant := rfl
@[simp] theorem service_takeClear : (takeClear s).service = s.service := rfl
@[simp] theorem lamps_takeClear : (takeClear s).lamps = s.lamps := rfl
@[simp] theorem notice_takeClear : (takeClear s).notice = s.notice := rfl

/-! ### setLevels -/

@[simp] theorem pending_setLevels (f : PendantLevels → PendantLevels) :
    (setLevels f s).pending = s.pending := rfl
@[simp] theorem timeBase_setLevels (f : PendantLevels → PendantLevels) :
    (setLevels f s).timeBase = s.timeBase := rfl
@[simp] theorem serial_setLevels (f : PendantLevels → PendantLevels) :
    (setLevels f s).serial = s.serial := rfl
@[simp] theorem straps_setLevels (f : PendantLevels → PendantLevels) :
    (setLevels f s).straps = s.straps := rfl
@[simp] theorem line_setLevels (f : PendantLevels → PendantLevels) :
    (setLevels f s).line = s.line := rfl
@[simp] theorem roll_setLevels (f : PendantLevels → PendantLevels) :
    (setLevels f s).roll = s.roll := rfl
@[simp] theorem settings_setLevels (f : PendantLevels → PendantLevels) :
    (setLevels f s).settings = s.settings := rfl
@[simp] theorem retained_setLevels (f : PendantLevels → PendantLevels) :
    (setLevels f s).retained = s.retained := rfl
@[simp] theorem table_setLevels (f : PendantLevels → PendantLevels) :
    (setLevels f s).table = s.table := rfl
@[simp] theorem plan_setLevels (f : PendantLevels → PendantLevels) :
    (setLevels f s).plan = s.plan := rfl
@[simp] theorem stage_setLevels (f : PendantLevels → PendantLevels) :
    (setLevels f s).stage = s.stage := rfl
@[simp] theorem ceiling_setLevels (f : PendantLevels → PendantLevels) :
    (setLevels f s).ceiling = s.ceiling := rfl
@[simp] theorem spacing_setLevels (f : PendantLevels → PendantLevels) :
    (setLevels f s).spacing = s.spacing := rfl
@[simp] theorem engine_setLevels (f : PendantLevels → PendantLevels) :
    (setLevels f s).engine = s.engine := rfl
@[simp] theorem pawl_setLevels (f : PendantLevels → PendantLevels) :
    (setLevels f s).pawl = s.pawl := rfl
@[simp] theorem loadMon_setLevels (f : PendantLevels → PendantLevels) :
    (setLevels f s).loadMon = s.loadMon := rfl
@[simp] theorem modeCtl_setLevels (f : PendantLevels → PendantLevels) :
    (setLevels f s).modeCtl = s.modeCtl := rfl
@[simp] theorem faults_setLevels (f : PendantLevels → PendantLevels) :
    (setLevels f s).faults = s.faults := rfl
@[simp] theorem pendant_setLevels (f : PendantLevels → PendantLevels) :
    (setLevels f s).pendant = { s.pendant with levels := f s.pendant.levels } := rfl
@[simp] theorem service_setLevels (f : PendantLevels → PendantLevels) :
    (setLevels f s).service = s.service := rfl
@[simp] theorem lamps_setLevels (f : PendantLevels → PendantLevels) :
    (setLevels f s).lamps = s.lamps := rfl
@[simp] theorem notice_setLevels (f : PendantLevels → PendantLevels) :
    (setLevels f s).notice = s.notice := rfl

end Sys2Proof.Machine
end

