-- ==== Sys2Proof/Tests/Slice0.lean ====
section
/-! SUPPORT. Tests: the manual's worked examples and single commands on small states, the smoke tests of
`wellFormed`, and for each statement with hypotheses a named state and operands that meet them. Expected
values come from the manual's tables and sequences, or from its rules by hand. -/

namespace Sys2Proof.Tests

-- One theorem at a time: each kernel evaluation would otherwise hold a thread of its own.
set_option Elab.async false

open Sys2Proof Sys2Proof.Machine

/-! ### Small states -/

/-- The state that a command leads to. -/
def after (o : Host.Outcome State Fault Refusal) : State :=
  match o with
  | .next t => t
  | _ => State.reset

/-- The state after one command. -/
def run (c : Instr) (s : State) : State := after (exec c s)

/-- Marks of a LIVE row heard at 0 whose silence compare stands at 8000. -/
def liveMarks : RowMarks := ⟨.live, ⟨0, false⟩, ⟨0, true⟩, some 8000⟩

/-- A report with nothing but a mode. -/
def quietReport (m : Mode) : Report :=
  ⟨m, none, .none, none, 0, .set, none, .none, 0, 0, false⟩

/-- A LIVE row, with share weight 1 and its number as its serial. -/
def rowAt (n car feeder : Nat) (r : Report) : Row :=
  ⟨⟨n, car, feeder, 1, BitVec.ofNat 32 n⟩, r, liveMarks⟩

/-- A station 0 in a mode, with these peers, an idle line and nothing to send. -/
def group (m : Mode) (peers : List Row) : State :=
  { State.reset with
    modeCtl := ⟨m, false, none, none⟩
    table := some ⟨⟨0, 0, 0, 1, 0⟩, liveMarks, peers⟩
    roll := ⟨[], 0 :: peers.map (·.fixed.number), false, none, none, none⟩
    line := { State.reset.line with idle := true, rollPending := false, busyLimit := none } }

/-- A station 0 with one peer, station 5 of its own car and feeder group. -/
def pair (m : Mode) (r : Report) : State := group m [rowAt 5 0 0 r]

/-- The state staged with contact zero 1000 at a stage of a target, in a direction, at a lift. -/
def stagedAtLift (k : StageIx) (target : Int) (d : Direction) (h : Nat) (s : State) : State :=
  { s with
    stage := ⟨.staged ⟨1000, k, target, target, false⟩, d, false⟩
    engine := { s.engine with travel := 1000 + h, restRef := 1000 + h } }

/-- A raising stroke of the full length from lift 20 at stage 1. -/
def upStroke : Stroke := ⟨.full, .raise, 20, some 120, false, .stage 1, 100⟩

/-- A lowering stroke of the full length from lift 500 at stage 1. -/
def downStroke : Stroke := ⟨.full, .lower, 500, some 400, false, .stage 1, 100⟩

/-- A contact stroke from travel 900. -/
def contactStroke : Stroke := ⟨.contact, .raise, 900, none, false, .stage 0, 100⟩

/-- The CLAIM frame of station 0 with a precedence, for any stroke. -/
def someClaim (prec : BitVec 8) (r : Stroke) : WireFrame :=
  ⟨kindClaim, prec, 0, claimPayload (claimMsg r)⟩

/-- MOVING at stage 1 of target 5000, raising, at lift 20, with a peer that moves too. -/
def raising : State :=
  stagedAtLift (.stage 1) 5000 .raise 20 (pair .moving { quietReport .moving with lift := some 20 })

/-- A stroke in flight. -/
def flying (r : Stroke) (n : Nat) (s : State) : State :=
  { s with engine :=
      { s.engine with
        stroke := .running r n, limit := some 20000, drive := driveOf .stroke (.running r n) .none } }

/-- A claim queued, in a slot phase. -/
def queued (r : Stroke) (c : ClaimSlot) (s : State) : State :=
  { s with
    engine := { s.engine with stroke := .claiming r }
    line := { s.line with claim := c }
    spacing := { s.spacing with offer := some r, admitted := true } }

/-- An own frame on the line. -/
def sending (w : WireFrame) (s : State) : State :=
  { s with line := { s.line with attempt := some w, idle := false } }

/-- A frame operand from a station. -/
def from' (n : BitVec 6) (bs : List Byte) : RxFrame := ⟨0, n, bs⟩

/-- A POSE content with a mode, a stage and a direction. -/
def poseOf (m : Mode) (k : Option StageIx) (d : Direction) : PoseMsg :=
  ⟨m, .set, .none, false, d, .none, k, 0, 0, 0, none, none⟩

/-! ### Frames: the manual's key values and a frame bit by bit (R2 to R5) -/

/-- R5, worked example: the keys of stations 9, 21 and 4. -/
theorem test_keys :
    keyValue ⟨kindClaim, 253, 9, []⟩ = 32585 ∧ keyValue ⟨kindClaim, 255, 21, []⟩ = 32725 ∧
      keyValue ⟨kindPose, 0, 4, []⟩ = 49156 := by decide +kernel

/-- Chapter 6, worked sequence: precedences 255 and 254 after 0 and 1 withdrawals give these keys. -/
theorem test_key_of_withdrawals :
    keyValue ⟨kindClaim, BitVec.ofNat 8 (claimPrec 0), 5, []⟩ = 32709 ∧
      keyValue ⟨kindClaim, BitVec.ofNat 8 (claimPrec 1), 5, []⟩ = 32645 ∧ claimPrec 300 = 0 := by
  decide +kernel

/-- R2: after a start bit the kind's three bits come first, then precedence, station and length. -/
theorem test_body_bits :
    (bodyBits ⟨kindHalt, 0, 4, [1]⟩).map Bool.toNat =
      [0, 0, 0,  0, 0, 0, 0, 0, 0, 0, 0,  0, 0, 0, 1, 0, 0,  0, 0, 0, 1,
       0, 0, 0, 0, 0, 0, 0, 1] := by decide +kernel

/-- R2: a stuff bit follows five bits of one level and counts toward the next run. -/
theorem test_stuffing :
    stuff true 0 [false, false, false, false, false, true, true, true, true, false] =
      [false, false, false, false, false, true, true, true, true, true, false, false] := by
  decide +kernel

/-- R3: one 0 into a register of all ones shifts and inverts bits 12, 5 and 0. -/
theorem test_crc_step : crcStep 0xFFFF#16 false = 0xEFDF#16 := by decide +kernel

/-- R16: a wrong level in the delimiter ends a frame in error, and a wrong CRC bit fails the check. -/
theorem test_readings :
    let w : WireFrame := ⟨kindOrder, 0, 7, [2]⟩
    let ls := frameLevels w
    readLevels ls = .complete w ∧ readLevels (ls.take (ls.length - 1) ++ [false]) = .inError ∧
      readLevels (List.replicate 6 false) = .inError := by decide +kernel

/-- R8: a POSE payload, written out. -/
theorem test_pose_bytes :
    posePayload ⟨.moving, .withdrawn, .lower, false, .lower, .lead, some (.stage 2), 300, 55759, 0x0100,
      some (-2), some (-102)⟩ =
      [0x6A, 0xD4, 0x02, 0x01, 0x2C, 0xD9, 0xCF, 0x01, 0x00, 0xFF, 0xFF, 0xFE, 0xFF, 0xFF, 0x9A] := by
  decide +kernel

/-- R9, R7: CLAIM and ROLL payloads, written out. -/
theorem test_claim_and_roll_bytes :
    claimPayload ⟨.tail, .raise, true, .stage 2, 14930, some 15000⟩ =
      [0x4C, 0x02, 0x00, 0x3A, 0x52, 0x00, 0x3A, 0x98] ∧
    rollPayload ⟨0x01020304, 3, 2, 8, .frozen, 46656, some (.setdown, 55759)⟩ =
      [1, 2, 3, 4, 0x32, 0x81, 0xB6, 0x40, 0x9F, 0xD9, 0xCF] := by decide +kernel

/-- R16: kinds 6 and 7, a wrong length, an unlisted code, a precedence in a frame that is no CLAIM and a
number out of range each make a frame malformed. -/
theorem test_malformed :
    malformed ⟨6, 0, 1, []⟩ = true ∧ malformed ⟨7, 0, 1, []⟩ = true ∧
      malformed ⟨kindOrder, 0, 1, [1, 1]⟩ = true ∧ malformed ⟨kindOrder, 0, 1, [4]⟩ = true ∧
      malformed ⟨kindOrder, 1, 1, [1]⟩ = true ∧ malformed ⟨kindHalt, 0, 1, [6]⟩ = true ∧
      malformed ⟨kindClaim, 9, 1, claimPayload ⟨.full, .raise, false, .stage 1, 240001, some 0⟩⟩ = true ∧
      malformed ⟨kindClaim, 9, 1, claimPayload ⟨.full, .raise, false, .stage 1, 240000, some 0⟩⟩ = false := by
  decide +kernel

/-- R6: a stage code that is not listed makes a POSE and a ROLL malformed, with the presence bit or without it; a
listed code without it says nothing. -/
theorem test_unlisted_stage :
    let pose := fun code : Byte => readPose [0x40, 0, code, 0, 0, 0, 0, 0, 0]
    let roll := fun code : Byte => readRoll [0, 0, 0, 0, 0, 0x10, 0, 0, code]
    pose 17 = none ∧ pose 30 = none ∧ (pose 5).map (·.stage) = some none ∧
      roll 17 = none ∧ roll 30 = none ∧ (roll 31).map (·.summary) = some none := by decide +kernel

/-! ### Settings and plan (R24 to R26, R72, R88) -/

/-- R26, worked figure: the config tag at defaults. -/
theorem test_config_tag : configTag defaultSettings = 46656 := by decide +kernel

/-- R25, worked example: CL 40, SL 30, L 100, A 30, N 250, G_S 300. -/
theorem test_clamps :
    let stored := defaultStored.set 1 ⟨40, true⟩ |>.set 2 ⟨30, true⟩ |>.set 4 ⟨30, true⟩
      |>.set 5 ⟨250, true⟩ |>.set 8 ⟨300, true⟩
    let m := startSettings stored false
    m.inForce = { defaultSettings with cl := 40, sl := 40, l := 40, a := 19, n := 40, gs := 150 } ∧
      m.chop = 20 ∧ m.adjusted = true := by decide +kernel

/-- R24: a copy that fails its check is replaced by the default. -/
theorem test_spoilt_copy : (rangeClamped (defaultStored.set 6 ⟨300, false⟩)).d = 2000 := by
  decide +kernel

/-- R72, worked example: a three-entry plan. -/
theorem test_plan_tag :
    planTag [⟨5000, none, none⟩, ⟨60000, some 150, none⟩, ⟨61000, none, some 600⟩] = 55759 := by
  decide +kernel

/-- R88, worked example: the effective leads of a four-entry plan, and of stage 0 and SETDOWN. -/
theorem test_effective_leads :
    let s : State :=
      { State.reset with plan :=
          ⟨[], false,
            [⟨5000, none, none⟩, ⟨20000, some 0, none⟩, ⟨40000, some 3000, some 600⟩,
             ⟨45000, none, some 50⟩], 0⟩ }
    ([.stage 1, .stage 2, .stage 3, .stage 4, .stage 0, .setdown].map fun k =>
      (setLeadEff s k, carLeadEff s k)) =
      [(800, 200), (800, 100), (600, 600), (100, 100), (800, 200), (800, 200)] := by decide +kernel

/-! ### Stroke choice (R92, R94, R99, worked examples of Chapter 5) -/

/-- What an evaluation chooses: kind, start, end and final mark of an offer, or a wait reason. -/
inductive Choice where
  | stroke (k : StrokeKind) (start stop : Int) (final : Bool)
  | wait (why : WaitReason)
  deriving DecidableEq

/-- The choice that a state shows. -/
def chosen (s : State) : Choice :=
  match s.ceiling.outcome with
  | .offer o => .stroke o.kind o.start (o.stop.getD 0) o.final
  | _ => .wait s.ceiling.reason

/-- A MOVING station in a direction with contact zero 41,200 at a lift, the farthest lifts of a car-group
peer and of another peer, and a target. -/
def spread (d : Direction) (target h car set : Int) : State :=
  let pawl : PawlState := if d = .lower then .withdrawn else .set
  let peer := fun n group x =>
    rowAt n group 0 { quietReport .moving with lift := some x, pawl := pawl }
  let s := group .moving [peer 4 0 car, peer 9 1 set]
  { s with
    stage := ⟨.staged ⟨41200, .stage 2, target, target, false⟩, d, false⟩
    engine := { s.engine with travel := (41200 + h).toNat }
    pawl := { s.pawl with state := pawl }
    ceiling := { s.ceiling with release := d == .lower } }

/-- R92, worked example: raising strokes. -/
theorem test_raising_choice :
    ([(10120, 10050, 9700), (10180, 10050, 9700), (10220, 10050, 9700), (10220, 10150, 9760),
      (14897, 14850, 14400), (14930, 14850, 14400), (14930, 14780, 14400), (14980, 14780, 14400)].map
      fun x => chosen (evaluate (spread .raise 15000 x.1 x.2.1 x.2.2))) =
      [.stroke .full 10120 10220 false,
       .stroke .chop 10180 10230 false, .wait .lead,
       .stroke .full 10220 10320 false,
       .stroke .full 14897 14997 true,
       .stroke .tail 14930 15000 true,
       .stroke .chop 14930 14980 false, .wait .lead] := by decide +kernel

/-- R92, worked example: lowering strokes. -/
theorem test_lowering_choice :
    ([(9400, 9500, 9900), (9300, 9500, 9900), (9300, 9440, 9900), (9250, 9300, 10020),
      (5060, 5150, 5700)].map
      fun x => chosen (evaluate (spread .lower 5000 x.1 x.2.1 x.2.2))) =
      [.stroke .full 9400 9300 false, .wait .lead,
       .stroke .chop 9300 9250 false, .wait .lead,
       .stroke .tail 5060 5000 true] := by decide +kernel

/-- R99, worked example: the nudge of station 5. -/
theorem test_nudge :
    let s := spread .lower 5000 59998 60000 59997
    chosen (evaluate
      { s with
        ceiling := { s.ceiling with nudgeDue := true, release := false }
        pawl := { s.pawl with state := .set } }) =
      .stroke .nudge 59998 60028 false := by decide +kernel

/-! ### The share check (R161, worked examples of Chapter 9) -/

/-- Station 6 of weight 10 and load `w`, with stations 4, 5 and 7 of weights 8, 8 and 10. -/
def sharers (w l4 l5 l7 : Nat) : State :=
  let peer := fun n share load =>
    let r := rowAt n 0 0 { quietReport .moving with lift := some 0, load := load }
    { r with fixed := { r.fixed with share := share } }
  let s := stagedAtLift (.stage 1) 5000 .raise 0 (group .moving [peer 4 8 l4, peer 5 8 l5, peer 7 10 l7])
  { s with
    table := s.table.map fun t => { t with selfFixed := { t.selfFixed with share := 10 } }
    straps := { s.straps with share := 10 }
    loadMon := { s.loadMon with present := w } }

/-- R161, worked example: in band, over, under (station 7's part), and not yet active. -/
theorem test_share :
    shareOf (sharers 420 300 310 390) = .inBand ∧ shareOf (sharers 600 300 310 390) = .over ∧
      shareOf (sharers 200 300 310 420) = .under ∧ shareOf (sharers 90 60 80 70) = .inactive := by
  decide +kernel

/-- R162, worked sequence: readings 520 and then 600 at station 6. -/
theorem test_share_readings :
    let s := flying upStroke 60 (sharers 420 300 310 390)
    (run (.loadReading 520) s).loadMon.share = .inBand ∧
      (run (.loadReading 600) s).mode = .hold ∧
      (run (.loadReading 600) s).latched .loadShare = true ∧
      (run (.loadReading 600) s).active .loadShare = false := by decide +kernel

/-- R163, worked sequence: a RESUME at load 600 goes on with station 5 at 390, and with station 5 still at 310 it is a
second occurrence and HOLD. -/
theorem test_share_at_resume :
    let s := fun l5 =>
      let u := setFault .loadShare ⟨true, false, 1, none, 0⟩ (sharers 600 300 l5 470)
      run (.resume (from' 5 [])) { u with modeCtl := ⟨.hold, false, none, none⟩ }
    (s 390).mode = .moving ∧ (s 390).latched .loadShare = false ∧
      (s 310).mode = .hold ∧ ((s 310).fault .loadShare).count = 2 := by decide +kernel

/-! ### Claims, strokes and jog -/

/-- Chapter 7, worked sequence: station 0 in place of station 5, running with these counts left. -/
def shortened (h : Nat) (n : Nat) : State :=
  let s := group .moving [rowAt 4 0 0 { quietReport .moving with lift := some 10050 }]
  flying ⟨.full, .raise, 10220, some 10320, false, .stage 2, 100⟩ n
    { s with
      stage := ⟨.staged ⟨41200, .stage 2, 15000, 15000, false⟩, .raise, false⟩
      engine := { s.engine with travel := 41200 + h } }

/-- One count down, then one up, during a stroke. -/
theorem test_counts :
    (run (.countEvent false) (shortened 10280 40)).engine.stroke =
        (shortened 0 41).engine.stroke ∧
      (run (.countEvent true) (shortened 10280 40)).engine.stroke =
        (shortened 0 39).engine.stroke := by decide +kernel

/-- The STOP order at lift 10,290 leaves 4 counts to a committed end of 10,294, in HOLD. -/
theorem test_short_stop :
    let t := run (.stop (from' 4 [])) (shortened 10290 30)
    t.mode = .hold ∧ t.line.posePending = true ∧
      t.engine.stroke = .running ⟨.full, .raise, 10220, some 10294, false, .stage 2, 100⟩ 4 := by
  decide +kernel

/-- A HALT in its place ends the stroke at once. -/
theorem test_halt_aborts :
    let t := run (.haltFrame (from' 4 [0])) (shortened 10290 30)
    t.mode = .halted ∧ t.engine.stroke = .rest ∧ t.engine.drive = .off ∧
      t.engine.restRef = 51490 ∧ t.engine.dwell = some 5000 := by decide +kernel

/-- Chapter 6, worked sequence: at the compare's expiry the claim is queued with precedence 255, and a
CLAIM from the same feeder then withdraws it and arms the compare for 1,500 units. -/
theorem test_queue_and_withdraw :
    let s := { raising with
      spacing := { raising.spacing with offer := some upStroke, instant := some 0 } }
    let t := run .spacingInstantExpiry s
    let u := run (.claimFrame ⟨254, 5, claimPayload ⟨.full, .raise, false, .stage 1, 20, some 120⟩⟩) t
    t.line.claim = .waiting (someClaim 255 upStroke) ∧ u.line.claim = .empty ∧
      u.spacing.withdrawals = 1 ∧ u.spacing.instant = some 1500 := by decide +kernel

/-- R118, R126: the claim taken runs the stroke with its whole count and arms T_st. -/
theorem test_claim_taken :
    let w := someClaim 255 upStroke
    let t := run .claimTaken (sending w (queued upStroke (.committed w) raising))
    t.engine.stroke = .running upStroke 100 ∧ t.engine.limit = some 20000 ∧
      t.engine.drive = .runUp ∧ t.line.claim = .empty := by decide +kernel

/-- R124 and R181: an assertion of the error line records the travel, and of a staged station the lift with it. -/
theorem test_encoder_place :
    ((run .encoderError raising).fault .encoder).first =
        some ⟨⟨0, false⟩, .liftAndTravel 20 1020, none⟩ ∧
      ((run .encoderError (pair .unstaged (quietReport .unstaged))).fault .encoder).first =
        some ⟨⟨0, false⟩, .travel 0, none⟩ := by
  decide +kernel

/-- R191: a half of the flash that stands at the wrap of the time base lasts its 250 ms like any other. -/
theorem test_flash_wrap :
    let s := { raising with timeBase := -1, lamps := { raising.lamps with flash := 100 } }
    (tick s).timeBase = 0 ∧ (tick s).lamps.flash = 101 ∧ flashOn (tick s) = flashOn s ∧
      (tick { s with lamps := { s.lamps with flash := 4999 } }).lamps.flash = 0 :=
  ⟨rfl, rfl, rfl, rfl⟩

/-- R159: with contact taken first, the record of the OVERLOAD that the same reading begins takes the lift 0
(assumption 37). -/
theorem test_overload_after_contact :
    let s := flying contactStroke 60 { pair .moving (quietReport .moving) with
      stage := ⟨.unstaged, .raise, false⟩ }
    let s := takeReading 4095 { s with loadMon := { s.loadMon with watch := true } }
    orderOpen s = true ∧
      ((overloadTest (contactTest s)).fault .overload).first = some ⟨⟨0, false⟩, .lift 0, none⟩ := by
  decide +kernel

/-- R137, R139: JOG DOWN with the pawl SET waits for it, and runs down once it is WITHDRAWN. -/
theorem test_jog_down :
    let s := pair .unstaged (quietReport .unstaged)
    let s := { s with
      pendant := { s.pendant with levels := { s.pendant.levels with key := true } }
      engine := { s.engine with travel := 100 } }
    let t := run .jogDownPress s
    let u := run (.switchEvent .withdrawn true) (run (.switchEvent .set false) t)
    t.engine.jog = .downWait ∧ t.pawl.state = .withdrawing ∧ t.engine.drive = .off ∧
      u.engine.jog = .down ∧ u.engine.drive = .runDown := by decide +kernel

/-! ### Service port (R186 to R189) -/

/-- R186: a record is 126, kind, length, payload and a byte that makes the sum of the bytes after the start
byte 0 modulo 256; the reply to STATUS has 128 added to its kind. -/
theorem test_status_record :
    recordOf 1 [] = [126, 1, 0, 255] ∧
      ((run (.status [126, 1, 0, 255]) State.reset).service.sending.map fun r => r.take 2) =
        some [126, 129] ∧
      (run (.status [126, 1, 0, 254]) State.reset).service.sending = none := by decide +kernel

/-- R187: 10 ms after a byte of a record the record is broken off, and not before; a byte that comes later than that
finds the receiver hunting. -/
theorem test_byte_gap :
    let s := run (.status [126, 1, 0]) (pair .idle (quietReport .idle))
    let late := { s with timeBase := 100 }
    dueEvent { s with timeBase := 99 } = none ∧ dueEvent late = some .serviceByteGap ∧
      (run .serviceByteGap late).service.collecting = none ∧
      (run (.status [255]) s).service.sending.isSome = true ∧
      (run (.status [255]) late).service.sending = none := by decide +kernel

/-- R27: a value outside the parameter's range is not stored. -/
theorem test_setting_write :
    let t := run (.settingWrite (recordOf 10 [1, 0, 49])) State.reset
    let u := run (.settingWrite (recordOf 10 [1, 0, 48])) State.reset
    t.settings.stored = defaultStored ∧ u.settings.stored[0] = ⟨48, true⟩ ∧
      u.settings.inForce.m = 16 := by decide +kernel

/-! ### Smoke tests of `wellFormed`: an ill-formed command for each check, and a well-formed one -/

theorem test_wellFormed_badFrame :
    wellFormed (.badFrame (frameLevels ⟨kindOrder, 0, 7, [2]⟩)) = false ∧
      wellFormed (.badFrame [false]) = true := by decide +kernel

theorem test_wellFormed_payload :
    wellFormed (.poseFrame (from' 5 (List.replicate 16 0))) = false ∧
      wellFormed (.advance (from' 5 (List.replicate 15 0))) = false ∧
      wellFormed (.load 0 (from' 5 (List.replicate 15 0))) = false ∧
      wellFormed (.rollFrame (from' 5 (List.replicate 15 0))) = true := by decide +kernel

theorem test_wellFormed_numbers :
    wellFormed (.silenceExpiry 48) = false ∧ wellFormed (.silenceExpiry 47) = true ∧
      wellFormed (.stampExpired (.lastClaim 48)) = false ∧
      wellFormed (.stampExpired .line) = true := by decide +kernel

theorem test_wellFormed_malformedFrame :
    wellFormed (.malformedFrame ⟨kindOrder, 0, 7, [2]⟩) = false ∧
      wellFormed (.malformedFrame ⟨kindOrder, 0, 7, List.replicate 16 0⟩) = false ∧
      wellFormed (.malformedFrame ⟨kindOrder, 0, 7, [4]⟩) = true := by decide +kernel

theorem test_wellFormed_records :
    wellFormed (.status (recordOf 2 [5])) = false ∧ wellFormed (.peer [126, 2, 1, 5]) = false ∧
      wellFormed (.peer (0 :: recordOf 2 [5])) = false ∧
      wellFormed (.peer (recordOf 2 [5])) = true := by decide +kernel

theorem test_wellFormed_content :
    WellFormed.content (.plan (.load 16777216 none none)) = false ∧
      WellFormed.content (.halt .line) = false ∧
      WellFormed.content (.claim ⟨.nudge, .lower, false, .stage 1, 0, some 0⟩) = false ∧
      WellFormed.content (.claim ⟨.full, .lower, false, .stage 17, 0, some 0⟩) = false := by
  decide +kernel

/-! ### Witnesses: invariants -/

theorem own_of {s : State} {t : PeerTable} (h : s.table = some t) (h1 : t.selfFixed.number = s.own)
    (h2 : (t.peers.all fun r => r.fixed.number != s.own) = true) : TableOwn s := by
  intro u hu
  rw [h] at hu
  cases hu
  exact ⟨h1, fun r hr => by simpa using List.all_eq_true.mp h2 r hr⟩

theorem safe_at_rest {s : State} (h : s.engine.stroke = .rest) (hj : s.engine.jog = .none)
    (hs : s.engine.source = .stroke) (hd : s.engine.drive = .off) (hc : s.line.claim = .empty)
    (ho : s.spacing.offer = none) : MotionSafe s := by
  constructor <;> simp [h, hj, hs, hd, hc, ho, driveOf, State.claiming]

theorem safe_running {s : State} {r : Stroke} {n : Nat} (h : s.engine.stroke = .running r n)
    (hj : s.engine.jog = .none) (hs : s.engine.source = .stroke)
    (hd : s.engine.drive = driveOf .stroke (.running r n) .none) (hc : s.line.claim = .empty)
    (ho : s.spacing.offer = none) (hm : s.mode = .moving)
    (hp : r.dir = .lower → s.pawl.state = .withdrawn) (hr : StrokeOk r) : MotionSafe s := by
  constructor <;> simp [h, hj, hs, hd, hc, ho, hm, State.claiming, driveOf]
  · exact hp
  · exact hr

theorem safe_claiming {s : State} {r : Stroke} (h : s.engine.stroke = .claiming r)
    (hj : s.engine.jog = .none) (hs : s.engine.source = .stroke) (hd : s.engine.drive = .off)
    (hc : s.line.claim ≠ .empty) (ho : s.spacing.offer = some r) (hm : s.mode = .moving)
    (hr : StrokeOk r) : MotionSafe s := by
  constructor <;> simp_all [State.claiming, driveOf]

/-- The commands of a lowering stroke: MOVING, pawl WITHDRAWN, 60 counts left, a count down waiting. -/
def lowering : State :=
  let s := flying downStroke 60 (stagedAtLift (.stage 1) 100 .lower 460
    (pair .moving { quietReport .moving with lift := some 480, pawl := .withdrawn }))
  { s with
    pending := [.countEvent false]
    pawl := ⟨.withdrawn, .withdrawn, false, none, false, true⟩
    ceiling := { s.ceiling with release := true }
    lamps := { s.lamps with shown := .greenFlashing } }

theorem lowering_safe : MotionSafe lowering :=
  safe_running rfl rfl rfl rfl rfl rfl rfl (fun _ => rfl) ⟨nofun, nofun⟩

theorem witness_StepTakesFront_idle :
    State.reset.pending = [] ∧ dueEvent State.reset = none := by decide +kernel

theorem witness_StepTakesFront_due :
    let s := { State.reset with timeBase := 100 }
    s.pending = [] ∧ dueEvent s = some .lineBusyLimitExpiry := by decide +kernel

theorem witness_MotionSafeKept : MotionSafe lowering ∧ ∃ t, step lowering = .next t :=
  ⟨lowering_safe, _, rfl⟩

theorem witness_BoundedKept : Bounded lowering ∧ ∃ t, step lowering = .next t := by
  refine ⟨?_, _, rfl⟩
  constructor <;> try decide +kernel
  · intro r h
    cases h
    exact ⟨by decide, show 1 ≤ 16 by decide⟩
  · intro r h
    cases h
  · intro r n h
    cases h
    decide +kernel
  · intro k
    cases k <;> decide +kernel
  · exact ⟨by decide, nofun⟩
  · exact ⟨by decide, nofun⟩
  · exact ⟨⟨⟨by decide, nofun⟩, nofun⟩, ⟨⟨by decide, nofun⟩, nofun⟩, nofun⟩

theorem witness_TableKept : TableExists lowering ∧ TableOwn lowering ∧ ∃ t, step lowering = .next t :=
  ⟨⟨fun _ => ⟨nofun, nofun⟩, fun _ => rfl⟩, own_of rfl rfl rfl, _, rfl⟩

theorem witness_SettledKept : Settled lowering ∧ ∃ t, step lowering = .next t :=
  ⟨⟨rfl, rfl, rfl, nofun⟩, _, rfl⟩

/-- Each row of R191's table. -/
theorem witness_SettledKept_lamps :
    let shows := fun m => refreshLamps { raising with
      pending := [.lostArbitration], modeCtl := ⟨m, false, none, none⟩ }
    let long := refreshLamps { raising with
      pending := [.lostArbitration], lamps := { raising.lamps with waitingLong := true } }
    (∀ m, Settled (shows m) ∧ (after (step (shows m))).mode = m) ∧ Settled long ∧
      (after (step long)).mode = .moving ∧ (after (step long)).lamps.waitingLong = true :=
  ⟨fun m => by cases m <;> exact ⟨⟨rfl, rfl, rfl, nofun⟩, by decide +kernel⟩, ⟨rfl, rfl, rfl, nofun⟩,
    by decide +kernel, by decide +kernel⟩

/-! ### Witnesses: frames and START -/

theorem witness_FrameRoundTrip :
    (WireFrame.mk kindRoll 0 47 (List.replicate 15 0xFF)).payload.length ≤ 15 := by decide +kernel

theorem witness_ContentRoundTrip :
    WellFormed.content (.plan (.load 16777215 (some 65535) none)) = true ∧
      WellFormed.content (.pose ⟨.halted, .stuck, .lower, true, .lower, .spacing, some .setdown, 4095,
        65535, 65535, some (-240000), some 240000⟩) = true ∧
      WellFormed.content (.claim ⟨.contact, .raise, false, .stage 0, 240000, none⟩) = true ∧
      kindOf (.claim ⟨.contact, .raise, false, .stage 0, 240000, none⟩) = kindClaim ∧
      WellFormed.content (.roll ⟨0, 15, 7, 15, .barred, 65535, some (.stage 16, 65535)⟩) = true ∧
      WellFormed.content (.order .resume) = true ∧ WellFormed.content (.halt .pawlStuck) = true := by
  decide +kernel

/-- What a start finds with a strap for the number, at travel 0 with the pawl SET. -/
def found (n : Fin 64) : StartInputs := ⟨⟨n, 0, 0, 0⟩, 0, true, false, resetPendant, 0⟩

theorem witness_RollWindowOpens :
    (found 47).straps.number.val < 48 ∧
      (let s := { State.reset with timeBase := 2500 }
       s.mode = .rollcall ∧ due s.timeBase s.roll.pacing = true) := by decide +kernel

theorem witness_StartInvalidStrap :
    48 ≤ (found 48).straps.number.val ∧ 48 ≤ (found 63).straps.number.val := by decide +kernel

/-- Settings memory with a retained record staged at a stage of a plan of two entries. -/
def kept (marker : Bool) (k : Nat) : State :=
  { State.reset with retained :=
      { State.reset.retained with
        marker := marker
        record := ⟨some ⟨100, .stage k⟩, .raise, [⟨500, none, none⟩, ⟨900, none, none⟩]⟩ } }

theorem witness_StartReadsRetained_valid :
    (kept true 2).retained.marker = true ∧
      ¬ ∃ z k, (kept true 2).retained.record.staged = some ⟨z, .stage k⟩ ∧
        (kept true 2).retained.record.plan.length < k := by
  refine ⟨rfl, ?_⟩
  rintro ⟨z, k, h, hk⟩
  cases h
  exact absurd hk (by decide +kernel)

theorem witness_StartReadsRetained_outOfPlan :
    (kept true 3).retained.marker = true ∧
      ∃ z k, (kept true 3).retained.record.staged = some ⟨z, .stage k⟩ ∧
        (kept true 3).retained.record.plan.length < k :=
  ⟨rfl, 100, 3, rfl, by decide +kernel⟩

theorem witness_StartReadsRetained_spoilt : (kept false 2).retained.marker = false := rfl

/-! ### Witnesses: the line controller -/

theorem witness_StartBitOffersFirstPlace :
    let s := queued upStroke (.waiting (someClaim 255 upStroke)) raising
    s.line.attempt = none ∧ s.line.haltSlot = none ∧ s.notice = false := by decide +kernel

theorem witness_ArbitrationEnds_lost :
    let s := sending (someClaim 255 upStroke)
      (queued upStroke (.contending (someClaim 255 upStroke) false) raising)
    s.line.attempt.isSome = true ∧ (∀ w, s.line.claim ≠ .committed w) ∧
      (∀ w, s.line.claim ≠ .contending w true) ∧ Calm s :=
  ⟨rfl, nofun, nofun, .inr rfl⟩

theorem witness_ArbitrationEnds_heldWithdrawal :
    let s := sending (someClaim 255 upStroke)
      (queued upStroke (.contending (someClaim 255 upStroke) true) (pair .hold (quietReport .hold)))
    s.line.attempt.isSome = true ∧ (∀ w, s.line.claim ≠ .committed w) ∧ Quiet s ∧
      s.line.claim = .contending (someClaim 255 upStroke) true :=
  ⟨rfl, nofun, ⟨nofun, nofun⟩, rfl⟩

/-- A withdrawal held in MOVING: the claim is withdrawn, and a fresh one is queued at once, one step lower. -/
theorem witness_ArbitrationEnds_movingWithdrawal :
    let s := sending (someClaim 255 upStroke)
      (queued upStroke (.contending (someClaim 255 upStroke) true) raising)
    let t := run .lostArbitration s
    s.line.attempt.isSome = true ∧ s.line.claim = .contending (someClaim 255 upStroke) true ∧
      t.spacing.withdrawals = 1 ∧ t.mode = .moving ∧
      (∃ w, t.line.claim = .waiting w ∧ w.prec = 254) :=
  ⟨rfl, rfl, by decide +kernel, by decide +kernel, _, rfl, rfl⟩

theorem witness_ArbitrationEnds_won :
    let s := sending (someClaim 255 upStroke)
      (queued upStroke (.contending (someClaim 255 upStroke) true) raising)
    s.line.attempt.isSome = true ∧ s.line.claim = .contending (someClaim 255 upStroke) true ∧
      Calm s :=
  ⟨rfl, rfl, .inr rfl⟩

theorem witness_TransmitFailures_other :
    let s := sending ⟨kindOrder, 0, 0, [0]⟩ raising
    s.line.attempt.isSome = true ∧ Calm s ∧ s.line.failures ≠ 15 ∧
      (∀ w h, s.line.claim ≠ .contending w h) ∧ (∀ w, s.line.claim ≠ .committed w) :=
  ⟨rfl, .inr rfl, nofun, nofun, nofun⟩

theorem witness_TransmitFailures_claimStands :
    let s := sending (someClaim 255 upStroke)
      (queued upStroke (.committed (someClaim 255 upStroke)) raising)
    s.line.attempt.isSome = true ∧ Calm s ∧ s.line.failures ≠ 15 ∧
      s.line.claim = .committed (someClaim 255 upStroke) ∧ s.spacing.held = false ∧
      s.mode = .moving ∧ s.spacing.admitted = true :=
  ⟨rfl, .inr rfl, nofun, rfl, rfl, rfl, rfl⟩

theorem witness_TransmitFailures_withdrawn :
    let s := sending (someClaim 255 upStroke)
      (queued upStroke (.committed (someClaim 255 upStroke)) (pair .hold (quietReport .hold)))
    s.line.attempt.isSome = true ∧ Quiet s ∧ s.line.failures ≠ 15 ∧
      s.line.claim = .committed (someClaim 255 upStroke) :=
  ⟨rfl, ⟨nofun, nofun⟩, nofun, rfl⟩

/-- In MOVING, a claim that is withdrawn at a bit error: one with its mark set, and one no longer admitted. -/
theorem witness_TransmitFailures_movingWithdrawal :
    let s := sending (someClaim 255 upStroke)
      (queued upStroke (.committed (someClaim 255 upStroke)) raising)
    let marked := { s with spacing := { s.spacing with held := true } }
    let refused := { s with spacing := { s.spacing with admitted := false } }
    s.line.attempt.isSome = true ∧ s.line.claim = .committed (someClaim 255 upStroke) ∧
      s.mode = .moving ∧ (run .bitError marked).spacing.withdrawals = 1 ∧
      (run .bitError refused).spacing.withdrawals = 1 ∧ (run .bitError s).spacing.withdrawals = 0 := by
  decide +kernel

theorem witness_TransmitFailures_busy :
    let s := { State.reset with timeBase := 100 }
    due s.timeBase s.line.busyLimit = true ∧ Calm s ∧ s.line.failures ≠ 15 :=
  ⟨by decide +kernel, .inr rfl, nofun⟩

theorem witness_LineFaultAtSixteen :
    let s := sending ⟨kindOrder, 0, 0, [0]⟩ raising
    let u := { s with line := { s.line with failures := 15, busyLimit := some 0 } }
    u.line.failures = 15 ∧ u.line.attempt.isSome = true ∧
      due u.timeBase u.line.busyLimit = true := by decide +kernel

theorem witness_FramesNotDelivered_bad :
    ∀ w, readLevels (List.replicate 6 false) ≠ .complete w := by
  have h : readLevels (List.replicate 6 false) = .inError := by decide +kernel
  intro w
  rw [h]
  nofun

theorem witness_FramesNotDelivered_malformed :
    let w : WireFrame := ⟨kindOrder, 0, 5, [0, 0]⟩
    malformed w = true ∧ isOwnAttempt raising w = false ∧ raising.notice = false ∧
      frameOf (.advance (from' 5 [0])) = some w := by decide +kernel

theorem witness_FramesNotDelivered_stranger :
    let w : WireFrame := ⟨kindOrder, 0, 6, [0]⟩
    malformed w = false ∧ isOwnAttempt raising w = false ∧
      frameOf (.advance (from' 6 [])) = some w ∧ isMember raising 6 = false := by decide +kernel

theorem witness_FramesNotDelivered_rollcall :
    let w : WireFrame := ⟨kindOrder, 0, 5, [0]⟩
    malformed w = false ∧ isOwnAttempt State.reset w = false ∧
      frameOf (.advance (from' 5 [])) = some w ∧ State.reset.mode = .rollcall := by decide +kernel

theorem witness_OwnFrames :
    let w : WireFrame := ⟨kindOrder, 0, 0, [0]⟩
    frameOf (.advance (from' 0 [])) = some w ∧ isOwnAttempt (sending w raising) w = true ∧
      w.kind ≠ kindClaim := by decide +kernel

theorem witness_OwnFrames_pose :
    let m := poseOf .unstaged none .none
    let f := from' 0 (posePayload m)
    let s := sending (wire kindPose f) (pair .unstaged (quietReport .unstaged))
    isOwnAttempt s (wire kindPose f) = true ∧ f.prec = 0 ∧ readPose f.payload = some m ∧
      f.station.toNat = s.own ∧ s.mode ≠ .rollcall ∧ s.mode ≠ .barred ∧ s.table.isSome = true ∧
      TableOwn s ∧ Quiet s :=
  ⟨by decide +kernel, rfl, by decide +kernel, rfl, nofun, nofun, rfl, own_of rfl rfl rfl, nofun, nofun⟩

theorem witness_OwnFrames_barred :
    let m := poseOf .barred none .none
    let f := from' 0 (posePayload m)
    let s := sending (wire kindPose f) { State.reset with modeCtl := ⟨.barred, false, none, none⟩ }
    isOwnAttempt s (wire kindPose f) = true ∧ f.prec = 0 ∧ readPose f.payload = some m ∧
      s.mode = .barred ∧ (run (.poseFrame f) s).line.posePeriod = some 2000 := by decide +kernel

theorem witness_OwnFrames_halt :
    let w : WireFrame := ⟨kindHalt, 0, 0, [0]⟩
    let s := sending w { raising with line := { raising.line with haltSlot := some w } }
    frameOf (.haltFrame (from' 0 [0])) = some w ∧ isOwnAttempt s w = true ∧ w.kind ≠ kindClaim ∧
      s.line.haltSlot = some w ∧ (run (.haltFrame (from' 0 [0])) s).line.haltSlot = none ∧
      (run (.advance (from' 0 []))
        (sending ⟨kindOrder, 0, 0, [0]⟩ s)).line.haltSlot = some w := by decide +kernel

/-- An own ROLL after freeze and in ROLLCALL, asked for again while it is sent in the first and not in the second. -/
theorem witness_OwnFrames_roll :
    let m : RollMsg := ⟨0, 0, 0, 1, .frozen, 0, none⟩
    let f := from' 0 (rollPayload m)
    let s := sending (wire kindRoll f) { raising with
      line := { raising.line with rollPending := true, rollAgain := true } }
    let m' : RollMsg := { m with mode := .rollcall, tag := State.reset.settings.tag }
    let f' := from' 0 (rollPayload m')
    let u := sending (wire kindRoll f') State.reset
    isOwnAttempt s (wire kindRoll f) = true ∧ f.prec = 0 ∧ readRoll f.payload = some m ∧
      f.station.toNat = s.own ∧ s.mode = .moving ∧ s.table.isSome = true ∧ TableOwn s ∧
      isOwnAttempt u (wire kindRoll f') = true ∧ readRoll f'.payload = some m' ∧ u.mode = .rollcall ∧
      u.own < 48 ∧ m'.tag = u.settings.tag ∧
      (candidate u u.own).map (·.serial) = some m'.serial ∧
      (run (.rollFrame f) s).line.rollPending = true ∧
      (run (.rollFrame f') u).line.rollPending = false :=
  ⟨by decide +kernel, rfl, by decide +kernel, rfl, rfl, rfl, own_of rfl rfl rfl, by decide +kernel,
    by decide +kernel, rfl, by decide +kernel, rfl, by decide +kernel, by decide +kernel,
    by decide +kernel⟩

theorem witness_OwnFrames_posePeriod :
    let s := { raising with line := { raising.line with posePeriod := some 0 } }
    due s.timeBase s.line.posePeriod = true ∧ s.mode ≠ .rollcall ∧ Calm s :=
  ⟨by decide +kernel, nofun, .inr rfl⟩

/-! ### Witnesses: roll call and freeze -/

/-- A ROLL content with a serial, a sender mode and a config tag. -/
def rollOf (serial : BitVec 32) (mode : RollMode) (tag : Nat) : RollMsg :=
  ⟨serial, 1, 1, 1, mode, tag, none⟩

/-- The candidate entry of a number with serial its number. -/
def callerAt (n : Nat) : Candidate := ⟨n, BitVec.ofNat 32 n, 1, 1, 1, .rollcall, none, ⟨0, false⟩⟩

/-- ROLLCALL with M expected members and callers of these numbers beside the own entry. -/
def calling (m : Nat) (callers : List Nat) : State :=
  { State.reset with
    settings := { State.reset.settings with inForce := { defaultSettings with m := m } }
    roll := { State.reset.roll with
      candidates := ⟨0, 0, 0, 0, 1, .rollcall, none, ⟨0, true⟩⟩ :: callers.map callerAt
      quiet := some 0
      limit := some 0 } }

/-- The hypotheses that every clause of RollInWindow shares, for a frame from a number. -/
def WindowFrame (s : State) (n : BitVec 6) (m : RollMsg) : Prop :=
  s.mode = .rollcall ∧ (from' n (rollPayload m)).prec = 0 ∧
    readRoll (from' n (rollPayload m)).payload = some m

theorem witness_RollInWindow_number :
    WindowFrame (calling 3 [5]) 48 (rollOf 9 .frozen 46656) ∧ 48 ≤ (48 : BitVec 6).toNat := by
  unfold WindowFrame; decide +kernel

theorem witness_RollInWindow_tag :
    let m := rollOf 5 .rollcall 46655
    WindowFrame (calling 3 [5]) 5 m ∧ m.tag ≠ (calling 3 [5]).settings.tag := by
  unfold WindowFrame; decide +kernel

theorem witness_RollInWindow_serial :
    let m := rollOf 6 .rollcall 46656
    WindowFrame (calling 3 [5]) 5 m ∧ m.tag = (calling 3 [5]).settings.tag ∧
      candidate (calling 3 [5]) 5 = some (callerAt 5) ∧ (callerAt 5).serial ≠ m.serial := by
  unfold WindowFrame; decide +kernel

theorem witness_RollInWindow_again :
    let m := rollOf 5 .barred 46656
    WindowFrame (calling 3 [5]) 5 m ∧ m.tag = (calling 3 [5]).settings.tag ∧
      candidate (calling 3 [5]) 5 = some (callerAt 5) ∧ (callerAt 5).serial = m.serial := by
  unfold WindowFrame; decide +kernel

theorem witness_RollInWindow_new :
    let m := rollOf 47 .rollcall 46656
    WindowFrame (calling 3 [5]) 47 m ∧ candidate (calling 3 [5]) 47 = none ∧
      (calling 3 [5]).roll.candidates.length + 1 ≤ (calling 3 [5]).cfg.m ∧
      (calling 2 [5]).cfg.m < (calling 2 [5]).roll.candidates.length + 1 := by
  unfold WindowFrame; decide +kernel

theorem witness_RollWindowCloses :
    let s := calling 3 [5]
    s.mode = .rollcall ∧ due s.timeBase s.roll.quiet = true ∧ due s.timeBase s.roll.limit = true ∧
      s.roll.candidates.length < s.cfg.m := by decide +kernel

theorem witness_RollWindowCloses_barred :
    let s := calling 2 [5]
    let u := setFault .duplicate ⟨true, false, 1, none, 0⟩ s
    u.mode = .rollcall ∧ due u.timeBase u.roll.quiet = true ∧
      u.roll.candidates.length = u.cfg.m ∧ u.latched .duplicate = true := by decide +kernel

/-- The hypotheses that every clause of FreezeDecides shares. -/
def AtFreeze (s : State) : Prop :=
  s.mode = .rollcall ∧ due s.timeBase s.roll.quiet = true ∧
    s.roll.candidates.length = s.cfg.m ∧ rollFaultLatched s = false

theorem witness_FreezeDecides_unstaged :
    let s := calling 2 [5]
    AtFreeze s ∧ (∀ r, s.stage.record ≠ .staged r) ∧ s.retained.validAtStart = false ∧
      s.stage.record = .unstaged ∧ s.loadMon.present < s.cfg.wc ∧
      ¬ ∃ k, haltClass k = true ∧ s.latched k = true := by
  refine ⟨by unfold AtFreeze; decide +kernel, nofun, rfl, rfl, by decide +kernel, ?_⟩
  rintro ⟨k, -, hk⟩
  cases k <;> exact absurd hk (by decide +kernel)

theorem witness_FreezeDecides_halted :
    let s := setFault .overload ⟨true, true, 1, none, 0⟩ (calling 2 [5])
    AtFreeze s ∧ (∀ r, s.stage.record ≠ .staged r) ∧ s.latched .overload = true ∧
      s.stage.record = .unstaged ∧ s.loadMon.present < s.cfg.wc ∧
      (∀ j, haltClass j = true → (faultCode j).val < (faultCode .overload).val →
        s.latched j = false) := by
  refine ⟨by unfold AtFreeze; decide +kernel, nofun, by decide +kernel, rfl, by decide +kernel, ?_⟩
  intro j
  cases j <;> decide +kernel

/-- ROLLCALL with a valid retained record staged at stage 1, and a caller that reports a stage and tag. -/
def restarted (summary : Option (StageIx × Nat)) : State :=
  let s := calling 2 []
  { s with
    roll := { s.roll with
      candidates := s.roll.candidates ++ [{ callerAt 5 with summary := summary }] }
    retained := { s.retained with marker := true, validAtStart := true }
    plan := ⟨[], false, [⟨500, none, none⟩], 501⟩
    stage := ⟨.restored ⟨100, .stage 1⟩, .raise, false⟩ }

theorem witness_FreezeDecides_rejoin :
    let s := restarted (some (.stage 1, 501))
    AtFreeze s ∧ (∀ r, s.stage.record ≠ .staged r) ∧ s.retained.validAtStart = true ∧
      s.stage.record = .restored ⟨100, .stage 1⟩ ∧
      (∀ c ∈ s.roll.candidates, c.number ≠ s.own →
        c.summary = none ∨ c.summary = some (.stage 1, s.plan.tag)) := by
  refine ⟨by unfold AtFreeze; decide +kernel, nofun, rfl, rfl, by decide +kernel⟩

theorem witness_FreezeDecides_disagree :
    let s := restarted (some (.stage 1, 500))
    AtFreeze s ∧ (∀ r, s.stage.record ≠ .staged r) ∧ s.retained.validAtStart = true ∧
      s.stage.record = .restored ⟨100, .stage 1⟩ ∧
      ¬ (∀ c ∈ s.roll.candidates, c.number ≠ s.own →
        c.summary = none ∨ c.summary = some (.stage 1, s.plan.tag)) := by
  refine ⟨by unfold AtFreeze; decide +kernel, nofun, rfl, rfl, by decide +kernel⟩

theorem witness_FreezeDecides_lost :
    let s := calling 2 [5]
    let u := { s with loadMon := { s.loadMon with present := 20 } }
    AtFreeze u ∧ (∀ r, u.stage.record ≠ .staged r) ∧ u.retained.validAtStart = false ∧
      u.stage.record = .unstaged ∧ u.cfg.wc ≤ u.loadMon.present := by
  refine ⟨by unfold AtFreeze; decide +kernel, nofun, rfl, rfl, by decide +kernel⟩

theorem witness_FreezeBuildsTable :
    let s := calling 2 [5]
    AtFreeze s ∧ candidate s 5 = some (callerAt 5) ∧ 5 ≠ s.own ∧ candidate s 6 = none ∧
      (candidate s s.own).isSome = true ∧ (run .rollQuietExpiry s).mode ≠ .barred := by
  unfold AtFreeze; decide +kernel

theorem witness_RollAnswersPaced :
    let s := { raising with roll := { raising.roll with pacing := some 0, answerOwed := true } }
    s.mode ≠ .rollcall ∧ due s.timeBase s.roll.pacing = true ∧ s.roll.answerOwed = true := by
  decide +kernel

theorem witness_RollAnswersPaced_barred :
    let m := rollOf 5 .rollcall 46656
    let f := from' 5 (rollPayload m)
    let s := { calling 2 [5] with modeCtl := ⟨.barred, false, none, none⟩ }
    s.mode = .barred ∧ f.prec = 0 ∧ readRoll f.payload = some m ∧ f.station.toNat ≠ s.own ∧
      (candidate s f.station.toNat).isSome = true := by decide +kernel

theorem witness_RollAfterFreeze :
    let m := rollOf 5 .rollcall 46656
    let f := from' 5 (rollPayload m)
    let s := pair .idle (quietReport .idle)
    s.mode ≠ .rollcall ∧ s.mode ≠ .barred ∧ isOwnAttempt s (wire kindRoll f) = false ∧ TableOwn s ∧
      f.prec = 0 ∧ readRoll f.payload = some m ∧ f.station.toNat ≠ s.own ∧
      peerOf s 5 = some (rowAt 5 0 0 (quietReport .idle)) ∧
      (rowAt 5 0 0 (quietReport .idle)).fixed.serial = m.serial ∧ m.mode = .rollcall :=
  ⟨nofun, nofun, rfl, own_of rfl rfl rfl, rfl, by decide +kernel, nofun, rfl, rfl, rfl⟩

theorem witness_RollAfterFreeze_barred :
    let m := rollOf 5 .barred 46656
    let f := from' 5 (rollPayload m)
    let s := pair .idle (quietReport .idle)
    isOwnAttempt s (wire kindRoll f) = false ∧ readRoll f.payload = some m ∧
      (rowAt 5 0 0 (quietReport .idle)).fixed.serial = m.serial ∧ m.mode ≠ .rollcall ∧
      (run (.rollFrame f) s).line.rollPending = false := by decide +kernel

theorem witness_RollAfterFreeze_stranger :
    let m := rollOf 6 .frozen 46656
    let f := from' 6 (rollPayload m)
    let s := pair .idle (quietReport .idle)
    readRoll f.payload = some m ∧ f.station.toNat ≠ s.own ∧ peerOf s f.station.toNat = none ∧
      (rowAt 5 0 0 (quietReport .idle)).fixed.serial ≠ m.serial ∧ m.mode = .frozen := by
  decide +kernel

/-! ### Witnesses: the peer table, claims and spacing -/

/-- The peer's row of `pair`. -/
def peerRow (r : Report) : Row := rowAt 5 0 0 r

/-- A row that has fallen silent. -/
def lostRow (r : Report) : Row :=
  { peerRow r with marks := { liveMarks with live := .lost, silence := none } }

theorem witness_SignOfLife :
    let w : WireFrame := wireOrder 0 (from' 5 [])
    let s := group .idle [lostRow (quietReport .idle)]
    frameOf (.advance (from' 5 [])) = some w ∧ malformed w = false ∧ s.mode ≠ .rollcall ∧
      s.mode ≠ .barred ∧ TableOwn s ∧ rowOf s w.station.toNat = some (lostRow (quietReport .idle)) ∧
      (lostRow (quietReport .idle)).marks.live = .lost ∧
      (∀ q ∈ allRows s, q.fixed.number = w.station.toNat ∨ q.marks.live = .live) :=
  ⟨rfl, by decide +kernel, nofun, nofun, own_of rfl rfl rfl, rfl, rfl, by decide +kernel⟩

/-- The hypotheses on a POSE from station 5 that the statements about it share. -/
def PoseFrom5 (s : State) (m : PoseMsg) : Prop :=
  s.mode ≠ .rollcall ∧ s.mode ≠ .barred ∧
    isOwnAttempt s (wire kindPose (from' 5 (posePayload m))) = false ∧
    (from' 5 (posePayload m)).prec = 0 ∧ readPose (from' 5 (posePayload m)).payload = some m ∧
    (from' 5 (posePayload m)).station.toNat ≠ s.own ∧ isMember s 5 = true

theorem witness_PoseWritesRow :
    let s := pair .idle (quietReport .idle)
    PoseFrom5 s (poseOf .unstaged none .none) ∧ TableOwn s ∧ Quiet s ∧
      peerOf s 5 = some (peerRow (quietReport .idle)) :=
  ⟨by unfold PoseFrom5; decide +kernel, own_of rfl rfl rfl, ⟨nofun, nofun⟩, rfl⟩

theorem witness_Contagion_halted :
    PoseFrom5 raising (poseOf .halted none .none) ∧ raising.mode ≠ .halted := by
  unfold PoseFrom5; decide +kernel

theorem witness_Contagion_safe : MotionSafe (flying upStroke 60 raising) :=
  safe_running rfl rfl rfl rfl rfl rfl rfl nofun ⟨nofun, nofun⟩

theorem witness_Contagion_hold :
    let m := poseOf .hold (some (.stage 1)) .raise
    PoseFrom5 raising m ∧ m.mode = .hold ∧ raising.mode = .moving ∧ m.stage = raising.stageIx := by
  unfold PoseFrom5; decide +kernel

/-- A CLAIM content of a full raising stroke from lift 20. -/
def claimUp : ClaimMsg := ⟨.full, .raise, false, .stage 1, 20, some 120⟩

/-- A CLAIM from a station. -/
def claimFrom (n : BitVec 6) : RxFrame := ⟨255, n, claimPayload claimUp⟩

theorem witness_ClaimWritesRow :
    let s := pair .hold (quietReport .hold)
    s.mode ≠ .rollcall ∧ s.mode ≠ .barred ∧ TableOwn s ∧
      readClaim (claimFrom 5).payload = some claimUp ∧ (claimFrom 5).station.toNat ≠ s.own ∧
      peerOf s 5 = some (peerRow (quietReport .hold)) ∧ s.claiming = false ∧ Quiet s :=
  ⟨nofun, nofun, own_of rfl rfl rfl, by decide +kernel, nofun, rfl, rfl, nofun, nofun⟩

theorem witness_ClaimWithdrawsQueuedClaim :
    let s := queued upStroke (.waiting (someClaim 255 upStroke)) raising
    s.mode ≠ .rollcall ∧ s.mode ≠ .barred ∧ TableOwn s ∧
      readClaim (claimFrom 5).payload = some claimUp ∧ (claimFrom 5).station.toNat ≠ s.own ∧
      (peerOf s 5).isSome = true ∧ s.claiming = true ∧
      (peerOf s 5).map (·.fixed.feeder) = some s.straps.feeder.val ∧ 0 < s.cfg.gl ∧
      s.line.claim = .waiting (someClaim 255 upStroke) :=
  ⟨nofun, nofun, own_of rfl rfl rfl, by decide +kernel, nofun, rfl, rfl, rfl, by decide +kernel, rfl⟩

theorem witness_ClaimWithdrawsQueuedClaim_phases :
    let w := someClaim 255 upStroke
    (queued upStroke (.contending w false) raising).claiming = true ∧
      (queued upStroke (.contending w false) raising).line.claim = .contending w false ∧
      (queued upStroke (.committed w) raising).claiming = true ∧
      (queued upStroke (.committed w) raising).line.claim = .committed w :=
  ⟨rfl, rfl, rfl, rfl⟩

theorem witness_ClaimWithdrawsQueuedClaim_otherFeeder :
    let s := queued upStroke (.waiting (someClaim 255 upStroke))
      (group .hold [rowAt 5 0 1 (quietReport .hold)])
    let u := { s with settings := { s.settings with inForce := { defaultSettings with gs := 0 } } }
    u.claiming = true ∧ (peerOf u 5).map (·.fixed.feeder) ≠ some u.straps.feeder.val ∧
      u.cfg.gs = 0 ∧ Quiet u ∧ TableOwn u :=
  ⟨rfl, by decide +kernel, rfl, ⟨nofun, nofun⟩, own_of rfl rfl rfl⟩

/-- A CLAIM of another feeder group with G_S 0, and a POSE, that leave a claim admitted, and that do not: the peer's
lift 20 gives the end 120 room, and its lift -200 does not. -/
theorem witness_ClaimWithdrawsQueuedClaim_admitted :
    let s := queued upStroke (.waiting (someClaim 255 upStroke)) { stagedAtLift (.stage 1) 5000 .raise 20
      (group .moving [rowAt 5 0 1 { quietReport .moving with lift := some 20 }]) with
      settings := { State.reset.settings with inForce := { defaultSettings with gs := 0 } } }
    let near : PoseMsg := { poseOf .moving (some (.stage 1)) .raise with lift := some 20 }
    let low : PoseMsg := { near with lift := some (-200) }
    let u := claimed s (claimFrom 5) claimUp
    let v := claimed s (claimFrom 5) { claimUp with start := -200, stop := some (-100) }
    PoseFrom5 s near ∧ PoseFrom5 s low ∧ TableOwn s ∧ s.mode = .moving ∧
      s.stage.awaitingSet = false ∧ s.engine.stroke = .claiming upStroke ∧ s.cfg.gs = 0 ∧
      InBand u ∧ InBand v ∧ StillAdmitted u upStroke ∧ ¬ StillAdmitted v upStroke ∧
      InBand (posed s (from' 5 (posePayload near)) near) ∧
      StillAdmitted (posed s (from' 5 (posePayload near)) near) upStroke ∧
      ¬ StillAdmitted (posed s (from' 5 (posePayload low)) low) upStroke :=
  ⟨by unfold PoseFrom5; decide +kernel, by unfold PoseFrom5; decide +kernel, own_of rfl rfl rfl, rfl, rfl,
    rfl, rfl, by unfold InBand; decide +kernel, by unfold InBand; decide +kernel,
    by rw [← admits_iff]; decide +kernel, by rw [← admits_iff]; decide +kernel,
    by unfold InBand; decide +kernel, by rw [← admits_iff]; decide +kernel,
    by rw [← admits_iff]; decide +kernel⟩

theorem witness_ClaimWithdrawsQueuedClaim_pawl :
    let s := queued upStroke (.waiting (someClaim 255 upStroke)) raising
    let t := run (.switchEvent .set false) s
    s.claiming = true ∧ t.pawl.state ≠ s.pawl.state ∧ t.line.claim = .empty := by decide +kernel

/-- An own claim of a stroke committed, at a lift. -/
def committedAt (r : Stroke) (s : State) : State :=
  sending (someClaim 255 r) (queued r (.committed (someClaim 255 r)) s)

/-- Of MOVING, an own claim committed and the lift given: the starting count of `upStroke`. -/
def countAt (s : State) : Int :=
  upStroke.length - (s.lift.getD s.engine.travel - upStroke.start)

theorem witness_ClaimTaken_runs :
    let s := committedAt upStroke raising
    s.line.claim = .committed (someClaim 255 upStroke) ∧ s.engine.stroke = .claiming upStroke ∧
      0 < s.cfg.gl ∧ s.mode = .moving ∧ TableOwn s ∧ s.spacing.held = false ∧
      s.pawl.state = .set ∧ 0 < countAt s ∧ countAt s ≤ s.cfg.l + s.cfg.a ∧
      InBand (signOfLife s.own s) ∧
      s.stage.awaitingSet = false ∧ MotionSafe s :=
  ⟨rfl, rfl, by decide +kernel, rfl, own_of rfl rfl rfl, rfl, rfl, by decide +kernel,
    by decide +kernel, by unfold InBand; decide +kernel, rfl,
    safe_claiming rfl rfl rfl rfl nofun rfl rfl ⟨nofun, nofun⟩⟩

/-- The clauses of ClaimTaken at their bounds: L + A counts to go, one more, and none. -/
theorem witness_ClaimTaken_bounds :
    let s := fun h => committedAt upStroke (stagedAtLift (.stage 1) 5000 .raise h raising)
    countAt (s 16) = (s 16).cfg.l + (s 16).cfg.a ∧ countAt (s 15) = (s 15).cfg.l + (s 15).cfg.a + 1 ∧
      countAt (s 119) = 1 ∧ countAt (s 120) = 0 ∧ (s 15).mode = .moving := by decide +kernel

/-- An own contact claim committed, while the column bears a load. -/
def bearing (load : Nat) : State :=
  let s := { pair .moving (quietReport .moving) with stage := ⟨.unstaged, .raise, false⟩ }
  committedAt contactStroke { s with
    engine := { s.engine with travel := 900 }, loadMon := { s.loadMon with present := load } }

theorem witness_ClaimTaken_contact :
    let s := bearing 20
    s.line.claim = .committed (someClaim 255 contactStroke) ∧ s.engine.stroke = .claiming contactStroke ∧
      0 < s.cfg.gl ∧ s.mode = .moving ∧ TableOwn s ∧ s.spacing.held = false ∧ s.pawl.state = .set ∧
      (0 : Int) < contactStroke.length - (s.engine.travel - contactStroke.start) ∧
      s.cfg.wc ≤ s.loadMon.present ∧ s.stage.record = .unstaged ∧ s.stage.awaitingSet = false ∧
      s.stage.dir = .raise ∧ MotionSafe s ∧
      (run .claimTaken (bearing 19)).engine.stroke = .running contactStroke 100 :=
  ⟨rfl, rfl, by decide +kernel, rfl, own_of rfl rfl rfl, rfl, rfl, by decide +kernel, by decide +kernel,
    rfl, rfl, rfl, safe_claiming rfl rfl rfl rfl nofun rfl rfl ⟨nofun, fun _ => rfl⟩, by decide +kernel⟩

theorem witness_ClaimTaken_void :
    let s := committedAt upStroke (pair .hold (quietReport .hold))
    s.mode ≠ .moving ∧ s.mode ≠ .rollcall ∧ s.mode ≠ .barred ∧ Quiet s ∧ s.engine.jog = .none ∧
      s.line.claim = .committed (someClaim 255 upStroke) :=
  ⟨nofun, nofun, nofun, ⟨nofun, nofun⟩, rfl, rfl⟩

theorem witness_SilenceExpiry :
    let r : Row := { peerRow (quietReport .moving) with marks := { liveMarks with silence := some 0 } }
    let s := group .moving [r]
    TableOwn s ∧ rowOf s 5 = some r ∧ due s.timeBase r.marks.silence = true ∧ 5 ≠ s.own :=
  ⟨own_of rfl rfl rfl, rfl, by decide +kernel, nofun⟩

/-- An offer held at REST in MOVING, the compare due, with the last claim of the feeder at a stamp. -/
def offering (st : Stamp) : State :=
  { raising with spacing :=
      { raising.spacing with offer := some upStroke, instant := some 0, feederStamp := st } }

theorem witness_SpacingInstant :
    due (offering ⟨-1500, false⟩).timeBase (offering ⟨-1500, false⟩).spacing.instant = true ∧
      (offering ⟨-1500, false⟩).notice = false ∧ (offering ⟨-1500, false⟩).engine.stroke = .rest ∧
      (offering ⟨-1500, false⟩).mode = .moving ∧ (offering ⟨-1500, false⟩).line.claim = .empty ∧
      remainingGap (offering ⟨-1500, false⟩) = 0 ∧ remainingGap (offering ⟨-1499, false⟩) = 1 := by
  decide +kernel

theorem witness_SpacingInstant_notReady :
    let s := { offering ⟨0, true⟩ with modeCtl := ⟨.hold, false, none, none⟩ }
    due s.timeBase s.spacing.instant = true ∧ s.notice = false ∧ s.mode ≠ .moving := by
  decide +kernel

/-! ### Witnesses: orders, halts and the plan -/

/-- IDLE at a stage of a plan of two entries, with a peer that reports the same plan. -/
def atRest (k : Nat) (target : Int) : State :=
  let plan : List PlanEntry := [⟨5000, none, none⟩, ⟨4000, none, none⟩]
  let peer := { quietReport .idle with
    stage := some (.stage k), lift := some target, planTag := planTag plan }
  let s := stagedAtLift (.stage k) target .raise target.toNat (pair .idle peer)
  { s with plan := ⟨[], false, plan, planTag plan⟩ }

/-- The hypotheses on an order frame from station 5 that the statements about orders share. -/
def OrderFrom5 (s : State) : Prop :=
  (from' 5 []).prec = 0 ∧ (from' 5 []).payload = [] ∧ s.mode ≠ .rollcall ∧ s.mode ≠ .barred ∧
    isMember s (from' 5 []).station.toNat = true

theorem witness_OrdersMoveStage :
    OrderFrom5 (atRest 1 5000) ∧ (atRest 1 5000).mode = .idle ∧
      (atRest 1 5000).stage.record = .staged ⟨1000, .stage 1, 5000, 5000, false⟩ ∧
      (let u := heardFrom (atRest 1 5000) (wireOrder 0 (from' 5 []))
       allLive u = true ∧ planAgreed u = true ∧ ownFault u = false ∧ InBand u) ∧
      1 < (atRest 1 5000).plan.active.length := by unfold OrderFrom5 InBand; decide +kernel

/-- Out of band at an entry to MOVING: a column that carries all of its car group's load. -/
def alone (s : State) : State :=
  { s with
    settings := { s.settings with inForce := { s.settings.inForce with wmin := 0 } }
    loadMon := { s.loadMon with present := 500 } }

theorem witness_OrdersMoveStage_outOfBand :
    let s := alone (atRest 1 5000)
    let u := heardFrom s (wireOrder 0 (from' 5 []))
    let v := posed s (from' 5 (posePayload (poseOf .moving (some (.stage 2)) .lower)))
      { poseOf .moving (some (.stage 2)) .lower with lift := some 5000 }
    OrderFrom5 s ∧ ¬ InBand u ∧ ¬ InBand v ∧ s.loadMon.share = .inactive ∧ allLive u = true ∧
      planAgreed u = true ∧ ownFault u = false := by unfold OrderFrom5 InBand; decide +kernel

theorem witness_OrdersMoveStage_retreat :
    OrderFrom5 (atRest 0 0) ∧ (atRest 0 0).mode = .idle ∧
      (atRest 0 0).stage.record = .staged ⟨1000, .stage 0, 0, 0, false⟩ ∧
      (let u := heardFrom (atRest 0 0) (wireOrder 1 (from' 5 []))
       allLive u = true ∧ planAgreed u = true ∧ ownFault u = false) ∧
      0 < (atRest 0 0).cfg.n ∧ (atRest 0 0).engine.travel < 240000 ∧
      (run (.retreat (from' 5 [])) (atRest 0 0)).stage.dir = .lower := by
  unfold OrderFrom5; decide +kernel

theorem witness_CatchUpJoin_takeUp :
    let s := pair .unstaged (quietReport .unstaged)
    PoseFrom5 s (poseOf .moving none .raise) ∧ TableOwn s ∧ ownFault s = false ∧
      (∀ q ∈ allRows s, q.fixed.number = 5 ∨ q.marks.live = .live) ∧ s.mode = .unstaged ∧
      s.stage.record = .unstaged ∧ s.engine.travel < 240000 :=
  ⟨by unfold PoseFrom5; decide +kernel, own_of rfl rfl rfl, by decide +kernel, by decide +kernel, rfl, rfl,
    by decide +kernel⟩

theorem witness_CatchUpJoin_stage :
    let s := atRest 1 5000
    let m := { poseOf .moving (some (.stage 2)) .lower with planTag := s.plan.tag }
    let m' := { poseOf .settled (some (.stage 0)) .lower with planTag := s.plan.tag }
    PoseFrom5 s m ∧ PoseFrom5 s m' ∧ TableOwn s ∧ ownFault s = false ∧
      (∀ q ∈ allRows s, q.fixed.number = 5 ∨ q.marks.live = .live) ∧
      (∀ q ∈ allRows s, q.fixed.number = 5 ∨ q.report.planTag = s.plan.tag) ∧
      1 < s.plan.active.length :=
  ⟨by unfold PoseFrom5; decide +kernel, by unfold PoseFrom5; decide +kernel, own_of rfl rfl rfl,
    by decide +kernel, by decide +kernel, by decide +kernel, by decide +kernel⟩

theorem witness_SettledFindsRest :
    let s := { atRest 1 5000 with modeCtl := ⟨.settled, false, none, none⟩ }
    PoseFrom5 s (poseOf .settled (some (.stage 1)) .raise) ∧ TableOwn s ∧ s.mode = .settled ∧
      s.stageIx = some (.stage 1) ∧
      (∀ q ∈ allRows s, q.fixed.number = 5 ∨
        (q.marks.live = .live ∧ (q.report.mode = .settled ∨ q.report.mode = .idle) ∧
          q.report.stage = some (.stage 1))) :=
  ⟨by unfold PoseFrom5; decide +kernel, own_of rfl rfl rfl, rfl, rfl, by decide +kernel⟩

theorem witness_AdvanceTakesUp :
    let s := pair .unstaged (quietReport .unstaged)
    let u := heardFrom s (wireOrder 0 (from' 5 []))
    OrderFrom5 s ∧ s.mode = .unstaged ∧ s.stage.record = .unstaged ∧ s.engine.travel < 240000 ∧
      allUnstaged u = true ∧ ownFault u = false := by unfold OrderFrom5; decide +kernel

/-- Each refusal of an ADVANCE or RETREAT but those for LOST rows has a state: MODE, LAST_STAGE, PLAN_DISAGREE,
OWN_FAULT, NOT_ALL_UNSTAGED. -/
theorem witness_OrdersRefused :
    let reason := fun s => (run (.advance (from' 5 [])) s).modeCtl.lastRefused.map (·.reason)
    let a := atRest 1 5000
    OrderFrom5 raising ∧ reason raising = some .mode ∧
      OrderFrom5 (atRest 2 4000) ∧ reason (atRest 2 4000) = some .lastStage ∧
      reason { a with plan := { a.plan with tag := 7 } } = some .planDisagree ∧
      reason (setFault .drift ⟨true, false, 1, none, 0⟩ a) = some .ownFault ∧
      reason (pair .unstaged (quietReport .idle)) = some .notAllUnstaged := by
  unfold OrderFrom5; decide +kernel

/-- NOT_ALL_LIVE: a third row is LOST. -/
theorem witness_OrdersRefused_lost :
    let a := atRest 1 5000
    let s := { a with table := a.table.map fun t =>
      { t with peers := t.peers ++ [{ lostRow (quietReport .idle) with fixed := ⟨6, 0, 0, 1, 6⟩ }] } }
    OrderFrom5 s ∧ s.mode = .idle ∧
      allLive (heardFrom s (wireOrder 1 (from' 5 []))) = false := by
  unfold OrderFrom5; decide +kernel

theorem witness_StopHolds :
    let w := someClaim 255 upStroke
    OrderFrom5 raising ∧ raising.mode = .moving ∧
      (queued upStroke (.waiting w) raising).line.claim = .waiting w ∧
      (queued upStroke (.waiting w) raising).claiming = true ∧
      (flying upStroke 30 raising).engine.stroke = .running upStroke 30 ∧ upStroke.dir = .raise := by
  unfold OrderFrom5; decide +kernel

theorem witness_StopHolds_lowering :
    OrderFrom5 lowering ∧ lowering.engine.stroke = .running downStroke 60 ∧ downStroke.dir = .lower ∧
      lowering.pawl.state = .withdrawn := by unfold OrderFrom5; decide +kernel

theorem witness_StopHolds_ignored :
    OrderFrom5 (atRest 1 5000) ∧ (atRest 1 5000).mode ≠ .moving ∧ Quiet (atRest 1 5000) :=
  ⟨by unfold OrderFrom5; decide +kernel, nofun, nofun, nofun⟩

theorem witness_ResumeAcknowledges :
    let s := atRest 1 5000
    let u := { s with pawl := { s.pawl with state := .stuck } }
    OrderFrom5 s ∧ s.mode = .idle ∧ s.pawl.state ≠ .stuck ∧ OrderFrom5 u ∧ u.mode = .idle ∧
      u.pawl.state = .stuck ∧ u.pawl.setClosed = true ∧ u.pawl.withdrawnClosed = false := by
  unfold OrderFrom5; decide +kernel

/-- A RESUME in the other modes with a table: each kind that may occur anew stands below 255. -/
theorem witness_ResumeAcknowledges_modes :
    let s := fun m => { atRest 1 5000 with modeCtl := ⟨m, false, none, none⟩ }
    let away := { raising with modeCtl := ⟨.moving, false, none, none⟩ }
    (∀ m, m = .hold ∨ m = .halted ∨ m = .settled → OrderFrom5 (s m) ∧
      ∀ k, ((s m).fault k).count < 255 ∧
        ((run (.resume (from' 5 [])) (s m)).fault k).count = 0) ∧
      OrderFrom5 away ∧ InBand (heardFrom away (wireOrder 3 (from' 5 []))) ∧
      away.stage.awaitingSet = false ∧
      away.stage.record = .staged ⟨1000, .stage 1, 5000, 5000, false⟩ := by
  refine ⟨?_, by unfold OrderFrom5; decide +kernel, by unfold InBand; decide +kernel, rfl, rfl⟩
  rintro m (rfl | rfl | rfl) <;> refine ⟨by unfold OrderFrom5; decide +kernel, fun k => ?_⟩ <;>
    cases k <;> decide +kernel

/-- HOLD at stage 1, short of its target, with a peer of the same plan. -/
def held : State :=
  let a := stagedAtLift (.stage 1) 5000 .raise 4000 (atRest 1 5000)
  { a with modeCtl := ⟨.hold, false, none, none⟩ }

/-- No halt-class or hold-class condition is active. -/
def Unblocked (s : State) : Prop := ¬ ∃ k, (haltClass k = true ∨ holdClass k = true) ∧ s.active k = true

theorem witness_ResumeFromHold :
    let u := heardFrom held (wireOrder 3 (from' 5 []))
    OrderFrom5 held ∧ held.mode = .hold ∧ held.pawl.state ≠ .stuck ∧ allLive u = true ∧
      planAgreed u = true ∧ Unblocked u ∧
      held.stage.record = .staged ⟨1000, .stage 1, 5000, 5000, false⟩ := by
  refine ⟨by unfold OrderFrom5; decide +kernel, rfl, nofun, by decide +kernel, by decide +kernel, ?_, rfl⟩
  rintro ⟨k, -, hk⟩
  cases k <;> exact absurd hk (by decide +kernel)

theorem witness_ResumeFromHold_share :
    let s := alone held
    OrderFrom5 held ∧ InBand (heardFrom held (wireOrder 3 (from' 5 []))) ∧ OrderFrom5 s ∧
      ¬ InBand (heardFrom s (wireOrder 3 (from' 5 []))) ∧ s.loadMon.share = .inactive := by
  unfold OrderFrom5 InBand; decide +kernel

/-- HOLD in a lowering stage, and one step from the end of staging: the two clauses on nudge-due. -/
theorem witness_ResumeFromHold_nudge :
    let low := stagedAtLift (.stage 1) 500 .lower 4000 held
    let down := stagedAtLift .setdown (-1000) .lower 0 held
    let down := { down with engine := { down.engine with travel := 0 } }
    OrderFrom5 low ∧ low.stage.dir = .lower ∧ 0 < low.cfg.n ∧ low.engine.travel < 240000 ∧
      (run (.resume (from' 5 [])) low).mode = .moving ∧
      (run (.resume (from' 5 [])) down).mode = .unstaged := by unfold OrderFrom5; decide +kernel

theorem witness_ResumeFromHold_refused :
    let disagrees := { held with plan := { held.plan with tag := 7 } }
    let blocked := setFault .overload ⟨true, true, 1, none, 0⟩ held
    OrderFrom5 disagrees ∧ allLive (heardFrom disagrees (wireOrder 3 (from' 5 []))) = true ∧
      planAgreed (heardFrom disagrees (wireOrder 3 (from' 5 []))) = false ∧
      OrderFrom5 blocked ∧ planAgreed (heardFrom blocked (wireOrder 3 (from' 5 []))) = true ∧
      (heardFrom blocked (wireOrder 3 (from' 5 []))).active .overload = true := by
  unfold OrderFrom5; decide +kernel

/-- NOT_ALL_LIVE at a RESUME, and a RESUME that lets take-up go on. -/
theorem witness_ResumeFromHold_others :
    let lost := { held with table := held.table.map fun t =>
      { t with peers := t.peers ++ [{ lostRow (quietReport .hold) with fixed := ⟨6, 0, 0, 1, 6⟩ }] } }
    let up := { pair .hold (quietReport .hold) with stage := ⟨.unstaged, .raise, false⟩ }
    OrderFrom5 lost ∧ lost.mode = .hold ∧
      allLive (heardFrom lost (wireOrder 3 (from' 5 []))) = false ∧
      OrderFrom5 up ∧ up.mode = .hold ∧ up.stage.record = .unstaged ∧ up.engine.travel < 240000 := by
  unfold OrderFrom5; decide +kernel

/-- HALTED, staged in place with the pawl SET. -/
def halted : State := { atRest 1 5000 with modeCtl := ⟨.halted, false, none, none⟩ }

theorem witness_ResumeLeavesHalted :
    let u := heardFrom halted (wireOrder 3 (from' 5 []))
    OrderFrom5 halted ∧ halted.mode = .halted ∧
      (¬ ∃ k, haltClass k = true ∧ u.active k = true) ∧
      ¬ (halted.pawl.state = .stuck ∧ halted.pawl.setClosed = halted.pawl.withdrawnClosed) ∧
      halted.stage.record = .staged ⟨1000, .stage 1, 5000, 5000, false⟩ ∧ halted.pawl.state = .set := by
  refine ⟨by unfold OrderFrom5; decide +kernel, rfl, ?_, by decide +kernel, rfl, rfl⟩
  rintro ⟨k, -, hk⟩
  cases k <;> exact absurd hk (by decide +kernel)

theorem witness_ResumeLeavesHalted_refused :
    let blocked := setFault .emergency ⟨true, true, 1, none, 0⟩ halted
    let stuck := { halted with pawl := ⟨.stuck, .set, false, none, false, false⟩ }
    OrderFrom5 blocked ∧ (heardFrom blocked (wireOrder 3 (from' 5 []))).active .emergency = true ∧
      OrderFrom5 stuck ∧ stuck.pawl.state = .stuck ∧
      stuck.pawl.setClosed = stuck.pawl.withdrawnClosed := by unfold OrderFrom5; decide +kernel

theorem witness_ResumeLeavesHalted_elsewhere :
    let away := stagedAtLift (.stage 1) 5000 .raise 4995 halted
    let down := pair .halted (quietReport .halted)
    OrderFrom5 away ∧ away.lift = some 4995 ∧ away.cfg.a = 4 ∧ OrderFrom5 down ∧
      down.stage.record = .unstaged := by unfold OrderFrom5; decide +kernel

theorem witness_HaltFrameHalts :
    let s := flying upStroke 60 raising
    let f := from' 5 [5]
    f.prec = 0 ∧ readHalt f.payload = some .pawlStuck ∧ s.mode = .moving ∧
      isMember s f.station.toNat = true ∧ MotionSafe s :=
  ⟨rfl, by decide +kernel, rfl, by decide +kernel, witness_Contagion_safe⟩

theorem witness_PlanLoadClear :
    let s := pair .unstaged (quietReport .unstaged)
    let f := from' 5 [0xFF, 0xFF, 0xFF, 0x1F, 0x41]
    s.mode ≠ .rollcall ∧ s.mode ≠ .barred ∧ isMember s f.station.toNat = true ∧ Quiet s ∧
      contentOf (wirePlan 0 2 f) = some (.plan (.load 16777215 (some 8001) none)) ∧
      contentOf (wirePlan 1 0 (from' 5 [])) = some (.plan .clear) :=
  ⟨nofun, nofun, by decide +kernel, ⟨nofun, nofun⟩, by decide +kernel, by decide +kernel⟩

/-- An overfull bank: the seventeenth LOAD replaces the sixteenth entry. -/
theorem test_seventeenth_load :
    let s := pair .unstaged (quietReport .unstaged)
    let u := { s with plan := { s.plan with staging := List.replicate 16 ⟨1, none, none⟩ } }
    (run (.load 0 (from' 5 [0, 0, 2])) u).plan.staging =
        List.replicate 15 ⟨1, none, none⟩ ++ [⟨2, none, none⟩] ∧
      (run (.load 0 (from' 5 [0, 0, 2])) u).plan.overrun = true := by decide +kernel

/-- An ADOPT of one entry, and its refusals: MODE, STAGING_EMPTY, STAGING_OVERRUN. -/
theorem witness_AdoptCopiesStaging_reasons :
    let s := pair .unstaged (quietReport .unstaged)
    let one := { s with plan := { s.plan with staging := [⟨5000, none, none⟩] } }
    let reason := fun u => (run (.adopt 0 (from' 5 [])) u).modeCtl.lastRefused.map (·.reason)
    reason raising = some .mode ∧ reason s = some .stagingEmpty ∧
      reason { one with plan := { one.plan with overrun := true } } = some .stagingOverrun ∧
      reason one = none ∧ (run (.adopt 0 (from' 5 [])) one).plan.tag = 5001 := by decide +kernel

theorem witness_AdoptCopiesStaging :
    let s := pair .unstaged (quietReport .unstaged)
    let one : List PlanEntry := [⟨5000, none, none⟩]
    contentOf (wirePlan 2 0 (from' 5 [])) = some (.plan .adopt) ∧
      isMember s (from' 5 []).station.toNat = true ∧ s.mode = .unstaged ∧ s.plan.staging = [] ∧
      ({ s.plan with staging := one }).overrun = false ∧ s.retained.writing = none ∧
      raising.mode ≠ .unstaged ∧ raising.mode ≠ .idle := by decide +kernel

/-! ### Witnesses: column, pawl and load -/

theorem witness_HaltInputs :
    let top := stagedAtLift (.stage 1) 239000 .raise 239000 raising
    top.engine.travel = 240000 ∧ (pair .unstaged (quietReport .unstaged)).engine.travel = 0 ∧
      raising.pendant.levels.emergencyClosed = true ∧ MotionSafe raising :=
  ⟨rfl, rfl, rfl, safe_at_rest rfl rfl rfl rfl rfl rfl⟩

theorem witness_HaltInputs_close :
    let s := run .emergencyOpen raising
    s.pendant.levels.emergencyClosed = false ∧ s.notice = false := by decide +kernel

theorem witness_CountsRunStroke :
    let s := flying upStroke 1 raising
    s.engine.stroke = .running upStroke 1 ∧ s.stage.awaitingSet = false ∧
      s.engine.travel < 240000 ∧ 0 < s.engine.travel ∧ s.mode = .moving ∧ InBand s ∧
      s.stage.record = .staged ⟨1000, .stage 1, 5000, 5000, false⟩ ∧
      (flying upStroke 104 raising).cfg.l + (flying upStroke 104 raising).cfg.a = 104 :=
  ⟨rfl, rfl, by decide +kernel, by decide +kernel, rfl, by unfold InBand; decide +kernel, rfl, rfl⟩

/-- A count with the share check active and the column in band, in MOVING and in SETTLED beside a peer that moves. -/
theorem witness_CountsRunStroke_sharing :
    let s := flying upStroke 60 (sharers 420 300 310 390)
    let u := { s with modeCtl := ⟨.settled, false, none, none⟩ }
    InBand s ∧ s.cfg.wmin ≤ totalW s ∧ s.mode = .moving ∧ s.stage.awaitingSet = false ∧
      (run (.countEvent true) s).engine.stroke = .running upStroke 59 ∧
      (run (.countEvent true) s).loadMon.share = .inBand ∧
      InBand u ∧ u.mode = .settled ∧ restAt u 1 = false ∧ u.stageIx = some (.stage 1) := by
  unfold InBand; decide +kernel

theorem witness_CountsRunStroke_nudge :
    let r : Stroke := ⟨.nudge, .raise, 20, some 50, false, .stage 1, 30⟩
    let s := flying r 1 raising
    s.engine.stroke = .running r 1 ∧ r.kind = .nudge ∧ s.mode = .moving ∧ s.stage.awaitingSet = false ∧
      MotionSafe s :=
  ⟨rfl, rfl, rfl, rfl, safe_running rfl rfl rfl rfl rfl rfl rfl nofun ⟨nofun, fun _ => rfl⟩⟩

theorem witness_CountsRunStroke_final :
    let r := { downStroke with final := true }
    let s := { flying r 1 lowering with stage := { lowering.stage with awaitingSet := false } }
    s.engine.stroke = .running r 1 ∧ s.mode = .moving ∧ r.dir = .lower ∧ r.final = true ∧
      s.pawl.state = .withdrawn := by decide +kernel

/-- The final lowering stroke ends at its target: the arrival waits for the pawl, which is commanded SET. -/
theorem witness_CountsRunStroke_waits :
    let r := { downStroke with final := true }
    let s := stagedAtLift (.stage 1) 100 .lower 101 (flying r 1 lowering)
    let t := run (.countEvent false) s
    s.engine.stroke = .running r 1 ∧ s.mode = .moving ∧ s.pawl.state = .withdrawn ∧ InBand s ∧
      s.stage.record = .staged ⟨1000, .stage 1, 100, 100, false⟩ ∧ t.pawl.state = .setting ∧
      t.stage.awaitingSet = true ∧ t.mode = .moving ∧ t.ceiling.reason = .none := by
  unfold InBand; decide +kernel

/-- Take-up, with a contact stroke in flight and its watch armed. -/
def takingUp (travel : Nat) : State :=
  let s := flying contactStroke 60 (pair .moving (quietReport .moving))
  { s with
    stage := ⟨.unstaged, .raise, false⟩
    engine := { s.engine with travel := travel }
    loadMon := { s.loadMon with watch := true } }

theorem witness_CountsRunStroke_top :
    (takingUp 239999).engine.stroke = .running contactStroke 60 ∧ contactStroke.kind = .contact ∧
      contactStroke.dir = .raise ∧ (takingUp 239999).engine.travel + 1 = 240000 ∧
      (takingUp 239999).stage.record = .unstaged := by decide +kernel

theorem witness_CountsAtRest :
    let s := { pair .unstaged (quietReport .unstaged) with
      engine := { State.reset.engine with travel := 504, restRef := 500 } }
    (∀ r n, s.engine.stroke ≠ .running r n) ∧ s.engine.travel < 240000 ∧ s.engine.jog = .none ∧
      s.cfg.a = 4 ∧ Quiet s :=
  ⟨nofun, by decide +kernel, rfl, rfl, nofun, nofun⟩

/-- A jog in progress, at a travel. -/
def jogging (j : JogState) (travel : Nat) : State :=
  let s := pair .unstaged (quietReport .unstaged)
  { s with
    engine :=
      { s.engine with
        jog := j, source := .jog, drive := driveOf .jog .rest j, travel := travel }
    pawl := ⟨.withdrawn, .withdrawn, false, none, false, true⟩
    pendant := ⟨{ resetPendant with key := true, jogUp := j == .up, jogDown := j != .up }, 0⟩ }

theorem witness_CountsAtRest_jog :
    (jogging .up 239999).engine.jog = .up ∧ (jogging .up 239999).engine.travel + 1 = 240000 ∧
      (jogging .down 1).engine.jog = .down ∧ (jogging .down 1).engine.travel - 1 = 0 ∧
      (jogging .down 1).engine.stroke = .rest ∧ (jogging .down 1).pawl.state = .withdrawn ∧
      (jogging .down 2).mode = .unstaged := by decide +kernel

theorem witness_StrokeTimeLimit :
    let s := { lowering with timeBase := 20000 }
    s.engine.stroke = .running downStroke 60 ∧ due s.timeBase s.engine.limit = true ∧ MotionSafe s :=
  ⟨rfl, by decide +kernel, safe_running rfl rfl rfl rfl rfl rfl rfl (fun _ => rfl) ⟨nofun, nofun⟩⟩

/-- The dwell compare due. -/
def dwelt (s : State) : State := { s with engine := { s.engine with dwell := some 0 } }

/-- The state hypotheses of EvaluationAtDwell's main clause. -/
def AtDwell (s : State) : Prop :=
  due s.timeBase s.engine.dwell = true ∧ s.mode = .moving ∧ s.engine.stroke = .rest ∧
    s.stage.awaitingSet = false ∧ InBand s ∧ s.stagedRec.isSome = true ∧ s.lift.isSome = true ∧
    s.stage.dir ≠ .none

/-- Every choice of EvaluationAtDwell is made by some state: FULL, CHOP, LEAD and TAIL by the worked examples, then
ARRIVED, PEERS, PAWL, DWELL, a nudge and the asking for the pawl. -/
theorem witness_EvaluationAtDwell :
    let full := dwelt (spread .raise 15000 10120 10050 9700)
    let nudge := dwelt (spread .lower 5000 9400 9500 9900)
    AtDwell full ∧ AtDwell nudge ∧
      chosen (run .reversalDwellExpiry full) = .stroke .full 10120 10220 false ∧
      chosen (run .reversalDwellExpiry (dwelt (spread .raise 15000 10180 10050 9700))) =
        .stroke .chop 10180 10230 false ∧
      chosen (run .reversalDwellExpiry (dwelt (spread .raise 15000 14930 14850 14400))) =
        .stroke .tail 14930 15000 true ∧
      chosen (run .reversalDwellExpiry (dwelt (spread .raise 15000 10220 10050 9700))) = .wait .lead ∧
      (run .reversalDwellExpiry (dwelt (spread .raise 15000 14996 14850 14400))).ceiling.outcome =
        .arrived := by
  unfold AtDwell InBand; decide +kernel

/-- An evaluation with the share check active and the column in band. -/
theorem witness_EvaluationAtDwell_sharing :
    let s := dwelt (sharers 420 300 310 390)
    AtDwell s ∧ s.cfg.wmin ≤ totalW s ∧
      chosen (run .reversalDwellExpiry s) = .stroke .full 0 100 false := by
  unfold AtDwell InBand; decide +kernel

theorem witness_EvaluationAtDwell_waits :
    let s := dwelt (spread .raise 15000 10120 10050 9700)
    let low := dwelt (spread .lower 5000 9400 9500 9900)
    let due := fun u : State => { u with ceiling := { u.ceiling with nudgeDue := true } }
    let set := fun u : State => { u with pawl := { u.pawl with state := .set } }
    chosen (run .reversalDwellExpiry { s with table := s.table.map fun t =>
        { t with selfMarks := { t.selfMarks with live := .lost } } }) = .wait .peers ∧
      chosen (run .reversalDwellExpiry
        { s with pawl := { s.pawl with state := .setting } }) = .wait .pawl ∧
      chosen (run .reversalDwellExpiry
        { s with engine := { s.engine with lastDir := .lower, lastEnd := ⟨-4999, false⟩ } }) =
        .wait .dwell ∧
      chosen (run .reversalDwellExpiry
        { s with engine := { s.engine with lastDir := .lower, lastEnd := ⟨-5000, false⟩ } }) =
        .stroke .full 10120 10220 false ∧
      chosen (run .reversalDwellExpiry (due (set low))) = .stroke .nudge 9400 9430 false ∧
      (run .reversalDwellExpiry (set low)).pawl.state = .withdrawing := by decide +kernel

/-- The asking for the pawl, and a nudge with no room left above the column, from safe states. -/
theorem witness_EvaluationAtDwell_asks :
    let low := dwelt (spread .lower 5000 9400 9500 9900)
    let low := { low with pawl := { low.pawl with state := .set } }
    let top := dwelt (spread .lower 5000 198800 198800 198800)
    let top := { top with
      pawl := { top.pawl with state := .set }
      ceiling := { top.ceiling with nudgeDue := true, release := false } }
    MotionSafe low ∧ MotionSafe top ∧ min top.cfg.n (240000 - top.engine.travel) = 0 ∧
      (run .reversalDwellExpiry top).ceiling.nudgeDue = false ∧
      chosen (run .reversalDwellExpiry top) = .wait .peers :=
  ⟨safe_at_rest rfl rfl rfl rfl rfl rfl, safe_at_rest rfl rfl rfl rfl rfl rfl, by decide +kernel,
    by decide +kernel, by decide +kernel⟩

/-- Take-up at rest: an offer below the top of the screw's travel, HOLD at it, and each wait. -/
theorem witness_EvaluationAtDwell_takeUp :
    let at' := fun x => dwelt { pair .moving (quietReport .moving) with
      stage := ⟨.unstaged, .raise, false⟩
      engine := { State.reset.engine with travel := x } }
    let s := at' 239999
    let t := run .reversalDwellExpiry s
    s.mode = .moving ∧ s.engine.stroke = .rest ∧ s.stage.awaitingSet = false ∧
      s.stage.record = .unstaged ∧ chosen t = .stroke .contact 239999 0 false ∧
      (run .reversalDwellExpiry (at' 240000)).mode = .hold ∧
      chosen (run .reversalDwellExpiry { s with pawl := { s.pawl with state := .setting } }) =
        .wait .pawl ∧
      chosen (run .reversalDwellExpiry
        { s with engine := { s.engine with lastDir := .lower, lastEnd := ⟨-4999, false⟩ } }) =
        .wait .dwell ∧
      chosen (run .reversalDwellExpiry { s with table := s.table.map fun t =>
        { t with selfMarks := { t.selfMarks with live := .lost } } }) = .wait .peers := by
  decide +kernel

/-- Each clause on the wait stamp: a wait that begins, one that goes on with another reason, and one that ends. -/
theorem witness_EvaluationAtDwell_stamp :
    let s := { dwelt (spread .raise 15000 10220 10050 9700) with timeBase := 30000 }
    let long := { s with
      ceiling := { s.ceiling with reason := .dwell }
      lamps := { s.lamps with waitStamp := ⟨0, false⟩, waitingLong := true } }
    let there := { dwelt (spread .raise 15000 14996 14850 14400) with
      ceiling := long.ceiling, lamps := long.lamps }
    (run .reversalDwellExpiry s).lamps.waitStamp = ⟨30000, false⟩ ∧
      (run .reversalDwellExpiry long).lamps.waitStamp = ⟨0, false⟩ ∧
      (run .reversalDwellExpiry long).lamps.waitingLong = true ∧
      (run .reversalDwellExpiry there).lamps.waitingLong = false := by decide +kernel

/-- While an arrival waits for SET the ceiling unit is ARRIVED, one count outside the window too (R90). -/
theorem witness_EvaluationAtDwell_awaiting :
    let s := dwelt (stagedAtLift (.stage 1) 100 .lower 105 raising)
    let s := { s with
      stage := { s.stage with awaitingSet := true }
      pawl := ⟨.setting, .set, false, some 0, false, false⟩ }
    let t := run .reversalDwellExpiry s
    due s.timeBase s.engine.dwell = true ∧ s.mode = .moving ∧ s.engine.stroke = .rest ∧
      s.cfg.a = 4 ∧ s.lift = some 105 ∧ s.pawl.state ≠ .set ∧ InBand s ∧
      s.stage.record = .staged ⟨1000, .stage 1, 100, 100, false⟩ ∧ t.ceiling.outcome = .arrived ∧
      t.ceiling.reason = .none := by unfold InBand; decide +kernel

/-- A lowering-ready group sets the lowering-release flag (R95). -/
theorem witness_EvaluationAtDwell_release :
    let s := dwelt { lowering with
      engine := { lowering.engine with stroke := .rest, drive := .off }
      ceiling := { lowering.ceiling with release := false } }
    AtDwell s ∧ s.stage.dir = .lower ∧ s.ceiling.nudgeDue = false ∧ loweringReady s = true ∧
      (run .reversalDwellExpiry s).ceiling.release = true := by unfold AtDwell InBand; decide +kernel

theorem witness_EvaluationAtDwell_quiet :
    let s := dwelt (atRest 1 5000)
    due s.timeBase s.engine.dwell = true ∧ Quiet s :=
  ⟨by decide +kernel, nofun, nofun⟩

theorem witness_OfferWithinLeads :
    let s := spread .raise 15000 10120 10050 9700
    s.mode = .moving ∧ s.engine.stroke = .rest ∧
      s.stage.record = .staged ⟨41200, .stage 2, 15000, 15000, false⟩ ∧
      (evaluate s).spacing.offer =
        some ⟨.full, .raise, 10120, some 10220, false, .stage 2, 100⟩ ∧
      0 < s.cfg.l ∧ 0 < s.settings.chop ∧
      s.cfg.l ≤ s.cfg.cl ∧ s.cfg.cl ≤ s.cfg.sl ∧ s.cfg.l ≤ 8000 ∧
      (peerRows s).all (fun q => q.marks.live == .live && q.report.lift.isSome) = true := by
  decide +kernel

/-- A plan stage whose entry carries both leads, and the stages that have none. -/
theorem witness_OfferWithinLeads_leads :
    let s := { atRest 1 5000 with plan := ⟨[], false, [⟨40000, some 3000, some 600⟩], 0⟩ }
    s.plan.active[0]? = some ⟨40000, some 3000, some 600⟩ ∧ setLeadEff s (.stage 1) = 600 ∧
      carLeadEff s (.stage 1) = 600 ∧ carLeadEff s .setdown = s.cfg.cl := by decide +kernel

/-- The pawl in a state, with its switches' levels. -/
def pawlAt (p : PawlState) (setClosed withdrawnClosed : Bool) : State :=
  let s := pair .unstaged (quietReport .unstaged)
  { s with pawl := ⟨p, .set, false, some 0, setClosed, withdrawnClosed⟩ }

/-- Every result of R145's table is met by some switch event. -/
theorem witness_PawlMoves :
    (pawlAt .set true false).pawl.withdrawnClosed ≠ true ∧
      (pawlAt .setting false false).pawl.setClosed ≠ true ∧ Quiet (pawlAt .setting false false) ∧
      (run (.switchEvent .set true) (pawlAt .setting false false)).pawl.state = .set ∧
      (run (.switchEvent .set true) (pawlAt .setting false true)).pawl.state = .stuck ∧
      (run (.switchEvent .set false) (pawlAt .set true false)).pawl.state = .stuck ∧
      (run (.switchEvent .withdrawn true) (pawlAt .withdrawing false false)).pawl.state = .withdrawn ∧
      (run (.switchEvent .set false) (pawlAt .withdrawing true false)).pawl.state = .withdrawing := by
  unfold Quiet; decide +kernel

theorem witness_PawlMoves_pending :
    let s := { jogging .downWait 100 with pawl := ⟨.setting, .set, true, some 0, false, false⟩ }
    s.pawl.setClosed ≠ true ∧ s.pawl.state = .setting ∧ s.pawl.withdrawnClosed = false ∧ Quiet s ∧
      s.pawl.pendingWithdraw = true ∧ s.engine.jog = .downWait :=
  ⟨nofun, rfl, rfl, ⟨nofun, nofun⟩, rfl, rfl⟩

/-- In MOVING: an arrival that waits for SET, at a stage and at SETDOWN, a pawl that reaches SET with none waiting, and
one that reaches WITHDRAWN. -/
theorem witness_PawlMoves_moving :
    let wait := fun k => { stagedAtLift k 20 .lower 20 raising with
      stage := ⟨.staged ⟨1000, k, 20, 20, false⟩, .lower, true⟩
      pawl := ⟨.setting, .set, false, some 0, false, false⟩ }
    let none' := { raising with pawl := ⟨.setting, .set, false, some 0, false, false⟩ }
    let out := { stagedAtLift (.stage 1) 20 .lower 400 raising with
      pawl := ⟨.withdrawing, .withdrawn, false, some 0, false, false⟩ }
    (wait (.stage 1)).mode = .moving ∧ InBand (wait (.stage 1)) ∧
      (run (.switchEvent .set true) (wait (.stage 1))).mode = .settled ∧
      (run (.switchEvent .set true) (wait .setdown)).mode = .unstaged ∧
      none'.stage.awaitingSet = false ∧ none'.stage.dir ≠ .lower ∧
      out.stage.record = .staged ⟨1000, .stage 1, 20, 20, false⟩ ∧ InBand out ∧ out.mode = .moving ∧
      (run (.switchEvent .withdrawn true) out).pawl.state = .withdrawn := by
  unfold InBand; decide +kernel

/-- SETTLED, the pawl on its way to SET. -/
theorem witness_PawlMoves_settled :
    let s := { raising with
      modeCtl := ⟨.settled, false, none, none⟩, pawl := ⟨.setting, .set, false, some 0, false, false⟩ }
    s.pawl.state = .setting ∧ s.pawl.setClosed ≠ true ∧ s.pawl.withdrawnClosed = false ∧
      s.mode = .settled := by decide +kernel

theorem witness_PawlMoves_limit :
    let s := pawlAt .setting false false
    due s.timeBase s.pawl.limit = true ∧ s.pawl.state = .setting := by decide +kernel

theorem witness_LoadReading_overload :
    let s := flying upStroke 60 raising
    s.loadMon.watch = false ∧ s.loadMon.above = false ∧ s.cfg.wr = 1200 ∧ MotionSafe s ∧
      (run (.loadReading 1201) s).active .overload = true ∧
      (run (.loadReading 1200) s).active .overload = false :=
  ⟨rfl, rfl, rfl, witness_Contagion_safe, by decide +kernel, by decide +kernel⟩

theorem witness_LoadReading_jog :
    (jogging .up 100).loadMon.watch = false ∧ (jogging .up 100).engine.jog = .up ∧
      (jogging .up 100).cfg.wc = 20 ∧ (jogging .up 100).engine.stroke = .rest ∧
      (jogging .up 100).loadMon.above = false := by decide +kernel

theorem witness_LoadReading_quiet :
    let s := atRest 1 5000
    s.loadMon.watch = false ∧ s.loadMon.above = false ∧ s.engine.jog ≠ .up ∧ Quiet s :=
  ⟨rfl, rfl, nofun, nofun, nofun⟩

/-- SETTLED beside sharers that are not at rest: over, under and in band at these readings. -/
theorem witness_LoadReading_share :
    let s := { sharers 420 300 310 390 with modeCtl := ⟨.settled, false, none, none⟩ }
    s.loadMon.watch = false ∧ s.mode = .settled ∧ s.lift.isSome = true ∧ selfLive s = true ∧
      s.loadMon.share = .inactive ∧ (run (.loadReading 600) s).mode = .settled ∧
      (run (.loadReading 600) s).loadMon.share = .over ∧
      (run (.loadReading 150) s).loadMon.share = .under ∧
      (run (.loadReading 420) s).loadMon.share = .inBand ∧
      (run (.loadReading 600) s).loadMon.totalW = 1600 := by decide +kernel

/-- SETTLED and over: a reading that leaves the column over, one that takes it under, and one back in band. -/
theorem witness_LoadReading_return :
    let s := { sharers 600 300 310 390 with modeCtl := ⟨.settled, false, none, none⟩ }
    let s := setFault .loadShare ⟨true, true, 1, none, 0⟩
      { s with loadMon := { s.loadMon with share := .over } }
    s.loadMon.watch = false ∧ s.mode = .settled ∧ s.lift.isSome = true ∧ selfLive s = true ∧
      (run (.loadReading 610) s).loadMon.share = .over ∧
      (run (.loadReading 150) s).loadMon.share = .under ∧
      ((run (.loadReading 150) s).fault .loadShare).count = 1 ∧
      (run (.loadReading 420) s).loadMon.share = .inBand ∧
      (run (.loadReading 420) s).mode = .settled ∧
      (run (.loadReading 420) s).active .loadShare = false := by decide +kernel

/-- A reading below W_c during a contact stroke leaves the watch armed and the stroke running (R157). -/
theorem witness_LoadReading_watch :
    let s := takingUp 1000
    s.loadMon.watch = true ∧ s.cfg.wc = 20 ∧ s.engine.stroke = .running contactStroke 60 ∧
      s.mode = .moving ∧ s.stage.awaitingSet = false ∧ s.lift = none ∧ s.loadMon.above = false ∧
      s.engine.jog = .none ∧ (run (.loadReading 19) s).loadMon.watch = true ∧
      (run (.loadReading 19) s).engine = s.engine := by decide +kernel

theorem witness_LoadReading_moving :
    let s := sharers 420 300 310 390
    s.loadMon.watch = false ∧ s.mode = .moving ∧ s.lift.isSome = true ∧ selfLive s = true ∧
      (run (.loadReading 600) s).mode = .hold := by decide +kernel

theorem witness_ContactCapture :
    let s := takingUp 1000
    s.engine.stroke = .running contactStroke 60 ∧ contactStroke.kind = .contact ∧
      contactStroke.dir = .raise ∧ s.loadMon.watch = true ∧ s.cfg.wc = 20 ∧ s.stage.record = .unstaged ∧
      s.stage.awaitingSet = false ∧ s.stage.dir = .raise ∧ s.mode = .moving ∧
      s.loadMon.above = false ∧ s.cfg.wr = 1200 := by decide +kernel

/-! ### Witnesses: pendant, settings memory, stamps and service port -/

theorem witness_OrderButtonQueues :
    let s := pair .idle (quietReport .idle)
    let u := { s with pendant := ⟨{ resetPendant with key := true }, 0⟩ }
    let v := { u with line := { u.line with orderQueue := List.replicate 4 ⟨kindOrder, 0, 0, [0]⟩ } }
    buttonLevel u .up ≠ true ∧ u.pendant.levels.key = true ∧ u.mode = .idle ∧
      u.line.orderQueue.length < 4 ∧ 4 ≤ v.line.orderQueue.length ∧ s.pendant.levels.key = false ∧
      u.notice = false := by decide +kernel

theorem witness_JogRunsAndEnds_begins :
    let s := { jogging .none 100 with
      engine := { State.reset.engine with travel := 100 }
      pendant := ⟨{ resetPendant with key := true }, 0⟩ }
    s.engine.stroke = .rest ∧ s.mode = .unstaged ∧ s.pendant.levels.key = true ∧
      s.engine.jog = .none ∧ s.pendant.levels.jogUp = false ∧ s.pendant.levels.jogDown = false ∧
      s.loadMon.present < s.cfg.wc ∧ s.engine.travel < 240000 ∧ 0 < s.engine.travel ∧
      s.pawl.state = .withdrawn ∧ (pawlAt .set true false).pawl.state = .set := by decide +kernel

theorem witness_JogRunsAndEnds_ends :
    (jogging .up 100).pendant.levels.jogUp = true ∧ (jogging .up 100).engine.jog = .up ∧
      (jogging .down 100).pendant.levels.jogDown = true ∧ (jogging .down 100).engine.jog = .down ∧
      (jogging .down 100).pendant.levels.jogUp = false ∧
      (jogging .down 100).pendant.levels.key = true ∧ (jogging .down 100).engine.stroke = .rest ∧
      (jogging .down 100).pawl.state = .withdrawn ∧ (jogging .down 100).mode = .unstaged := by
  decide +kernel

theorem witness_WriteCompletes :
    let s := { State.reset with
      retained := { State.reset.retained with writing := some RetContent.blank, rewriteOwed := true } }
    s.retained.writing = some RetContent.blank ∧ s.notice = false ∧ s.retained.rewriteOwed = true := by
  decide +kernel

theorem witness_StampsAndWaits :
    let s := { raising with
      timeBase := 100001, spacing := { raising.spacing with lineStamp := ⟨0, false⟩ } }
    Calm s ∧ stampOf s .line = some ⟨0, false⟩ ∧
      stampOf (run (.stampExpired .line) s) .line = some ⟨0, true⟩ ∧
      stampOf (run (.stampExpired .line) { s with timeBase := 100000 }) .line = some ⟨0, false⟩ :=
  ⟨.inr rfl, rfl, by decide +kernel, by decide +kernel⟩

theorem witness_StampsAndWaits_long :
    let s := { raising with
      timeBase := 20000
      ceiling := { raising.ceiling with outcome := .wait, reason := .lead }
      lamps := { raising.lamps with waitStamp := ⟨0, false⟩ } }
    s.notice = false ∧ s.ceiling.reason ≠ .none ∧
      20000 ≤ (s.timeBase - s.lamps.waitStamp.value).toNat ∧ s.mode = .moving := by decide +kernel

theorem witness_ServiceReads :
    State.reset.service.collecting = none ∧ State.reset.service.gap = none ∧
      State.reset.service.sending = none ∧
      State.reset.notice = false ∧ 47 < (48 : Byte).toNat ∧
      rowOf State.reset (47 : Byte).toNat = none ∧
      (rowOf raising (5 : Byte).toNat).isSome = true ∧ 1 < (2 : Byte).toNat := by decide +kernel

theorem witness_ServiceWrites :
    lengthFits 6 [0, 0, 0, 0] = true ∧ lengthFits 6 [3, 0, 0, 0, 0, 0, 0, 0] = true ∧
      lengthFits 6 [1, 0, 0, 0] = false ∧ raising.service.sending = none ∧ raising.notice = false ∧
      (paramTable.getD 0 ⟨0, 0, 0⟩).low = 2 ∧ (paramTable.getD 19 ⟨0, 0, 0⟩).high = 60000 ∧
      Quiet (atRest 1 5000) :=
  ⟨rfl, rfl, rfl, rfl, rfl, rfl, rfl, nofun, nofun⟩

theorem witness_ServiceWrites_busy :
    let r : Request := ⟨2, [5]⟩
    let s := { raising with service := ⟨none, none, some (recordOf 129 [0]), none⟩ }
    let u := { raising with service := ⟨none, none, some (recordOf 129 [0]), some r⟩ }
    1 ≤ r.kind ∧ r.kind ≤ 10 ∧ lengthFits r.kind r.payload = true ∧ askedBy r = .peer [126, 2, 1, 5, 248] ∧
      s.service.collecting = none ∧ s.service.gap = none ∧
      s.service.sending = some (recordOf 129 [0]) ∧ s.service.waiting = none ∧
      u.service.waiting = some r ∧ (recordOf r.kind r.payload).length = 5 ∧ s.notice = false := by
  decide +kernel

/-- Records that are ignored: a sum, a kind and a length that are not right. -/
theorem witness_ServiceWrites_ignored :
    (0 : Byte) ≠ -(([1, 0] : List Byte).foldl (· + ·) 0) ∧ 10 < (11 : Byte).toNat ∧
      lengthFits 1 [5] = false ∧ raising.service.collecting = none ∧ raising.service.gap = none ∧
      (run (.status [126, 1, 0, 0]) raising).service.sending = none ∧
      (run (.status [126, 11, 0, 245]) raising).service.sending = none ∧
      (run (.status [126, 1, 1, 5, 249]) raising).service.sending = none := by decide +kernel

theorem witness_ServiceWrites_gap :
    let s := { raising with service := ⟨some [1], some 0, none, none⟩ }
    due s.timeBase s.service.gap = true ∧ Calm s := ⟨by decide +kernel, .inr rfl⟩
end Sys2Proof.Tests
end

/-! ## Bounds (O4)

Every operation keeps `Bounded`. One lemma per operation, in the order of the model's definitions; the
mode entries ask that the station is not BARRED, since only a START leaves BARRED and the numbers of a
barred station's candidates are not bounded by `Bounded`. -/

namespace Sys2Proof.Machine

theorem bump_le {cap n : Nat} (h : n ≤ cap) : bump cap n ≤ cap := by
  unfold bump; split <;> omega

/-! ### Updates that no bound speaks of -/

theorem bounded_notify {s : State} (h : Bounded s) : Bounded (notify s) := { h with }

theorem bounded_requestPose {s : State} (h : Bounded s) : Bounded (requestPose s) := by
  unfold requestPose
  split
  · exact h
  · split <;> exact { h with }

theorem bounded_requestRoll {s : State} (h : Bounded s) : Bounded (requestRoll s) := by
  unfold requestRoll; split <;> exact { h with }

theorem bounded_countDiscarded {s : State} (h : Bounded s) : Bounded (countDiscarded s) :=
  { h with discarded := bump_le h.discarded }

/-! ### The fault record -/

/-- A record whose counts are within a byte may take any place in the fault record. -/
theorem bounded_setFault {s : State} (k : FaultKind) {r : FaultRec} (h : Bounded s)
    (hc : r.count ≤ 255) (hs : r.snapshot ≤ 255) : Bounded (setFault k r s) :=
  { h with
    counts := fun j => by
      by_cases e : j = k
      · subst e; rw [fault_setFault_same]; exact ⟨hc, hs⟩
      · rw [fault_setFault_other e]; exact h.counts j }

theorem bounded_setActive {s : State} (k : FaultKind) (on : Bool) (h : Bounded s) :
    Bounded (setActive k on s) :=
  bounded_setFault k h (h.counts k).1 (h.counts k).2

theorem bounded_latchAt {s : State} (p : Place) (n : Option Nat) (k : FaultKind) (h : Bounded s) :
    Bounded (latchAt p n k s) := by
  have hf : Bounded (setFault k (occurred s.timeBase p n (s.fault k)) s) :=
    bounded_setFault k h (bump_le (h.counts k).1) (h.counts k).2
  unfold latchAt
  simp only []
  split
  · exact hf
  · exact bounded_requestPose (bounded_notify hf)

theorem bounded_unlatch {s : State} (p : FaultKind → Bool) (h : Bounded s) :
    Bounded (unlatch p s) := by
  have fold : ∀ (ks : List FaultKind) (t : State), Bounded t → Bounded (ks.foldl
      (fun acc k => if p k then setFault k { acc.fault k with latched := false } acc else acc) t) := by
    intro ks
    induction ks with
    | nil => exact fun t ht => ht
    | cons k ks ih =>
      intro t ht
      refine ih _ ?_
      beta_reduce
      split
      · exact bounded_setFault k ht (ht.counts k).1 (ht.counts k).2
      · exact ht
  unfold unlatch
  simp only []
  split
  · exact fold _ _ h
  · exact bounded_requestPose (bounded_notify (fold _ _ h))

/-! ### Claims, strokes and jogs -/

theorem bounded_withdrawNow {s : State} (h : Bounded s) : Bounded (withdrawNow s) :=
  { h with remaining := nofun, withdrawals := bump_le h.withdrawals }

theorem bounded_requestWithdrawal {s : State} (h : Bounded s) : Bounded (requestWithdrawal s) := by
  unfold requestWithdrawal
  split
  · exact h
  · exact bounded_withdrawNow h
  · exact { h with }
  · exact { h with }

theorem bounded_causeOfWithdrawal {s : State} (h : Bounded s) : Bounded (causeOfWithdrawal s) := by
  unfold causeOfWithdrawal
  split
  · exact bounded_requestWithdrawal h
  · exact h

theorem bounded_stopRun {s : State} (d : Direction) (h : Bounded s) : Bounded (stopRun d s) :=
  bounded_requestPose { h with restRef := h.travel, remaining := nofun }

theorem bounded_abortStroke {s : State} (h : Bounded s) : Bounded (abortStroke s) := by
  unfold abortStroke
  split
  · exact bounded_stopRun _ h
  · exact h

theorem bounded_cutStroke {s : State} (h : Bounded s) : Bounded (cutStroke s) := by
  unfold cutStroke
  split
  · split
    · exact bounded_stopRun _ h
    · exact h
  · exact h

/-- A stroke in flight keeps within the bounds with a remaining count of at most L + A. -/
theorem bounded_setRunning {s : State} (r : Stroke) {n : Nat} (h : Bounded s)
    (hn : n ≤ s.cfg.l + s.cfg.a) :
    Bounded { s with engine := { s.engine with stroke := .running r n } } :=
  { h with remaining := fun _ _ e => by cases e; exact hn }

theorem bounded_shortStop {s : State} (h : Bounded s) : Bounded (shortStop s) := by
  unfold shortStop
  split
  · rename_i r n hs
    exact bounded_requestPose (bounded_notify
      (bounded_setRunning _ h ((Nat.min_le_left _ _).trans (h.remaining r n hs))))
  · exact h

theorem bounded_dropJog {s : State} (h : Bounded s) : Bounded (dropJog s) :=
  { h with restRef := h.travel }

/-! ### The pawl -/

/-- The pawl has no bound. -/
theorem bounded_setPawl {s : State} (p : Pawl) (h : Bounded s) : Bounded { s with pawl := p } :=
  { h with }

theorem bounded_engineOnPawl {s : State} (p : PawlState) (h : Bounded s) :
    Bounded (engineOnPawl p s) := by
  unfold engineOnPawl
  split
  · split
    · exact { h with }
    · exact h
  · simp only []
    split
    · exact bounded_dropJog (bounded_setPawl _ (bounded_cutStroke h))
    · exact bounded_cutStroke h

theorem bounded_reportPawl {s : State} (p : PawlState) (h : Bounded s) : Bounded (reportPawl p s) := by
  have he : Bounded (engineOnPawl p (causeOfWithdrawal
      (requestPose (notify { s with pawl := { s.pawl with state := p } })))) :=
    bounded_engineOnPawl p (bounded_causeOfWithdrawal
      (bounded_requestPose (bounded_notify (bounded_setPawl _ h))))
  unfold reportPawl
  simp only []
  split
  · exact { he with }
  · exact he

theorem bounded_armPawlLimit {s : State} (h : Bounded s) : Bounded (armPawlLimit s) :=
  bounded_setPawl _ h

theorem bounded_disarmPawlLimit {s : State} (h : Bounded s) : Bounded (disarmPawlLimit s) :=
  bounded_setPawl _ h

theorem bounded_commandPawl {s : State} (c : PawlCommand) (h : Bounded s) :
    Bounded (commandPawl c s) := bounded_setPawl _ h

theorem bounded_pawlWithdraw {s : State} (h : Bounded s) : Bounded (pawlWithdraw s) := by
  unfold pawlWithdraw
  split
  · split
    · exact bounded_reportPawl _ (bounded_armPawlLimit (bounded_commandPawl _ h))
    · exact bounded_setPawl _ h
    · exact h
  · exact h

theorem bounded_pawlSet {s : State} (h : Bounded s) : Bounded (pawlSet s) := by
  have h0 : Bounded { s with pawl := { s.pawl with pendingWithdraw := false } } :=
    bounded_setPawl _ h
  have h1 := bounded_reportPawl .setting (bounded_armPawlLimit (bounded_commandPawl .set h0))
  unfold pawlSet
  simp only []
  split
  · exact h0
  · exact h0
  · split
    · exact bounded_reportPawl _ (bounded_disarmPawlLimit h1)
    · exact h1
  · exact h1
  · exact bounded_commandPawl _ h0

theorem bounded_pawlReachesSet {s : State} (h : Bounded s) : Bounded (pawlReachesSet s) := by
  have h1 : Bounded (reportPawl .set (disarmPawlLimit
      { s with pawl := { s.pawl with pendingWithdraw := false } })) :=
    bounded_reportPawl _ (bounded_disarmPawlLimit (bounded_setPawl _ h))
  unfold pawlReachesSet
  simp only []
  split
  · exact bounded_pawlWithdraw h1
  · exact h1

theorem bounded_pawlFoundWithdrawn {s : State} (h : Bounded s) : Bounded (pawlFoundWithdrawn s) := by
  unfold pawlFoundWithdrawn
  exact bounded_reportPawl _ (bounded_armPawlLimit
    (bounded_reportPawl _ (bounded_commandPawl _ h)))

theorem bounded_pawlOnResume {s : State} (h : Bounded s) : Bounded (pawlOnResume s) := by
  unfold pawlOnResume
  split
  · split
    · exact bounded_reportPawl _ h
    · exact bounded_pawlFoundWithdrawn h
    · exact h
  · exact h

theorem bounded_endJog {s : State} (h : Bounded s) : Bounded (endJog s) := by
  unfold endJog
  split
  · exact h
  · split
    · exact bounded_pawlSet (bounded_dropJog h)
    · exact bounded_dropJog h

/-! ### Retained content and the stage record -/

theorem contentFits_retainedNow {s : State} (h : Bounded s) : ContentFits (retainedNow s) := by
  refine ⟨h.active, ?_⟩
  intro r hr
  unfold retainedNow at hr
  cases hs : s.stage.record with
  | unstaged => simp [hs] at hr
  | restored q => simp only [hs, Option.some.injEq] at hr; exact hr ▸ h.restored q hs
  | staged q => simp only [hs, Option.some.injEq] at hr; exact hr ▸ h.staged q hs

theorem bounded_beginWrite {s : State} (h : Bounded s) : Bounded (beginWrite s) :=
  { h with
    retained := ⟨h.retained.1, h.retained.2.1, fun _ e => by cases e; exact h.retained.2.1⟩ }

theorem bounded_handRetained {s : State} (h : Bounded s) : Bounded (handRetained s) := by
  have h0 : Bounded { s with retained := { s.retained with content := retainedNow s } } :=
    { h with retained := ⟨h.retained.1, contentFits_retainedNow h, h.retained.2.2⟩ }
  unfold handRetained
  simp only []
  split
  · exact bounded_beginWrite h0
  · exact { h0 with }

/-- A stage record with a contact zero on the screw and a listed stage index. -/
theorem bounded_setStaged {s : State} {r : StagedRec} (d : Direction) (w : Bool) (h : Bounded s)
    (hz : r.contactZero ≤ 240000) (hk : StageFits r.stage) :
    Bounded { s with stage := ⟨.staged r, d, w⟩ } :=
  { h with staged := fun _ e => by cases e; exact ⟨hz, hk⟩, restored := nofun }

/-- Stage control with its record kept. -/
theorem bounded_keepStage {s : State} (d : Direction) (w : Bool) (h : Bounded s) :
    Bounded { s with stage := ⟨s.stage.record, d, w⟩ } := { h with }

theorem bounded_dropStage {s : State} (h : Bounded s) :
    Bounded { s with stage := ⟨.unstaged, .none, false⟩ } :=
  { h with staged := nofun, restored := nofun }

theorem bounded_stageEntry {s : State} {k : StageIx} (hk : StageFits k) (h : Bounded s) :
    Bounded (stageEntry k s) := by
  unfold stageEntry
  split
  · rename_i r hs
    have h1 := bounded_setStaged (r := stagedAt s r.contactZero k)
      (directionTo r.target (stageTarget s k)) s.stage.awaitingSet h (h.staged r hs).1 hk
    exact bounded_handRetained (bounded_notify { h1 with })
  · exact h

theorem bounded_setReason {s : State} (r : WaitReason) (h : Bounded s) : Bounded (setReason r s) :=
  { h with }

theorem bounded_ceilingIdle {s : State} (h : Bounded s) : Bounded (ceilingIdle s) := { h with }

/-! ### Mode entries -/

theorem bounded_recordStop {s : State} (m : Mode) (o : StopOrigin) (k : Option FaultKind)
    (n : Option Nat) (h : Bounded s) : Bounded (recordStop m o k n s) := { h with }

theorem bounded_refuse {s : State} (k : RefusedKind) (r : Reason) (n : Nat) (h : Bounded s) :
    Bounded (refuse k r n s) := { h with }

/-- A mode entry keeps the bounds when the candidates' numbers are stations' already, or need not be. -/
theorem bounded_setMode {s : State} {m : Mode} (hm : m ≠ .barred → s.mode ≠ .barred)
    (h : Bounded s) : Bounded (setMode m s) :=
  bounded_requestPose { h with candidateNumbers := fun e => h.candidateNumbers (hm e) }

theorem bounded_enterUnstaged {s : State} (hm : s.mode ≠ .barred) (h : Bounded s) :
    Bounded (enterUnstaged s) := by
  have h1 : Bounded (setMode .unstaged s) := bounded_setMode (fun _ => hm) h
  have tail : ∀ t : State, Bounded t → Bounded (pawlSet (ceilingIdle
      { t with ceiling := { t.ceiling with nudgeDue := false, release := false } })) :=
    fun t ht => bounded_pawlSet (bounded_ceilingIdle { ht with })
  unfold enterUnstaged
  simp only []
  split
  · exact tail _ h1
  · exact tail _ (bounded_handRetained (bounded_keepStage _ _ h1))

theorem bounded_enterSettled {s : State} (hm : s.mode ≠ .barred) (h : Bounded s) :
    Bounded (enterSettled s) :=
  bounded_pawlSet (bounded_ceilingIdle (bounded_setMode (fun _ => hm) h))

theorem bounded_enterHold {s : State} (hm : s.mode ≠ .barred) (h : Bounded s) :
    Bounded (enterHold s) :=
  bounded_pawlSet (bounded_ceilingIdle (bounded_causeOfWithdrawal
    (bounded_shortStop (bounded_setMode (fun _ => hm) h))))

theorem bounded_enterHalted {s : State} (hm : s.mode ≠ .barred) (h : Bounded s) :
    Bounded (enterHalted s) :=
  bounded_pawlSet (bounded_ceilingIdle (bounded_causeOfWithdrawal
    (bounded_abortStroke (bounded_endJog (bounded_setMode (fun _ => hm) h)))))

/-! ### Occurrences -/

theorem bounded_placeHalt {s : State} (k : FaultKind) (h : Bounded s) : Bounded (placeHalt k s) := by
  unfold placeHalt
  split
  · exact h
  · split
    · exact h
    · exact { h with }

theorem bounded_modeOnFault {s : State} (k : FaultKind) (h : Bounded s) :
    Bounded (modeOnFault k s) := by
  unfold modeOnFault
  split
  · split
    · exact bounded_placeHalt k h
    · exact bounded_placeHalt k h
    · exact bounded_placeHalt k h
    · rename_i hb _
      exact bounded_placeHalt k (bounded_recordStop _ _ _ _ (bounded_enterHalted hb h))
  · split
    · rename_i hm
      have hmov : s.mode = .moving := by simpa using (Bool.and_eq_true_iff.mp hm).2
      exact bounded_recordStop _ _ _ _ (bounded_enterHold (by simp [hmov]) h)
    · exact h

theorem bounded_reportAt {s : State} (p : Place) (k : FaultKind) (n : Option Nat) (h : Bounded s) :
    Bounded (reportAt p k n s) := bounded_modeOnFault k (bounded_latchAt p n k h)

theorem bounded_report {s : State} (k : FaultKind) (n : Option Nat) (h : Bounded s) :
    Bounded (report k n s) := bounded_reportAt _ k n h

theorem bounded_pawlStuck {s : State} (h : Bounded s) : Bounded (pawlStuck s) :=
  bounded_report _ _ (bounded_reportPawl _ (bounded_setPawl _ h))

/-- The load monitor with its present reading kept. -/
theorem bounded_setLoadMon {s : State} (l : LoadMon) (hl : l.present ≤ 4095) (h : Bounded s) :
    Bounded { s with loadMon := l } := { h with present := hl }

theorem bounded_writeShare {s : State} (h : Bounded s) : Bounded (writeShare s) :=
  bounded_setLoadMon _ h.present h

theorem bounded_shareEval {s : State} (h : Bounded s) : Bounded (shareEval s) := by
  unfold shareEval
  simp only []
  split
  · exact bounded_report _ _ (bounded_setActive _ _ (bounded_writeShare h))
  · split
    · exact bounded_setActive _ _ (bounded_writeShare h)
    · exact bounded_writeShare h

/-! ### Arrival and entry to MOVING -/

theorem bounded_endStaging {s : State} (hm : s.mode ≠ .barred) (h : Bounded s) :
    Bounded (endStaging s) := by
  unfold endStaging
  exact bounded_enterUnstaged (by rw [mode_handRetained]; exact hm)
    (bounded_handRetained (bounded_notify (bounded_dropStage h)))

theorem bounded_handOverArrival {s : State} (hm : s.mode ≠ .barred) (h : Bounded s) :
    Bounded (handOverArrival s) := by
  unfold handOverArrival
  split
  · exact bounded_endStaging hm h
  · exact bounded_enterSettled hm h
  · exact h

theorem bounded_arrive {s : State} (hm : s.mode ≠ .barred) (h : Bounded s) :
    Bounded (arrive s) := by
  unfold arrive
  split
  · exact bounded_handOverArrival hm h
  · simp only []
    split
    · exact bounded_keepStage _ _ h
    · exact bounded_pawlSet (bounded_keepStage _ _ h)

theorem bounded_markLimitReported {s : State} (h : Bounded s) : Bounded (markLimitReported s) := by
  unfold markLimitReported
  split
  · rename_i r hs
    exact bounded_setStaged (r := { r with limitReported := true }) _ _ h
      (h.staged r hs).1 (h.staged r hs).2
  · exact h

theorem bounded_arrivalTest {s : State} (h : Bounded s) : Bounded (arrivalTest s) := by
  unfold arrivalTest
  split
  · split
    · rename_i hm
      simp only []
      split
      · split
        · exact bounded_report _ _ (bounded_markLimitReported h)
        · exact bounded_arrive (by simp [hm]) h
      · split
        · exact h
        · exact bounded_report _ _ h
    · exact h
  · exact h

theorem bounded_enterMoving {s : State} (hm : s.mode ≠ .barred) (h : Bounded s) :
    Bounded (enterMoving s) := by
  have h1 : Bounded (setMode .moving (endJog s)) :=
    bounded_setMode (fun _ => by rw [mode_endJog]; exact hm) (bounded_endJog h)
  unfold enterMoving
  refine bounded_arrivalTest (bounded_shareEval ?_)
  simp only []
  split
  · exact { h1 with }
  · exact h1

theorem bounded_takeUp {s : State} (hm : s.mode ≠ .barred) (h : Bounded s) : Bounded (takeUp s) := by
  unfold takeUp
  exact bounded_enterMoving (by rw [mode_handRetained]; exact hm)
    (bounded_handRetained (bounded_notify (bounded_keepStage _ _ h)))

/-! ### Stroke end and contact -/

theorem bounded_strokeEnd {s : State} (r : Stroke) (h : Bounded s) : Bounded (strokeEnd r s) := by
  have nudge : ∀ t : State, Bounded t → Bounded
      (if r.kind = .nudge then { t with ceiling := { t.ceiling with nudgeDue := false } } else t) := by
    intro t ht; split
    · exact { ht with }
    · exact ht
  unfold strokeEnd
  simp only []
  split
  · refine bounded_arrivalTest ?_
    split
    · exact bounded_pawlSet (nudge _ (bounded_stopRun _ h))
    · exact nudge _ (bounded_stopRun _ h)
  · exact bounded_stopRun _ h

theorem bounded_captureContact {s : State} (h : Bounded s) : Bounded (captureContact s) := by
  have h1 := bounded_stopRun .raise h
  unfold captureContact
  exact bounded_arrivalTest (bounded_handRetained (bounded_notify
    (bounded_setStaged _ _ h1 h1.travel (Nat.zero_le _))))

theorem bounded_contactReport {s : State} (h : Bounded s) : Bounded (contactReport s) := by
  unfold contactReport
  split
  · split
    · exact bounded_captureContact h
    · exact h
  · exact h

theorem bounded_contactTest {s : State} (h : Bounded s) : Bounded (contactTest s) := by
  unfold contactTest
  split
  · exact bounded_contactReport (bounded_setLoadMon _ h.present h)
  · exact h

/-! ### Spacing unit and ceiling unit -/

/-- The spacing unit with its withdrawal count kept. -/
theorem bounded_setSpacing {s : State} (p : Spacing) (hp : p.withdrawals ≤ 255) (h : Bounded s) :
    Bounded { s with spacing := p } := { h with withdrawals := hp }

theorem bounded_queueClaim {s : State} (r : Stroke) (h : Bounded s) : Bounded (queueClaim r s) :=
  { h with remaining := nofun }

theorem bounded_tryQueue {s : State} (h : Bounded s) : Bounded (tryQueue s) := by
  unfold tryQueue
  split
  · exact h
  · split
    · split
      · exact bounded_queueClaim _ h
      · exact bounded_setSpacing _ h.withdrawals h
    · exact h

theorem bounded_handOffer {s : State} (o : Option Stroke) (h : Bounded s) :
    Bounded (handOffer o s) := by
  unfold handOffer
  split
  · exact bounded_setSpacing _ h.withdrawals h
  · exact bounded_tryQueue (bounded_setSpacing _ h.withdrawals h)

/-- The ceiling unit has no bound. -/
theorem bounded_setCeiling {s : State} (c : Ceiling) (h : Bounded s) :
    Bounded { s with ceiling := c } := { h with }

theorem bounded_giveOffer {s : State} (r : Stroke) (h : Bounded s) : Bounded (giveOffer r s) := by
  unfold giveOffer
  exact bounded_handOffer _ (bounded_setCeiling _ (bounded_setReason _ h))

theorem bounded_giveWait {s : State} (r : WaitReason) (h : Bounded s) : Bounded (giveWait r s) := by
  unfold giveWait
  exact bounded_handOffer _ (bounded_setCeiling _ (bounded_setReason _ h))

theorem bounded_giveArrived {s : State} (h : Bounded s) : Bounded (giveArrived s) := by
  unfold giveArrived
  exact bounded_handOffer _ (bounded_setCeiling _ (bounded_setReason _ h))

theorem bounded_offerOrLead {s : State} (o : Option Stroke) (h : Bounded s) :
    Bounded (offerOrLead o s) := by
  unfold offerOrLead
  split
  · exact bounded_giveOffer _ h
  · exact bounded_giveWait _ h

theorem bounded_evalTakeUp {s : State} (h : Bounded s) : Bounded (evalTakeUp s) := by
  unfold evalTakeUp
  split
  · exact bounded_report _ _ (bounded_giveWait _ h)
  · split
    · exact bounded_giveOffer _ h
    · exact bounded_giveWait _ h

theorem bounded_evalRaise {s : State} (r : StagedRec) (x : Int) (h : Bounded s) :
    Bounded (evalRaise r x s) := by
  unfold evalRaise
  split
  · exact bounded_offerOrLead _ h
  · exact bounded_giveWait _ h

theorem bounded_evalLower {s : State} (r : StagedRec) (x : Int) (h : Bounded s) :
    Bounded (evalLower r x s) := by
  unfold evalLower
  simp only []
  split
  · refine bounded_pawlWithdraw ?_
    split
    · exact bounded_offerOrLead _ h
    · exact bounded_giveWait _ h
  · split
    · exact bounded_offerOrLead _ h
    · exact bounded_giveWait _ h

theorem bounded_markRelease {s : State} (h : Bounded s) : Bounded (markRelease s) := by
  unfold markRelease
  split
  · exact bounded_setCeiling _ h
  · exact h

theorem bounded_evalNudge {s : State} (r : StagedRec) (x : Int) (h : Bounded s) :
    Bounded (evalNudge r x s) := by
  unfold evalNudge
  split
  · split
    · exact bounded_evalLower r x (bounded_markRelease (bounded_notify (bounded_setCeiling _ h)))
    · split
      · exact bounded_giveOffer _ h
      · exact bounded_giveWait _ h
  · exact bounded_giveWait _ h

theorem bounded_evalAtRest {s : State} (h : Bounded s) : Bounded (evalAtRest s) := by
  unfold evalAtRest
  split
  · simp only []
    split
    · exact bounded_giveArrived (bounded_markRelease h)
    · split
      · split
        · exact bounded_evalNudge _ _ (bounded_markRelease h)
        · exact bounded_evalLower _ _ (bounded_markRelease h)
      · exact bounded_evalRaise _ _ (bounded_markRelease h)
  · exact bounded_evalTakeUp h

theorem bounded_evaluate {s : State} (h : Bounded s) : Bounded (evaluate s) := by
  unfold evaluate
  split
  · split
    · exact bounded_ceilingIdle h
    · simp only []
      split
      · exact bounded_setSpacing _ h.withdrawals h
      · exact bounded_requestWithdrawal (bounded_setSpacing _ h.withdrawals h)
    · exact bounded_evalAtRest h
  · exact bounded_ceilingIdle h

/-! ### Settling -/

theorem bounded_awaitTest {s : State} (h : Bounded s) : Bounded (awaitTest s) := by
  unfold awaitTest
  split
  · rename_i hc
    exact bounded_handOverArrival (s := { s with stage := { s.stage with awaitingSet := false } })
      (by show s.mode ≠ .barred; simp [hc.2.1]) (bounded_keepStage _ _ h)
  · exact h

theorem bounded_restTest {s : State} (h : Bounded s) : Bounded (restTest s) := by
  unfold restTest
  split
  · split
    · rename_i hc
      exact bounded_setMode (fun _ => by simp [hc.1]) h
    · exact h
  · exact h

theorem bounded_readers {s : State} (h : Bounded s) : Bounded (readers s) :=
  bounded_evaluate (bounded_restTest (bounded_awaitTest (bounded_shareEval h)))

theorem bounded_settle (n : Nat) {s : State} (h : Bounded s) : Bounded (settle n s) := by
  induction n generalizing s with
  | zero => exact h
  | succ n ih =>
    unfold settle
    split
    · exact ih (bounded_readers { h with })
    · exact h

theorem bounded_armBusy {s : State} (h : Bounded s) : Bounded (armBusy s) := by
  unfold armBusy
  split
  · exact { h with }
  · exact h

/-- What ends every command keeps the bounds. -/
theorem bounded_finish {s : State} (h : Bounded s) : Bounded (finish s) := by
  have hb := bounded_armBusy (s := clearNotice (settle settleRounds s))
    { bounded_settle settleRounds h with }
  exact { hb with }

end Sys2Proof.Machine

/-! ### Commands keep the bounds -/

namespace Sys2Proof.Machine

/-- Whatever state an outcome leads to is within the bounds. -/
def NextBounded (o : Host.Outcome State Fault Refusal) : Prop := ∀ t, o = .next t → Bounded t

theorem nextBounded_next {s : State} (h : Bounded s) : NextBounded (.next s) :=
  fun _ e => by cases e; exact h

theorem nextBounded_finish {s : State} (h : Bounded s) : NextBounded (.next (finish s)) :=
  nextBounded_next (bounded_finish h)

/-! #### The line -/

/-- The line controller with its queues and counts within their bounds. -/
theorem bounded_setLine {s : State} {l : Line} (h : Bounded s)
    (ho : l.orderQueue.length ≤ 4) (hp : l.planQueue.length ≤ 4) (hf : l.failures ≤ 16)
    (hb : l.badFrames ≤ 65535) (hd : l.discarded ≤ 65535) : Bounded { s with line := l } :=
  { h with orderQueue := ho, planQueue := hp, failures := hf, badFrames := hb, discarded := hd }

/-- The line controller with its queues and counts kept. -/
theorem bounded_keepLine {s : State} {l : Line} (h : Bounded s)
    (ho : l.orderQueue = s.line.orderQueue) (hp : l.planQueue = s.line.planQueue)
    (hf : l.failures = s.line.failures) (hb : l.badFrames = s.line.badFrames)
    (hd : l.discarded = s.line.discarded) : Bounded { s with line := l } :=
  bounded_setLine h (ho ▸ h.orderQueue) (hp ▸ h.planQueue) (hf ▸ h.failures) (hb ▸ h.badFrames)
    (hd ▸ h.discarded)

theorem bounded_dropAttempt {s : State} (h : Bounded s) : Bounded (dropAttempt s) :=
  bounded_keepLine h rfl rfl rfl rfl rfl

theorem bounded_lineBusy {s : State} (h : Bounded s) : Bounded (lineBusy s) :=
  bounded_keepLine h rfl rfl rfl rfl rfl

theorem bounded_claimOffLine {s : State} (h : Bounded s) : Bounded (claimOffLine s) := by
  unfold claimOffLine
  split
  · rename_i f _ _
    have h1 : Bounded { s with line := { s.line with claim := .waiting f } } :=
      bounded_keepLine h rfl rfl rfl rfl rfl
    simp only []
    split
    · exact bounded_requestWithdrawal h1
    · exact h1
  · exact bounded_keepLine h rfl rfl rfl rfl rfl
  · exact h

theorem bounded_failedClaim {s : State} (h : Bounded s) : Bounded (failedClaim s) := by
  unfold failedClaim
  simp only []
  split
  · split
    · exact bounded_claimOffLine h
    · exact bounded_requestWithdrawal (bounded_claimOffLine h)
  · exact bounded_claimOffLine h

theorem bounded_countFailure {s : State} (h : Bounded s) : Bounded (countFailure s) := by
  have h1 : Bounded { s with line := { s.line with failures := bump 16 s.line.failures } } :=
    bounded_setLine h h.orderQueue h.planQueue (bump_le h.failures) h.badFrames h.discarded
  unfold countFailure
  simp only []
  split
  · exact bounded_report _ _ (bounded_setActive _ _ h1)
  · exact h1

theorem bounded_failAttempt {s : State} (h : Bounded s) : Bounded (failAttempt s) := by
  have h1 := bounded_dropAttempt (bounded_lineBusy h)
  unfold failAttempt
  refine bounded_countFailure ?_
  split
  · exact bounded_failedClaim h1
  · exact h1

theorem bounded_leavePlace {s : State} (k : BitVec 3) (h : Bounded s) :
    Bounded (leavePlace k s) := by
  have ho : s.line.orderQueue.tail.length ≤ 4 := by
    have := h.orderQueue; rw [List.length_tail]; omega
  have hp : s.line.planQueue.tail.length ≤ 4 := by
    have := h.planQueue; rw [List.length_tail]; omega
  have hl : ∀ l : Line, l.orderQueue.length ≤ 4 → l.planQueue.length ≤ 4 → l.failures ≤ 16 →
      l.badFrames ≤ 65535 → l.discarded ≤ 65535 → Bounded { s with line := l } :=
    fun l => bounded_setLine h
  unfold leavePlace
  simp only []
  split
  · exact hl _ h.orderQueue h.planQueue h.failures h.badFrames h.discarded
  · split
    · exact hl _ ho h.planQueue h.failures h.badFrames h.discarded
    · split
      · exact hl _ h.orderQueue hp h.failures h.badFrames h.discarded
      · split
        · exact hl _ h.orderQueue h.planQueue h.failures h.badFrames h.discarded
        · split
          · exact hl _ h.orderQueue h.planQueue h.failures h.badFrames h.discarded
          · exact hl _ h.orderQueue h.planQueue h.failures h.badFrames h.discarded

theorem bounded_completeOwn {s : State} (k : BitVec 3) (h : Bounded s) :
    Bounded (completeOwn k s) :=
  bounded_setActive _ _ (bounded_leavePlace k
    (bounded_setLine h h.orderQueue h.planQueue (Nat.zero_le _) h.badFrames h.discarded))

theorem bounded_frameArrives {s : State} (w : WireFrame) (h : Bounded s) :
    Bounded (frameArrives w s) := by
  unfold frameArrives
  split
  · exact bounded_completeOwn _ (bounded_lineBusy h)
  · exact bounded_lineBusy h

/-! #### Candidates -/

theorem mem_insertCandidate {c d : Candidate} {cs : List Candidate}
    (h : d ∈ insertCandidate c cs) : d = c ∨ d ∈ cs := by
  induction cs with
  | nil => exact .inl (by simpa [insertCandidate] using h)
  | cons e es ih =>
    unfold insertCandidate at h
    split at h
    · exact List.mem_cons.mp h
    · split at h
      · exact (List.mem_cons.mp h).imp id (List.mem_cons_of_mem _)
      · rcases List.mem_cons.mp h with h | h
        · exact .inr (h ▸ List.mem_cons_self)
        · exact (ih h).imp id (List.mem_cons_of_mem _)

/-- Candidates stay in rising order of number (R28). -/
theorem pairwise_insertCandidate (c : Candidate) {cs : List Candidate}
    (h : cs.Pairwise fun a b => a.number < b.number) :
    (insertCandidate c cs).Pairwise fun a b => a.number < b.number := by
  induction cs with
  | nil => simp [insertCandidate]
  | cons e es ih =>
    obtain ⟨he, hes⟩ := List.pairwise_cons.mp h
    unfold insertCandidate
    split
    · rename_i hlt
      refine List.pairwise_cons.mpr ⟨fun a ha => ?_, h⟩
      rcases List.mem_cons.mp ha with rfl | ha
      · exact hlt
      · exact hlt.trans (he a ha)
    · split
      · rename_i heq
        exact List.pairwise_cons.mpr ⟨fun a ha => heq ▸ he a ha, hes⟩
      · rename_i h1 h2
        refine List.pairwise_cons.mpr ⟨fun a ha => ?_, ih hes⟩
        rcases mem_insertCandidate ha with rfl | ha
        · omega
        · exact he a ha

/-- Numbers that rise and are stations' are at most 48. -/
theorem length_le_of_numbers {cs : List Candidate}
    (h : cs.Pairwise fun a b => a.number < b.number) (hn : ∀ c ∈ cs, c.number < 48) :
    cs.length ≤ 48 := by
  have hnd : (cs.map (·.number)).Nodup :=
    (List.pairwise_map.mpr h).imp fun hab => Nat.ne_of_lt hab
  have hsub : cs.map (·.number) ⊆ List.range 48 := by
    intro n hn'
    obtain ⟨c, hc, rfl⟩ := List.mem_map.mp hn'
    exact List.mem_range.mpr (hn c hc)
  simpa using (List.subperm_of_subset hnd hsub).length_le

/-- A candidate set of stations' numbers in rising order. -/
theorem bounded_setRoll {s : State} {r : Roll} (h : Bounded s)
    (hp : r.candidates.Pairwise fun a b => a.number < b.number)
    (hn : ∀ c ∈ r.candidates, c.number < 48) : Bounded { s with roll := r } :=
  { h with
    candidates := ⟨hp, length_le_of_numbers hp hn⟩
    candidateNumbers := fun _ => hn }

/-- The roll-call unit with its candidates kept. -/
theorem bounded_keepRoll {s : State} {r : Roll} (h : Bounded s)
    (hc : r.candidates = s.roll.candidates) : Bounded { s with roll := r } :=
  { h with
    candidates := by show r.candidates.Pairwise _ ∧ _; rw [hc]; exact h.candidates
    candidateNumbers := by show _ → ∀ c ∈ r.candidates, _; rw [hc]; exact h.candidateNumbers }

theorem bounded_setTable {s : State} (a : Option PeerTable) (h : Bounded s) :
    Bounded { s with table := a } := { h with }

theorem bounded_beginPose {s : State} (h : Bounded s) : Bounded (beginPose s) :=
  bounded_keepLine h rfl rfl rfl rfl rfl

theorem bounded_closeWindow {s : State} (h : Bounded s) : Bounded (closeWindow s) :=
  bounded_keepRoll h rfl

theorem bounded_enterBarred {s : State} (h : Bounded s) : Bounded (enterBarred s) := by
  unfold enterBarred
  exact bounded_pawlSet (bounded_ceilingIdle (bounded_beginPose (bounded_setMode
    (fun e => absurd rfl e) (bounded_setTable none (bounded_dropStage (bounded_closeWindow h))))))

theorem bounded_rollInWindow {s : State} (n : Nat) (m : RollMsg) (hm : s.mode = .rollcall)
    (h : Bounded s) : Bounded (rollInWindow n m s) := by
  unfold rollInWindow
  split
  · exact bounded_report _ _ h
  · rename_i hn
    split
    · exact bounded_report _ _ h
    · have hnew : ∀ c ∈ insertCandidate (candidateOf s.timeBase n m) s.roll.candidates,
          c.number < 48 := by
        intro c hc
        rcases mem_insertCandidate hc with rfl | hc
        · exact Nat.lt_of_not_le hn
        · exact h.candidateNumbers (by simp [hm]) c hc
      have hset : Bounded (setCandidates
          (insertCandidate (candidateOf s.timeBase n m) s.roll.candidates) s) :=
        bounded_setRoll h (pairwise_insertCandidate _ h.candidates.1) hnew
      simp only []
      split
      · split
        · exact hset
        · exact bounded_report _ _ h
      · split
        · exact bounded_enterBarred (bounded_report _ _ (bounded_keepRoll hset rfl))
        · exact bounded_keepRoll hset rfl

/-! #### Freeze and answers -/

theorem bounded_leaveRollcall {s : State} {enter : State → State} (hm : s.mode ≠ .barred)
    (he : Bounded (enter s)) (h : Bounded s) : Bounded (leaveRollcall enter s) := by
  unfold leaveRollcall
  refine bounded_beginPose ?_
  split
  · exact bounded_recordStop _ _ _ _ (bounded_enterHalted hm h)
  · exact he

theorem bounded_retainedLost {s : State} (h : Bounded s) : Bounded (retainedLost s) :=
  bounded_enterBarred (bounded_report _ _ h)

theorem bounded_rejoin {s : State} {r : RetStage} (hr : RetStageFits r) (hm : s.mode ≠ .barred)
    (h : Bounded s) : Bounded (rejoin r s) := by
  have h1 : Bounded { s with
      stage := { s.stage with record := .staged (stagedAt s r.contactZero r.stage) }
      modeCtl := { s.modeCtl with rejoined := true } } :=
    { bounded_setStaged (r := stagedAt s r.contactZero r.stage) s.stage.dir s.stage.awaitingSet h
        hr.1 hr.2 with }
  exact bounded_leaveRollcall hm (bounded_enterHold hm h1) h1

theorem bounded_retainedDecision {s : State} (hm : s.mode ≠ .barred) (h : Bounded s) :
    Bounded (retainedDecision s) := by
  have hu := bounded_leaveRollcall hm (bounded_enterUnstaged hm h) h
  unfold retainedDecision
  split
  · split
    · rename_i r hr
      split
      · exact bounded_rejoin (h.restored r hr) hm h
      · exact bounded_retainedLost h
    · exact hu
  · split
    · exact hu
    · exact bounded_retainedLost h

theorem bounded_freeze {s : State} (hm : s.mode ≠ .barred) (h : Bounded s) :
    Bounded (freeze s) := by
  unfold freeze
  exact bounded_retainedDecision hm { bounded_closeWindow h with }

theorem bounded_armPacing {s : State} (h : Bounded s) : Bounded (armPacing s) :=
  bounded_keepRoll h rfl

theorem bounded_answerRoll {s : State} (h : Bounded s) : Bounded (answerRoll s) := by
  unfold answerRoll
  split
  · exact bounded_armPacing (bounded_requestRoll h)
  · exact bounded_keepRoll h rfl

theorem bounded_rollInBarred {s : State} (n : Nat) (m : RollMsg) (h : Bounded s) :
    Bounded (rollInBarred n m s) := by
  unfold rollInBarred
  split
  · exact bounded_answerRoll h
  · exact h

/-! #### Frames delivered -/

theorem bounded_onTable {s : State} (f : PeerTable → PeerTable) (h : Bounded s) :
    Bounded (onTable f s) := bounded_notify (bounded_setTable _ h)

theorem bounded_signOfLife {s : State} (n : Nat) (h : Bounded s) : Bounded (signOfLife n s) := by
  unfold signOfLife
  simp only []
  split
  · exact bounded_setActive _ _ (bounded_onTable _ h)
  · exact bounded_onTable _ h

theorem mode_signOfLife (n : Nat) (s : State) : (signOfLife n s).mode = s.mode := by
  unfold signOfLife; simp only []; split <;> rfl

/-- A frame that is delivered acts on a state within the bounds, outside ROLLCALL and BARRED. -/
theorem bounded_deliver {s : State} (n : Nat) {act : State → State}
    (ha : ∀ t : State, t.mode ≠ .barred → Bounded t → Bounded (act t)) (h : Bounded s) :
    Bounded (deliver n act s) := by
  unfold deliver
  split
  · exact h
  · rename_i hm
    split
    · exact ha _ (by rw [mode_signOfLife]; exact fun e => hm (.inr e)) (bounded_signOfLife n h)
    · exact bounded_countDiscarded h

/-- A frame that completes keeps the bounds when its content does. -/
theorem nextBounded_receive {s : State} (w : WireFrame) {act : Content → State → State}
    (ha : ∀ (c : Content) (t : State), Bounded t → Bounded (act c t)) (h : Bounded s) :
    NextBounded (receive w act s) := by
  unfold receive
  refine nextBounded_finish ?_
  split
  · exact bounded_countDiscarded (bounded_frameArrives w h)
  · exact ha _ _ (bounded_frameArrives w h)

theorem bounded_rollFromMember {s : State} (n : Nat) (m : RollMsg) (r : Row) (h : Bounded s) :
    Bounded (rollFromMember n m r s) := by
  have row : ∀ (k : RollMode) (t : State), Bounded t → Bounded (rollToRow n k t) := by
    intro k t ht
    unfold rollToRow
    split
    · exact ht
    · exact bounded_onTable _ ht
  unfold rollFromMember
  simp only []
  split
  · split
    · exact bounded_answerRoll (row _ _ (bounded_signOfLife n h))
    · exact row _ _ (bounded_signOfLife n h)
  · exact bounded_report _ _ (bounded_signOfLife n h)

theorem bounded_actRoll {s : State} (n : Nat) (c : Content) (h : Bounded s) :
    Bounded (actRoll n c s) := by
  unfold actRoll
  split
  · unfold takeRoll
    split
    · exact bounded_rollInWindow n _ ‹_› h
    · exact bounded_rollInBarred n _ h
    · split
      · exact bounded_rollFromMember n _ _ h
      · exact bounded_report _ _ h
  · exact h

theorem bounded_stampClaim {s : State} (g : Nat) (h : Bounded s) : Bounded (stampClaim g s) :=
  bounded_setSpacing _ h.withdrawals h

theorem bounded_takeClaim {s : State} (n : Nat) (m : ClaimMsg) (h : Bounded s) :
    Bounded (takeClaim n m s) := by
  unfold takeClaim
  split
  · exact h
  · simp only []
    have h1 : ∀ g, Bounded (stampClaim g (stampRowClaim n s)) :=
      fun g => bounded_stampClaim g (bounded_onTable _ h)
    split
    · exact h1 _
    · unfold withdrawForClaim
      split
      · exact bounded_causeOfWithdrawal (bounded_onTable _ (h1 _))
      · exact bounded_onTable _ (h1 _)

theorem bounded_actClaim {s : State} (n : Nat) (c : Content) (h : Bounded s) :
    Bounded (actClaim n c s) := by
  unfold actClaim
  split
  · exact bounded_deliver n (fun _ _ => bounded_takeClaim n _) h
  · exact h

/-! #### The claim taken -/

theorem bounded_runStroke {s : State} (r : Stroke) {n : Nat} (hn : n ≤ s.cfg.l + s.cfg.a)
    (h : Bounded s) : Bounded (runStroke r n s) := by
  have h0 := bounded_setRunning r h hn
  have h1 : Bounded { s with
      engine :=
        { s.engine with
          stroke := .running r n
          limit := armed s.timeBase (10 * s.cfg.tst)
          drive := driveOf s.engine.source (.running r n) s.engine.jog } } := { h0 with }
  have h2 := bounded_ceilingIdle (bounded_notify h1)
  unfold runStroke
  simp only []
  split
  · exact bounded_contactTest (bounded_setLoadMon _ h2.present h2)
  · exact h2

theorem bounded_restStroke {s : State} (h : Bounded s) :
    Bounded { s with engine := { s.engine with stroke := .rest } } := { h with remaining := nofun }

theorem bounded_engineOnClaim {s : State} (held : Bool) (h : Bounded s) :
    Bounded (engineOnClaim held s) := by
  unfold engineOnClaim
  split
  · rename_i r hr
    simp only []
    split
    · rename_i hc
      obtain ⟨-, -, -, hfar⟩ := hc
      have hle : startingCount s r ≤ (s.cfg.l : Int) + s.cfg.a := by
        have := of_decide_eq_false hfar; omega
      split
      · exact bounded_strokeEnd r h
      · exact bounded_runStroke r (by omega) h
    · have h1 := bounded_requestPose (bounded_notify (bounded_restStroke h))
      unfold voidClaim
      simp only []
      split
      · exact bounded_report _ _ h1
      · exact h1
  · exact h

theorem bounded_claimIsTaken {s : State} (h : Bounded s) : Bounded (claimIsTaken s) := by
  have h1 : Bounded (completeOwn kindClaim
      { lineBusy s with line := { (lineBusy s).line with claim := .empty } }) :=
    bounded_completeOwn _ (bounded_keepLine (bounded_lineBusy h) rfl rfl rfl rfl rfl)
  unfold claimIsTaken
  simp only []
  split
  · exact h1
  · exact bounded_engineOnClaim _ (bounded_setSpacing _ (Nat.zero_le _)
      (bounded_stampClaim _ (bounded_onTable _ (bounded_signOfLife _ h1))))

/-! #### Orders, POSE and HALT -/

theorem bounded_refuseOrder {s : State} (k : RefusedKind) (r : Reason) (n : Nat) (h : Bounded s) :
    Bounded (refuseOrder k r n s) := by
  unfold refuseOrder
  simp only []
  split
  · exact bounded_report _ _ (bounded_refuse _ _ _ h)
  · exact bounded_refuse _ _ _ h

theorem stageFits_stageAbove {s : State} {k : StageIx} (h : Bounded s)
    (e : stageAbove s = some k) : StageFits k := by
  unfold stageAbove at e
  split at e
  · split at e
    · rename_i hlt
      cases e
      exact Nat.succ_le_of_lt (hlt.trans_le h.active.1)
    · cases e
  · cases e

theorem stageFits_stageBelow {s : State} {k : StageIx} (h : Bounded s)
    (e : stageBelow s = some k) : StageFits k := by
  unfold stageBelow at e
  split at e
  · rename_i j hj
    cases e
    obtain ⟨r, hr, hk⟩ := Option.map_eq_some_iff.mp hj
    have := (h.staged r ((stagedRec_eq_some s r).mp hr)).2
    rw [hk] at this
    exact (Nat.le_succ j).trans this
  · cases e; trivial
  · cases e

theorem bounded_moveTo {s : State} {k : StageIx} (hk : StageFits k) (hm : s.mode ≠ .barred)
    (h : Bounded s) : Bounded (moveTo k s) := by
  unfold moveTo
  exact bounded_enterMoving (by rw [mode_stageEntry]; exact hm) (bounded_stageEntry hk h)

theorem bounded_takeAdvance {s : State} (n : Nat) (hm : s.mode ≠ .barred) (h : Bounded s) :
    Bounded (takeAdvance n s) := by
  unfold takeAdvance
  split
  · split
    · exact bounded_refuseOrder _ _ _ h
    · split
      · exact bounded_refuseOrder _ _ _ h
      · exact bounded_takeUp hm h
  · split
    · exact bounded_refuseOrder _ _ _ h
    · rename_i k hk
      split
      · exact bounded_refuseOrder _ _ _ h
      · exact bounded_moveTo (stageFits_stageAbove h hk) hm h
  · exact bounded_refuseOrder _ _ _ h

theorem bounded_takeRetreat {s : State} (n : Nat) (hm : s.mode ≠ .barred) (h : Bounded s) :
    Bounded (takeRetreat n s) := by
  unfold takeRetreat
  split
  · split
    · exact bounded_refuseOrder _ _ _ h
    · split
      · rename_i k hk
        exact bounded_moveTo (stageFits_stageBelow h hk) hm h
      · exact bounded_refuseOrder _ _ _ h
  · exact bounded_refuseOrder _ _ _ h

theorem bounded_takeStop {s : State} (n : Nat) (hm : s.mode ≠ .barred) (h : Bounded s) :
    Bounded (takeStop n s) := by
  unfold takeStop
  split
  · exact bounded_recordStop _ _ _ _ (bounded_enterHold hm h)
  · exact h

theorem mode_unlatch (p : FaultKind → Bool) (s : State) : (unlatch p s).mode = s.mode := by
  have fold : ∀ (ks : List FaultKind) (t : State), (ks.foldl
      (fun acc k => if p k then setFault k { acc.fault k with latched := false } acc else acc)
      t).mode = t.mode := by
    intro ks
    induction ks with
    | nil => exact fun _ => rfl
    | cons k ks ih =>
      intro t
      rw [List.foldl_cons, ih]
      split <;> rfl
  unfold unlatch
  simp only []
  split
  · exact fold _ _
  · rw [mode_requestPose, mode_notify]; exact fold _ _

theorem mode_pawlFoundWithdrawn (s : State) : (pawlFoundWithdrawn s).mode = s.mode := by
  unfold pawlFoundWithdrawn; simp

theorem mode_pawlOnResume (s : State) : (pawlOnResume s).mode = s.mode := by
  unfold pawlOnResume
  split
  · split
    · exact mode_reportPawl _ s
    · exact mode_pawlFoundWithdrawn s
    · rfl
  · rfl

theorem bounded_resumeMode {s : State} (n : Nat) (hm : s.mode ≠ .barred) (h : Bounded s) :
    Bounded (resumeMode n s) := by
  unfold resumeMode
  split
  · split
    · exact bounded_refuseOrder _ _ _ h
    · split
      · exact bounded_refuseOrder _ _ _ h
      · split
        · exact bounded_refuseOrder _ _ _ h
        · exact bounded_enterMoving hm h
  · split
    · exact bounded_refuseOrder _ _ _ h
    · split
      · exact bounded_refuseOrder _ _ _ h
      · unfold leaveHalted
        split
        · exact bounded_enterUnstaged hm h
        · split
          · exact bounded_enterSettled hm h
          · exact bounded_enterHold hm h
  · exact h

theorem bounded_takeResume {s : State} (n : Nat) (hm : s.mode ≠ .barred) (h : Bounded s) :
    Bounded (takeResume n s) := by
  unfold takeResume acknowledge
  exact bounded_resumeMode n (by rw [mode_unlatch, mode_pawlOnResume]; exact hm)
    (bounded_unlatch _ (bounded_pawlOnResume h))

theorem bounded_actHalt {s : State} (n : Nat) (c : Content) (h : Bounded s) :
    Bounded (actHalt n c s) := by
  unfold actHalt
  split
  · refine bounded_deliver n (fun t hm ht => ?_) h
    unfold takeHalt
    split
    · exact bounded_recordStop _ _ _ _ (bounded_enterHalted hm ht)
    · exact ht
  · exact h

theorem stageFits_catchUpStage {s : State} {m : PoseMsg} {k : StageIx} (h : Bounded s)
    (e : catchUpStage m s = some k) : StageFits k := by
  unfold catchUpStage at e
  split at e
  · split at e
    · exact stageFits_stageAbove h e
    · split at e
      · exact stageFits_stageBelow h e
      · cases e
  · cases e

theorem bounded_catchUp {s : State} (m : PoseMsg) (hm : s.mode ≠ .barred) (h : Bounded s) :
    Bounded (catchUp m s) := by
  have join : Bounded (match catchUpStage m s, groupCheck s with
      | some k, none => moveTo k s
      | _, _ => s) := by
    split
    · rename_i hk _
      exact bounded_moveTo (stageFits_catchUpStage h hk) hm h
    · exact h
  unfold catchUp
  split
  · split
    · exact bounded_takeUp hm h
    · exact h
  · exact join
  · exact join
  · exact h

theorem bounded_actPose {s : State} (n : Nat) (c : Content) (h : Bounded s) :
    Bounded (actPose n c s) := by
  unfold actPose
  split
  · refine bounded_deliver n (fun t hm ht => ?_) h
    unfold takePose
    split
    · exact ht
    · have ht' := bounded_onTable (mapReport n fun _ => reportOf ‹_›) ht
      unfold modeOnPose
      split
      · exact bounded_recordStop _ _ _ _ (bounded_enterHalted hm ht')
      · split
        · exact bounded_recordStop _ _ _ _ (bounded_enterHold hm ht')
        · exact bounded_catchUp _ hm ht'
  · exact h

/-! #### The plan store -/

theorem entryFits_entryOf (x : Nat) (c e : Option Nat) : EntryFits (entryOf x c e) := by
  refine ⟨Nat.min_le_right _ _, ?_, ?_⟩ <;>
  · intro l hl
    obtain ⟨v, -, rfl⟩ := Option.map_eq_some_iff.mp hl
    exact Nat.min_le_right _ _

/-- A LOAD leaves the staging bank with at most 16 entries, each within its limits (R66, R67). -/
theorem bankFits_append {bank : List PlanEntry} {e : PlanEntry} (h : ∀ x ∈ bank, EntryFits x)
    (he : EntryFits e) (hl : bank.length < 16) : BankFits (bank ++ [e]) := by
  refine ⟨by simpa using hl, fun x hx => ?_⟩
  rcases List.mem_append.mp hx with hx | hx
  · exact h x hx
  · rw [List.mem_singleton.mp hx]; exact he

theorem bounded_takePlan {s : State} (n : Nat) (op : PlanOp) (h : Bounded s) :
    Bounded (takePlan n op s) := by
  unfold takePlan
  split
  · have he := entryFits_entryOf
    unfold takeLoad
    split
    · rename_i hlt
      exact { h with staging := bankFits_append h.staging.2 (he _ _ _) hlt }
    · exact
        { h with
          staging := bankFits_append (fun x hx => h.staging.2 x (List.mem_of_mem_take hx))
            (he _ _ _) (by rw [List.length_take]; omega) }
  · exact { h with staging := ⟨Nat.zero_le _, nofun⟩ }
  · unfold takeAdopt
    split
    · exact bounded_refuse _ _ _ h
    · exact bounded_requestPose (bounded_handRetained { h with active := h.staging })

theorem bounded_actPlan {s : State} (n : Nat) (c : Content) (h : Bounded s) :
    Bounded (actPlan n c s) := by
  unfold actPlan
  split
  · exact bounded_deliver n (fun _ _ => bounded_takePlan n _) h
  · exact h

/-! #### The column -/

theorem bounded_creepTest {s : State} (h : Bounded s) : Bounded (creepTest s) := by
  unfold creepTest
  simp only []
  split
  · have h1 := bounded_report .drift none h
    exact { h1 with restRef := h1.travel }
  · exact h

theorem bounded_afterCount {s : State} (up : Bool) (h : Bounded s) : Bounded (afterCount up s) := by
  unfold afterCount
  split
  · rename_i r n hs
    have hn := h.remaining r n hs
    unfold countRunning
    split
    · exact bounded_report _ _ (bounded_stopRun _ h)
    · split
      · split
        · exact bounded_strokeEnd r h
        · exact bounded_setRunning r h (by omega)
      · split
        · exact bounded_report _ _ (bounded_stopRun _ h)
        · exact bounded_setRunning r h (by omega)
  · split
    · exact bounded_creepTest h
    · unfold jogTravelTest
      split
      · split
        · exact bounded_endJog h
        · exact h
      · split
        · exact bounded_endJog h
        · exact h
      · exact h

theorem countTravel_le {up : Bool} {x y : Nat} (hx : x ≤ 240000) (e : countTravel up x = some y) :
    y ≤ 240000 := by
  unfold countTravel topTravel at e
  split at e <;> split at e <;> simp at e <;> omega

theorem bounded_overloadTest {s : State} (h : Bounded s) : Bounded (overloadTest s) := by
  have h1 := bounded_setLoadMon { s.loadMon with above := aboveRated s } h.present h
  unfold overloadTest
  simp only []
  split
  · exact bounded_report _ _ (bounded_setActive _ _ h1)
  · split
    · exact bounded_setActive _ _ h1
    · exact h1

theorem bounded_loadTests {s : State} (h : Bounded s) : Bounded (loadTests s) := by
  unfold loadTests
  split
  · simp only []
    split
    · exact bounded_overloadTest (bounded_contactTest { h with })
    · exact bounded_contactTest (bounded_overloadTest { h with })
  · exact bounded_contactTest (bounded_overloadTest h)

theorem bounded_takeReading {s : State} {v : Nat} (hv : v ≤ 4095) (h : Bounded s) :
    Bounded (takeReading v s) := by
  unfold takeReading
  simp only []
  split
  · exact bounded_notify (bounded_setLoadMon _ hv h)
  · exact bounded_setLoadMon _ hv h

theorem bounded_jogLoadTest {s : State} (h : Bounded s) : Bounded (jogLoadTest s) := by
  unfold jogLoadTest
  split
  · exact bounded_endJog h
  · exact h

theorem bounded_pawlOnSwitch {s : State} (sw : PawlSwitch) (closed : Bool) (h : Bounded s) :
    Bounded (pawlOnSwitch sw closed s) := by
  unfold pawlOnSwitch
  split
  · exact bounded_pawlStuck h
  · exact bounded_pawlStuck h
  · split
    · exact bounded_pawlStuck h
    · exact bounded_reportPawl _ (bounded_disarmPawlLimit h)
  · exact bounded_pawlStuck h
  · exact bounded_pawlStuck h
  · split
    · exact bounded_pawlStuck h
    · exact bounded_pawlReachesSet h
  · exact h

/-! #### The pendant -/

theorem bounded_setLevels {s : State} (f : PendantLevels → PendantLevels) (h : Bounded s) :
    Bounded (setLevels f s) := { h with }

theorem bounded_queueOrder {s : State} (b : OrderButton) (h : Bounded s) :
    Bounded (queueOrder b s) := by
  unfold queueOrder
  split
  · rename_i hlt
    exact { h with orderQueue := by simpa using hlt }
  · exact { h with discards := bump_le h.discards }

theorem bounded_setJog {s : State} (j : JogState) (h : Bounded s) : Bounded (setJog j s) :=
  { h with }

theorem bounded_jogUp {s : State} (h : Bounded s) : Bounded (jogUp s) := by
  unfold jogUp
  split
  · exact bounded_setJog _ h
  · exact h

theorem bounded_jogDown {s : State} (h : Bounded s) : Bounded (jogDown s) := by
  unfold jogDown
  split
  · split
    · exact bounded_setJog _ h
    · exact bounded_pawlWithdraw (bounded_setJog _ h)
  · exact h

/-! #### Writes and marks -/

theorem bounded_completeWrite {s : State} {c : RetContent} (hc : ContentFits c) (h : Bounded s) :
    Bounded (completeWrite c s) := by
  have h1 : Bounded { s with retained :=
      { s.retained with marker := true, record := c, writing := none, rewriteOwed := false } } :=
    { h with retained := ⟨hc, h.retained.2.1, nofun⟩ }
  unfold completeWrite
  simp only []
  split
  · exact bounded_beginWrite h1
  · exact h1

/-- Candidates changed in other fields than their numbers. -/
theorem bounded_mapCandidates {s : State} {f : Candidate → Candidate}
    (hf : ∀ c, (f c).number = c.number) (h : Bounded s) :
    Bounded (setCandidates (s.roll.candidates.map f) s) :=
  { h with
    candidates := by
      refine ⟨?_, by simpa using h.candidates.2⟩
      show (s.roll.candidates.map f).Pairwise _
      rw [List.pairwise_map]
      exact h.candidates.1.imp fun hab => by rw [hf, hf]; exact hab
    candidateNumbers := fun hm c hc => by
      obtain ⟨d, hd, rfl⟩ := List.mem_map.mp hc
      rw [hf]; exact h.candidateNumbers hm d hd }

theorem bounded_markStamp {s : State} (ref : StampRef) (h : Bounded s) :
    Bounded (markStamp ref s) := by
  unfold markStamp
  simp only []
  split
  · exact bounded_mapCandidates (fun c => by split <;> rfl) h
  · exact bounded_setTable _ h
  · exact bounded_setTable _ h
  · exact bounded_setSpacing _ h.withdrawals h
  · exact bounded_setSpacing _ h.withdrawals h
  · exact { h with }
  · exact { h with }
  · exact { h with }
  · exact { h with }
  · rename_i k
    exact bounded_setFault k h (h.counts k).1 (h.counts k).2

/-! #### The service port -/

theorem bounded_askPlanFrame {s : State} (p : List Byte) (h : Bounded s) :
    Bounded (askPlanFrame p s).2 := by
  unfold askPlanFrame
  split
  · exact h
  · split
    · exact h
    · rename_i hlt
      exact { h with planQueue := by simpa using hlt }

theorem bounded_takeSnapshots {s : State} (h : Bounded s) : Bounded (takeSnapshots s) :=
  { h with
    counts := fun k => by
      have e : (takeSnapshots s).fault k = { s.fault k with snapshot := (s.fault k).count } := by
        simp [takeSnapshots, State.fault]
      rw [e]; exact ⟨(h.counts k).1, (h.counts k).1⟩ }

theorem bounded_answer {s : State} (r : Request) (h : Bounded s) : Bounded (answer r s).2 := by
  unfold answer
  split
  · exact h
  · exact h
  · exact bounded_takeSnapshots h
  · exact bounded_unlatch _ h
  · exact h
  · exact bounded_askPlanFrame _ h
  · exact bounded_askPlanFrame _ h
  · exact bounded_askPlanFrame _ h
  · exact h
  · split
    · exact { h with }
    · exact h
  · exact h

theorem bounded_setService {s : State} (p : Service) (h : Bounded s) :
    Bounded { s with service := p } := { h with }

theorem bounded_takeRequest {s : State} (r : Request) (h : Bounded s) : Bounded (takeRequest r s) :=
  bounded_setService _ (bounded_answer r h)

theorem bounded_feedByte {s : State} (b : Byte) (h : Bounded s) : Bounded (feedByte s b) := by
  unfold feedByte
  split
  · split
    · exact bounded_setService _ h
    · exact h
  · simp only []
    split
    · split
      · unfold acceptRequest
        split
        · exact bounded_takeRequest _ (bounded_setService _ h)
        · exact bounded_setService _ (bounded_setService _ h)
        · exact bounded_setService _ h
      · exact bounded_setService _ h
    · exact bounded_setService _ h

theorem nextBounded_feed {s : State} (bytes : List Byte) (h : Bounded s) :
    NextBounded (feed bytes s) := by
  have fold : ∀ (bs : List Byte) (t : State), Bounded t → Bounded (bs.foldl feedByte t) := by
    intro bs
    induction bs with
    | nil => exact fun _ ht => ht
    | cons b bs ih => exact fun t ht => ih _ (bounded_feedByte b ht)
  refine nextBounded_finish (fold _ _ ?_)
  unfold breakOff
  split
  · exact bounded_setService _ h
  · exact h

/-! #### START -/

theorem contentFits_blank : ContentFits RetContent.blank :=
  ⟨⟨Nat.zero_le _, nofun⟩, nofun⟩

theorem contentFits_startRetained {r : Retained} (h : ContentFits r.record) :
    ContentFits (startRetained r).content := by
  unfold startRetained
  simp only []
  split
  · exact h
  · exact contentFits_blank

theorem bounded_startState {s : State} (i : StartInputs) (h : Bounded s) :
    Bounded (startState i s) := by
  have hc := contentFits_startRetained h.retained.1
  exact
    { travel := Nat.min_le_right _ _
      restRef := Nat.min_le_right _ _
      present := Nat.le_of_lt_succ i.load.isLt
      staged := by
        intro r hr
        simp only [startState] at hr
        split at hr <;> cases hr
      restored := by
        intro r hr
        simp only [startState] at hr
        split at hr
        · rename_i hq; cases hr; exact hc.2 _ hq
        · cases hr
      candidates := ⟨.nil, Nat.zero_le _⟩
      candidateNumbers := fun _ => nofun
      remaining := nofun
      orderQueue := Nat.zero_le _
      planQueue := Nat.zero_le _
      failures := Nat.zero_le _
      badFrames := Nat.zero_le _
      discarded := Nat.zero_le _
      discards := Nat.zero_le _
      withdrawals := Nat.zero_le _
      counts := by
        intro k
        have e : (startState i s).fault k = FaultRec.clear := by simp [startState, State.fault]
        rw [e]; exact ⟨Nat.zero_le _, Nat.zero_le _⟩
      flash := Nat.succ_pos _
      staging := ⟨Nat.zero_le _, nofun⟩
      active := hc.1
      retained := ⟨h.retained.1, hc, nofun⟩ }

theorem bounded_emergencyOpens {s : State} (h : Bounded s) : Bounded (emergencyOpens s) :=
  bounded_report _ _ (bounded_setActive _ _ h)

theorem bounded_startTests {s : State} (x : Int) (h : Bounded s) : Bounded (startTests x s) := by
  have encoder : ∀ t : State, Bounded t → Bounded (startEncoderTest x t) := by
    intro t ht; unfold startEncoderTest; split
    · exact bounded_reportAt _ _ _ ht
    · exact ht
  have pawl : ∀ t : State, Bounded t → Bounded (startPawlTest t) := by
    intro t ht; unfold startPawlTest; split
    · exact bounded_report _ _ ht
    · exact ht
  have emergency : ∀ t : State, Bounded t → Bounded (startEmergencyTest t) := by
    intro t ht; unfold startEmergencyTest; split
    · exact ht
    · exact bounded_emergencyOpens ht
  have load : ∀ t : State, Bounded t → Bounded (startLoadTest t) := by
    intro t ht; unfold startLoadTest; split
    · exact bounded_report _ _ (bounded_setActive _ _ ht)
    · exact ht
  have strap : ∀ t : State, Bounded t → Bounded (startStrapTest t) := by
    intro t ht; unfold startStrapTest; split
    · exact bounded_report _ _ ht
    · exact ht
  exact strap _ (load _ (emergency _ (pawl _ (encoder _ h))))

theorem bounded_openWindow {s : State} (hn : s.own < 48) (h : Bounded s) :
    Bounded (openWindow s) := by
  refine bounded_requestRoll (bounded_setRoll h ?_ ?_)
  · exact List.pairwise_singleton _ _
  · intro c hc
    rw [List.mem_singleton.mp hc]; exact hn

/-! #### The step -/

theorem nextBounded_exec (c : Instr) {s : State} (h : Bounded s) : NextBounded (exec c s) := by
  have still : NextBounded (.next s) := nextBounded_next h
  cases c with
  | start i =>
    have h1 := bounded_startTests i.encoder (bounded_startState i h)
    refine nextBounded_finish ?_
    split
    · exact bounded_enterBarred h1
    · exact bounded_openWindow (by omega) h1
  | lineIdleStartBit peer =>
    simp only [exec, execLineIdleStartBit]
    split
    · exact still
    · exact nextBounded_finish (bounded_keepLine h rfl rfl rfl rfl rfl)
  | lostArbitration =>
    simp only [exec, execLostArbitration]
    split
    · exact still
    · exact nextBounded_finish (bounded_claimOffLine (bounded_dropAttempt h))
  | wonArbitration =>
    simp only [exec, execWonArbitration]
    split
    · exact nextBounded_finish { h with }
    · exact still
  | bitError =>
    simp only [exec, execBitError]
    split
    · exact still
    · exact nextBounded_finish (bounded_failAttempt h)
  | lineBusyLimitExpiry =>
    simp only [exec, execLineBusyLimitExpiry]
    split
    · exact nextBounded_finish (bounded_countFailure (bounded_keepLine h rfl rfl rfl rfl rfl))
    · exact still
  | badFrame levels =>
    simp only [exec, execBadFrame]
    split
    · exact still
    · exact nextBounded_finish { h with badFrames := bump_le h.badFrames }
  | rollFrame f => exact nextBounded_receive _ (fun c _ => bounded_actRoll _ c) h
  | poseFrame f => exact nextBounded_receive _ (fun c _ => bounded_actPose _ c) h
  | claimFrame f => exact nextBounded_receive _ (fun c _ => bounded_actClaim _ c) h
  | claimTaken =>
    simp only [exec, execClaimTaken]
    split
    · exact nextBounded_finish (bounded_claimIsTaken h)
    · exact still
  | advance f =>
    exact nextBounded_receive _ (fun _ _ => bounded_deliver _ fun _ => bounded_takeAdvance _) h
  | retreat f =>
    exact nextBounded_receive _ (fun _ _ => bounded_deliver _ fun _ => bounded_takeRetreat _) h
  | stop f =>
    exact nextBounded_receive _ (fun _ _ => bounded_deliver _ fun _ => bounded_takeStop _) h
  | resume f =>
    exact nextBounded_receive _ (fun _ _ => bounded_deliver _ fun _ => bounded_takeResume _) h
  | haltFrame f => exact nextBounded_receive _ (fun c _ => bounded_actHalt _ c) h
  | load low f => exact nextBounded_receive _ (fun c _ => bounded_actPlan _ c) h
  | clear low f => exact nextBounded_receive _ (fun c _ => bounded_actPlan _ c) h
  | adopt low f => exact nextBounded_receive _ (fun c _ => bounded_actPlan _ c) h
  | posePeriodExpiry =>
    simp only [exec, execPosePeriodExpiry]
    split
    · exact nextBounded_finish (bounded_requestPose (bounded_keepLine h rfl rfl rfl rfl rfl))
    · exact still
  | rollQuietExpiry =>
    simp only [exec, execRollQuietExpiry]
    split
    · have h1 : Bounded { s with roll := { s.roll with quiet := none } } := bounded_keepRoll h rfl
      refine nextBounded_finish ?_
      split
      · rename_i hm
        split
        · exact bounded_enterBarred h1
        · exact bounded_freeze (by rw [hm.1]; nofun) h1
      · exact h1
    · exact still
  | rollLimitExpiry =>
    simp only [exec, execRollLimitExpiry]
    split
    · have h1 : Bounded { s with roll := { s.roll with limit := none } } := bounded_keepRoll h rfl
      refine nextBounded_finish ?_
      split
      · exact bounded_enterBarred (bounded_report _ _ h1)
      · exact h1
    · exact still
  | rollPacingExpiry =>
    simp only [exec, execRollPacingExpiry]
    split
    · have h1 : Bounded { s with roll := { s.roll with pacing := none } } := bounded_keepRoll h rfl
      refine nextBounded_finish ?_
      split
      · exact bounded_armPacing (bounded_requestRoll h1)
      · split
        · exact bounded_armPacing (bounded_requestRoll { h1 with })
        · exact h1
    · exact still
  | silenceExpiry n =>
    simp only [exec, execSilenceExpiry]
    split
    · exact still
    · split
      · refine nextBounded_finish (bounded_report _ _ ?_)
        split
        · exact bounded_setActive _ _ (bounded_onTable _ h)
        · exact bounded_onTable _ h
      · exact still
  | spacingInstantExpiry =>
    simp only [exec, execSpacingInstantExpiry]
    split
    · exact nextBounded_finish (bounded_tryQueue (bounded_setSpacing _ h.withdrawals h))
    · exact still
  | strokeTimeLimitExpiry =>
    simp only [exec, execStrokeTimeLimitExpiry]
    split
    · have h1 : Bounded { s with engine := { s.engine with limit := none } } := { h with }
      refine nextBounded_finish ?_
      split
      · exact bounded_report _ _ (bounded_stopRun _ h1)
      · exact h1
    · exact still
  | reversalDwellExpiry =>
    simp only [exec, execReversalDwellExpiry]
    split
    · exact nextBounded_finish (bounded_notify { h with })
    · exact still
  | pawlTimeLimitExpiry =>
    simp only [exec, execPawlTimeLimitExpiry]
    split
    · refine nextBounded_finish ?_
      split
      · exact bounded_pawlStuck (bounded_disarmPawlLimit h)
      · exact bounded_pawlStuck (bounded_disarmPawlLimit h)
      · exact bounded_disarmPawlLimit h
    · exact still
  | countEvent up =>
    refine nextBounded_finish ?_
    split
    · exact bounded_reportAt _ _ _ h
    · rename_i x hx
      have h1 : Bounded { s with engine := { s.engine with travel := x } } :=
        { h with travel := countTravel_le h.travel hx }
      refine bounded_afterCount up ?_
      split
      · exact bounded_notify h1
      · exact h1
  | encoderError => exact nextBounded_finish (bounded_reportAt _ _ _ h)
  | loadReading v =>
    exact nextBounded_finish (bounded_shareEval (bounded_jogLoadTest (bounded_loadTests
      (bounded_takeReading (Nat.le_of_lt_succ v.isLt) h))))
  | switchEvent sw closed =>
    simp only [exec, execSwitchEvent]
    split
    · exact still
    · refine nextBounded_finish (bounded_pawlOnSwitch sw closed ?_)
      cases sw
      · exact bounded_setPawl _ h
      · exact bounded_setPawl _ h
  | orderButtonPress b pressed =>
    simp only [exec, execOrderButtonPress]
    split
    · exact still
    · refine nextBounded_finish ?_
      split
      · exact bounded_queueOrder b (bounded_setLevels _ h)
      · exact bounded_setLevels _ h
  | jogUpPress =>
    simp only [exec, execJogUpPress]
    split
    · exact still
    · refine nextBounded_finish ?_
      split
      · exact bounded_endJog (bounded_setLevels _ h)
      · split
        · exact bounded_jogUp (bounded_setLevels _ h)
        · exact bounded_setLevels _ h
  | jogDownPress =>
    simp only [exec, execJogDownPress]
    split
    · exact still
    · refine nextBounded_finish ?_
      split
      · exact bounded_endJog (bounded_setLevels _ h)
      · split
        · exact bounded_jogDown (bounded_setLevels _ h)
        · exact bounded_setLevels _ h
  | jogUpRelease =>
    simp only [exec, execJogUpRelease]
    split
    · refine nextBounded_finish ?_
      split
      · exact bounded_endJog (bounded_setLevels _ h)
      · exact bounded_setLevels _ h
    · exact still
  | jogDownRelease =>
    simp only [exec, execJogDownRelease]
    split
    · refine nextBounded_finish ?_
      split
      · exact bounded_endJog (bounded_setLevels _ h)
      · exact bounded_setLevels _ h
    · exact still
  | keySwitch on =>
    simp only [exec, execKeySwitch]
    split
    · exact still
    · refine nextBounded_finish ?_
      split
      · exact bounded_setLevels _ h
      · exact bounded_endJog (bounded_setLevels _ h)
  | emergencyOpen =>
    simp only [exec, execEmergencyOpen]
    split
    · exact nextBounded_finish (bounded_emergencyOpens (bounded_setLevels _ h))
    · exact still
  | emergencyClose =>
    simp only [exec, execEmergencyClose]
    split
    · exact still
    · exact nextBounded_finish (bounded_setActive _ _ (bounded_setLevels _ h))
  | writeCompletion =>
    simp only [exec, execWriteCompletion]
    split
    · exact still
    · rename_i c hc
      exact nextBounded_finish (bounded_completeWrite (h.retained.2.2 c hc) h)
  | stampExpired ref => exact nextBounded_finish (bounded_markStamp ref h)
  | waitingLong =>
    simp only [exec, execWaitingLong]
    split
    · exact nextBounded_finish { h with }
    · exact still
  | status bytes => exact nextBounded_feed bytes h
  | peer bytes => exact nextBounded_feed bytes h
  | readFaults bytes => exact nextBounded_feed bytes h
  | ack bytes => exact nextBounded_feed bytes h
  | planRead bytes => exact nextBounded_feed bytes h
  | planLoad bytes => exact nextBounded_feed bytes h
  | planClear bytes => exact nextBounded_feed bytes h
  | planAdopt bytes => exact nextBounded_feed bytes h
  | settingsRead bytes => exact nextBounded_feed bytes h
  | settingWrite bytes => exact nextBounded_feed bytes h
  | serviceByteGap =>
    simp only [exec, execServiceByteGap]
    split
    · exact nextBounded_finish (bounded_setService _ h)
    · exact still
  | replySent =>
    simp only [exec, execReplySent]
    split
    · exact still
    · refine nextBounded_finish ?_
      split
      · exact bounded_setService _ h
      · exact bounded_takeRequest _ (bounded_setService _ (bounded_setService _ h))
  | malformedFrame w =>
    simp only [exec, execMalformedFrame]
    split
    · exact nextBounded_finish (bounded_countDiscarded (bounded_lineBusy h))
    · exact still

theorem bounded_tick {s : State} (h : Bounded s) : Bounded (tick s) :=
  { h with flash := Nat.mod_lt _ (by decide) }

theorem nextBounded_step {s : State} (h : Bounded s) : NextBounded (step s) := by
  unfold step
  split
  · exact nextBounded_exec _ { h with }
  · split
    · exact nextBounded_exec _ h
    · exact nextBounded_next (bounded_tick h)

end Sys2Proof.Machine

open Sys2Proof.Machine in
/-- Settles O4: each command is a composition of operations that keep `Bounded`, and so does a tick. -/
theorem boundedKept : Obligations.BoundedKept :=
  fun _ t h e => nextBounded_step h t e

/-! ## The line, bit by bit (O7) -/

namespace Sys2Proof.Machine

/-! ### Bits of numbers -/

@[simp] theorem length_bitsOf (n v : Nat) : (bitsOf n v).length = n := by simp [bitsOf]

/-- The high bits are sent before the low ones (R2). -/
theorem bitsOf_add (m n v : Nat) : bitsOf (m + n) v = bitsOf m (v / 2 ^ n) ++ bitsOf n v := by
  have high : ∀ i, (v / 2 ^ n).testBit i = v.testBit (n + i) :=
    fun i => by rw [Nat.testBit_div_two_pow, Nat.add_comm]
  simp only [bitsOf, Nat.add_comm m n, List.range_add, List.reverse_append, List.map_append,
    List.map_reverse, List.map_map, Function.comp_def, high]

/-- The bits that are sent are those of the number's low part. -/
theorem bitsOf_congr {n x y : Nat} (h : x % 2 ^ n = y % 2 ^ n) : bitsOf n x = bitsOf n y := by
  refine List.map_congr_left fun i hi => ?_
  have hi : i < n := List.mem_range.mp (List.mem_reverse.mp hi)
  have low : ∀ z : Nat, z.testBit i = (z % 2 ^ n).testBit i :=
    fun z => by rw [Nat.testBit_mod_two_pow]; simp [hi]
  rw [low x, low y, h]

theorem natOfBits_append_singleton (bs : List Level) (b : Level) :
    natOfBits (bs ++ [b]) = 2 * natOfBits bs + b.toNat := by simp [natOfBits]

theorem bitsOf_one (v : Nat) : bitsOf 1 v = [v.testBit 0] := rfl

/-- A number's bits are read back, less what they cannot hold. -/
theorem natOfBits_bitsOf (n v : Nat) : natOfBits (bitsOf n v) = v % 2 ^ n := by
  induction n generalizing v with
  | zero => simp [bitsOf, natOfBits, Nat.mod_one]
  | succ n ih =>
    have hbit : (v.testBit 0).toNat = v % 2 := by
      rw [Nat.testBit_zero]; rcases Nat.mod_two_eq_zero_or_one v with h | h <;> simp [h]
    rw [bitsOf_add n 1, bitsOf_one, natOfBits_append_singleton, ih, hbit, pow_one, Nat.pow_succ',
      Nat.mod_mul]
    omega

theorem natOfBits_bitsOf_of_lt {n v : Nat} (h : v < 2 ^ n) : natOfBits (bitsOf n v) = v := by
  rw [natOfBits_bitsOf, Nat.mod_eq_of_lt h]

/-- The bits of the key are those of the kind, the precedence and the station number (R4). -/
theorem bitsOf_keyValue (w : WireFrame) :
    bitsOf 17 (keyValue w) =
      bitsOf 3 w.kind.toNat ++ (bitsOf 8 w.prec.toNat ++ bitsOf 6 w.station.toNat) := by
  have hp := w.prec.isLt
  have hs := w.station.isLt
  rw [show 17 = 3 + (8 + 6) from rfl, bitsOf_add 3, bitsOf_add 8]
  unfold keyValue
  congr 1
  · exact bitsOf_congr (by omega)
  · congr 1 <;> exact bitsOf_congr (by omega)

/-! ### Stuffing -/

/-- A receiver takes bits out of a stuffed run as they were put in, and stands where the sender stood (R2). -/
theorem destuff_stuff (a b rest : List Level) (last : Level) (run : Nat) :
    ∃ l r, destuff a.length last run (stuff last run (a ++ b) ++ rest) =
      some (a, (l, r), stuff l r b ++ rest) := by
  induction a generalizing last run with
  | nil => exact ⟨last, run, rfl⟩
  | cons x xs ih =>
    by_cases h5 : (if x = last then run + 1 else 1) = 5
    · obtain ⟨l, r, e⟩ := ih (!x) 1
      exact ⟨l, r, by simp [stuff, destuff, h5, e]⟩
    · obtain ⟨l, r, e⟩ := ih x (if x = last then run + 1 else 1)
      exact ⟨l, r, by simp [stuff, destuff, h5, e]⟩

/-! ### Payload bytes -/

theorem bytesOfBits_flatMap (p : List Byte) :
    bytesOfBits p.length (p.flatMap fun b => bitsOf 8 b.toNat) = p := by
  induction p with
  | nil => rfl
  | cons b bs ih =>
    simp only [List.length_cons, bytesOfBits, List.flatMap_cons]
    rw [List.take_left' (length_bitsOf 8 _), List.drop_left' (length_bitsOf 8 _), ih,
      natOfBits_bitsOf_of_lt b.isLt, BitVec.ofNat_toNat, BitVec.setWidth_eq]

theorem length_payloadBits (p : List Byte) :
    (p.flatMap fun b => bitsOf 8 b.toNat).length = 8 * p.length := by
  simp [List.length_flatMap, Nat.mul_comm]

/-! ### The whole frame -/

/-- The key and length bits of a frame, in the order they are sent (R2). -/
def headBits (w : WireFrame) : List Level := bitsOf 17 (keyValue w) ++ bitsOf 4 w.payload.length

/-- The payload bits of a frame, in the order they are sent (R2). -/
def payloadBits (w : WireFrame) : List Level := w.payload.flatMap fun b => bitsOf 8 b.toNat

theorem bodyBits_eq (w : WireFrame) : bodyBits w = headBits w ++ payloadBits w := rfl

theorem length_headBits (w : WireFrame) : (headBits w).length = 21 := by simp [headBits]

/-- The length field is read back (R2). -/
theorem natOfBits_lengthField {w : WireFrame} (h : w.payload.length ≤ 15) :
    natOfBits ((headBits w).drop 17) = w.payload.length := by
  rw [headBits, List.drop_left' (length_bitsOf 17 _), natOfBits_bitsOf_of_lt (by omega)]

/-- The key's fields and the payload are read back (R2, R4). -/
theorem frameOfBits_headBits (w : WireFrame) :
    frameOfBits (headBits w) (payloadBits w) w.payload.length = w := by
  have hk : natOfBits ((headBits w).take 3) = w.kind.toNat := by
    rw [headBits, bitsOf_keyValue, List.append_assoc, List.take_left' (length_bitsOf 3 _),
      natOfBits_bitsOf_of_lt w.kind.isLt]
  have hp : natOfBits (((headBits w).drop 3).take 8) = w.prec.toNat := by
    rw [headBits, bitsOf_keyValue, List.append_assoc, List.drop_left' (length_bitsOf 3 _),
      List.append_assoc, List.take_left' (length_bitsOf 8 _), natOfBits_bitsOf_of_lt w.prec.isLt]
  have hs : natOfBits (((headBits w).drop 11).take 6) = w.station.toNat := by
    rw [headBits, bitsOf_keyValue, ← List.append_assoc, List.append_assoc,
      List.drop_left' (by simp), List.take_left' (length_bitsOf 6 _),
      natOfBits_bitsOf_of_lt w.station.isLt]
  rw [frameOfBits, hk, hp, hs, payloadBits, bytesOfBits_flatMap]
  simp

/-- The levels of a frame, as a receiver takes them: the start bit with key and length, the payload with
the CRC, and the delimiter (R2). -/
theorem frameLevels_eq (w : WireFrame) :
    frameLevels w =
      stuff true 0 ((false :: headBits w) ++
        (payloadBits w ++ bitsOf 16 (crcOf (bodyBits w)).toNat)) ++ delimiter := by
  simp only [frameLevels, frameBits, bodyBits_eq, List.cons_append, List.append_assoc]

theorem readLevels_frameLevels (w : WireFrame) (after : List Level) (h : w.payload.length ≤ 15) :
    readLevels (frameLevels w ++ after) = .complete w := by
  have hcrc : natOfBits (bitsOf 16 (crcOf (bodyBits w)).toNat) =
      (crcOf (headBits w ++ payloadBits w)).toNat := natOfBits_bitsOf_of_lt (BitVec.isLt _)
  have hpay : (payloadBits w).length = 8 * w.payload.length := length_payloadBits _
  have hlen : (payloadBits w ++ bitsOf 16 (crcOf (bodyBits w)).toNat).length =
      8 * w.payload.length + 16 := by rw [List.length_append, hpay, length_bitsOf]
  rw [frameLevels_eq, List.append_assoc]
  generalize bitsOf 16 (crcOf (bodyBits w)).toNat = crc at hcrc hlen ⊢
  obtain ⟨l, r, hfront⟩ := destuff_stuff (false :: headBits w) (payloadBits w ++ crc)
    (delimiter ++ after) true 0
  obtain ⟨l', r', htail⟩ := destuff_stuff (payloadBits w ++ crc) [] (delimiter ++ after) l r
  simp only [List.length_cons, length_headBits, Nat.reduceAdd] at hfront
  rw [hlen, List.append_nil] at htail
  unfold readLevels
  simp only [hfront, List.take_succ_cons, List.take_zero, List.drop_succ_cons, List.drop_zero,
    natOfBits_lengthField h, htail, List.take_left' hpay, List.drop_left' hpay, hcrc,
    frameOfBits_headBits]
  simp [stuff, delimiter]

end Sys2Proof.Machine

open Sys2Proof.Machine in
/-- Settles O7: destuffing undoes stuffing, and each field of the frame is read back from its bits. -/
theorem frameRoundTrip : Obligations.FrameRoundTrip := readLevels_frameLevels

/-! ## Payloads (O8) -/

namespace Sys2Proof.Machine

/-! ### Codes of named values -/

@[simp] theorem modeOfCode_modeCode (m : Mode) : modeOfCode (modeCode m) = some m := by
  cases m <;> rfl
@[simp] theorem pawlOfCode_pawlCode (p : PawlState) : pawlOfCode (pawlCode p) = some p := by
  cases p <;> rfl
@[simp] theorem dirOfCode_dirCode (d : Direction) : dirOfCode (dirCode d) = some d := by
  cases d <;> rfl
@[simp] theorem reasonOfCode_reasonCode (r : WaitReason) :
    reasonOfCode (reasonCode r) = some r := by cases r <;> rfl
@[simp] theorem strokeOfCode_strokeCode (k : StrokeKind) :
    strokeOfCode (strokeCode k) = some k := by cases k <;> rfl
@[simp] theorem rollModeOfCode_rollModeCode (m : RollMode) :
    rollModeOfCode (rollModeCode m) = some m := by cases m <;> rfl

theorem modeCode_lt (m : Mode) : modeCode m < 8 := by cases m <;> decide
theorem pawlCode_lt (p : PawlState) : pawlCode p < 8 := by cases p <;> decide
theorem dirCode_lt (d : Direction) : dirCode d < 4 := by cases d <;> decide
theorem reasonCode_lt (r : WaitReason) : reasonCode r < 8 := by cases r <;> decide
theorem strokeCode_lt (k : StrokeKind) : strokeCode k < 8 := by cases k <;> decide
theorem rollModeCode_lt (m : RollMode) : rollModeCode m < 4 := by cases m <;> decide

theorem stageCode_lt {k : StageIx} (h : WellFormed.stage k = true) : stageCode k < 32 := by
  cases k with
  | stage j => exact Nat.lt_of_le_of_lt (of_decide_eq_true h) (by decide)
  | setdown => decide

theorem stageOfCode_stageCode {k : StageIx} (h : WellFormed.stage k = true) :
    stageOfCode (stageCode k) = some k := by
  cases k with
  | stage j => exact if_pos (of_decide_eq_true h)
  | setdown => rfl

/-! ### Fields of bytes and numbers of several bytes -/

/-- A field of a byte whose value is given. -/
theorem field_ofNat {v lo n x : Nat} (h : v % 256 / 2 ^ lo % 2 ^ n = x) :
    field (BitVec.ofNat 8 v) lo n = x := by simpa [field] using h

theorem toNat_byte (b : Bool) : b.toNat < 2 := by cases b <;> decide

theorem beNat_be16 {n : Nat} (h : n < 65536) :
    beNat [BitVec.ofNat 8 (n / 256), BitVec.ofNat 8 n] = n := by simp [beNat]; omega

theorem beNat_be24 {n : Nat} (h : n < 16777216) :
    beNat [BitVec.ofNat 8 (n / 65536), BitVec.ofNat 8 (n / 256), BitVec.ofNat 8 n] = n := by
  simp [beNat]; omega

theorem beNat_be32 {n : Nat} (h : n < 4294967296) :
    beNat [BitVec.ofNat 8 (n / 16777216), BitVec.ofNat 8 (n / 65536), BitVec.ofNat 8 (n / 256),
      BitVec.ofNat 8 n] = n := by simp [beNat]; omega

/-- A lift in range is read back from its three bytes (R6). -/
theorem beToInt24_beInt24 {x : Int} (h : liftInRange x = true) : beToInt24 (beInt24 x) = x := by
  obtain ⟨h1, h2⟩ := Bool.and_eq_true_iff.mp h
  have h1 : -240000 ≤ x := of_decide_eq_true h1
  have h2 : x ≤ 240000 := of_decide_eq_true h2
  unfold beToInt24 beInt24 be24
  rw [beNat_be24 (BitVec.isLt _), BitVec.ofNat_toNat, BitVec.setWidth_eq, BitVec.toInt_ofInt]
  rw [Int.bmod_def]
  norm_num
  omega

/-! ### Each kind of content -/

theorem readRoll_rollPayload {m : RollMsg} (hc : m.car < 16) (hf : m.feeder < 8) (h1 : 1 ≤ m.share)
    (hs : m.share < 16) (ht : m.tag < 65536)
    (hsum : ∀ k g, m.summary = some (k, g) → WellFormed.stage k = true ∧ g < 65536) :
    readRoll (rollPayload m) = some m := by
  obtain ⟨serial, car, feeder, share, mode, tag, summary⟩ := m
  simp only at hc hf h1 hs ht hsum
  have hr := rollModeCode_lt mode
  have fcar : field (BitVec.ofNat 8 (car * 16 + feeder)) 4 4 = car := field_ofNat (by omega)
  have ffeed : field (BitVec.ofNat 8 (car * 16 + feeder)) 0 3 = feeder := field_ofNat (by omega)
  have fshare : field (BitVec.ofNat 8 (share * 16 + rollModeCode mode)) 4 4 = share :=
    field_ofNat (by omega)
  have fmode : field (BitVec.ofNat 8 (share * 16 + rollModeCode mode)) 0 2 = rollModeCode mode :=
    field_ofNat (by omega)
  have hnum : BitVec.ofNat 32 (beNat (be32 serial.toNat)) = serial := by
    rw [be32, beNat_be32 serial.isLt, BitVec.ofNat_toNat, BitVec.setWidth_eq]
  rw [be32] at hnum
  have hshare : share ≠ 0 := by omega
  cases summary with
  | none =>
    have f0 : field (0 : Byte) 0 5 = 0 := rfl
    have f7 : field (0 : Byte) 7 1 = 0 := rfl
    have k0 : stageOfCode 0 = some (.stage 0) := rfl
    simp only [rollPayload, be32, be16, List.cons_append, List.nil_append, readRoll, fcar, ffeed,
      fshare, fmode, hnum, beNat_be16 ht, hshare, f0, f7, k0, rollModeOfCode_rollModeCode, if_true,
      if_false]
  | some p =>
    obtain ⟨k, g⟩ := p
    obtain ⟨hk, hg⟩ := hsum k g rfl
    have hlt := stageCode_lt hk
    have fk : field (BitVec.ofNat 8 (128 + stageCode k)) 0 5 = stageCode k := field_ofNat (by omega)
    have f7 : field (BitVec.ofNat 8 (128 + stageCode k)) 7 1 = 1 := field_ofNat (by omega)
    simp only [rollPayload, be32, be16, List.cons_append, List.nil_append, readRoll, fcar, ffeed,
      fshare, fmode, hnum, beNat_be16 ht, hshare, fk, f7, rollModeOfCode_rollModeCode,
      stageOfCode_stageCode hk, beNat_be16 hg, if_false, one_ne_zero]

/-- Byte 0 of a POSE: mode, pawl state and flight (R8). -/
def poseByte0 (m : PoseMsg) : Nat := modeCode m.mode * 32 + pawlCode m.pawl * 4 + dirCode m.flight

/-- Byte 1 of a POSE: presence of lift and stage, rejoined flag, direction and wait reason (R8). -/
def poseByte1 (m : PoseMsg) : Nat :=
  m.lift.isSome.toNat * 128 + m.stage.isSome.toNat * 64 + m.rejoined.toNat * 32
    + dirCode m.dir * 8 + reasonCode m.reason

/-- Byte 2 of a POSE: its stage code, 0 when absent (R8). -/
def poseByte2 : Option StageIx → Nat
  | none => 0
  | some k => stageCode k

/-- The bytes of a POSE's lift and committed end (R8). -/
def liftBytes : Option Int → Option Int → List Byte
  | none, _ => []
  | some h, none => beInt24 h
  | some h, some e => beInt24 h ++ beInt24 e

theorem posePayload_eq (m : PoseMsg) :
    posePayload m =
      BitVec.ofNat 8 (poseByte0 m) :: BitVec.ofNat 8 (poseByte1 m)
        :: BitVec.ofNat 8 (poseByte2 m.stage)
        :: (be16 m.load ++ be16 m.planTag ++ be16 m.faults.toNat
          ++ liftBytes m.lift m.committedEnd) := by
  obtain ⟨mode, pawl, flight, rejoined, dir, reason, stage, load, tag, faults, lift, stop⟩ := m
  cases stage <;> cases lift <;> cases stop <;> rfl

/-- The optional lift and committed end of a POSE are read back (R8). -/
theorem readLifts_liftBytes {lift stop : Option Int} {flying : Bool}
    (hl : lift.all liftInRange = true) (hs : stop.all liftInRange = true)
    (hp : stop.isSome = (lift.isSome && flying)) :
    readLifts lift.isSome flying (liftBytes lift stop) = some (lift, stop) := by
  cases lift with
  | none =>
    cases stop with
    | none => rfl
    | some e => cases hp
  | some h =>
    have hh := beToInt24_beInt24 hl
    have hl : liftInRange h = true := hl
    rw [beInt24, be24] at hh
    cases stop with
    | none =>
      cases flying with
      | true => cases hp
      | false =>
        simp only [liftBytes, beInt24, be24, readLifts, Option.isSome, hh, hl, if_true]
    | some e =>
      cases flying with
      | false => cases hp
      | true =>
        have he := beToInt24_beInt24 hs
        have hs : liftInRange e = true := hs
        rw [beInt24, be24] at he
        simp only [liftBytes, beInt24, be24, List.cons_append, List.nil_append, readLifts,
          Option.isSome, hh, he, hl, hs, Bool.and_self, if_true]

/-- The optional stage of a POSE is read back (R8). -/
theorem readStage_poseByte2 {k : Option StageIx} (hk : k.all WellFormed.stage = true) :
    readStage k.isSome (BitVec.ofNat 8 (poseByte2 k)) = some k := by
  cases k with
  | none => rfl
  | some k =>
    have hk : WellFormed.stage k = true := hk
    have hlt := stageCode_lt hk
    have fk : field (BitVec.ofNat 8 (stageCode k)) 0 5 = stageCode k := field_ofNat (by omega)
    simp only [readStage, poseByte2, fk, stageOfCode_stageCode hk, Option.map_some, Option.isSome,
      if_true]

theorem toNat_beq_one (b : Bool) : (b.toNat == 1) = b := by cases b <;> rfl

/-- The fields of bytes 0 and 1 of a POSE (R8). -/
theorem field_poseBytes (m : PoseMsg) :
    (field (BitVec.ofNat 8 (poseByte0 m)) 5 3 = modeCode m.mode ∧
      field (BitVec.ofNat 8 (poseByte0 m)) 2 3 = pawlCode m.pawl ∧
      field (BitVec.ofNat 8 (poseByte0 m)) 0 2 = dirCode m.flight) ∧
    field (BitVec.ofNat 8 (poseByte1 m)) 7 1 = m.lift.isSome.toNat ∧
    field (BitVec.ofNat 8 (poseByte1 m)) 6 1 = m.stage.isSome.toNat ∧
    field (BitVec.ofNat 8 (poseByte1 m)) 5 1 = m.rejoined.toNat ∧
    field (BitVec.ofNat 8 (poseByte1 m)) 3 2 = dirCode m.dir ∧
    field (BitVec.ofNat 8 (poseByte1 m)) 0 3 = reasonCode m.reason := by
  have hm := modeCode_lt m.mode
  have hp := pawlCode_lt m.pawl
  have hf := dirCode_lt m.flight
  have hd := dirCode_lt m.dir
  have hr := reasonCode_lt m.reason
  have hj := toNat_byte m.rejoined
  have hs := toNat_byte m.stage.isSome
  have hl := toNat_byte m.lift.isSome
  unfold poseByte0 poseByte1
  refine ⟨⟨?_, ?_, ?_⟩, ?_, ?_, ?_, ?_, ?_⟩ <;> exact field_ofNat (by omega)

theorem readPose_posePayload {m : PoseMsg} (hload : m.load < 4096) (htag : m.planTag < 65536)
    (hk : m.stage.all WellFormed.stage = true) (hl : m.lift.all liftInRange = true)
    (he : m.committedEnd.all liftInRange = true)
    (hp : m.committedEnd.isSome = (m.lift.isSome && m.flight != .none)) :
    readPose (posePayload m) = some m := by
  obtain ⟨⟨fmode, fpawl, fflight⟩, flift, fstage, frejoined, fdir, freason⟩ := field_poseBytes m
  have hfaults : BitVec.ofNat 16 (beNat (be16 m.faults.toNat)) = m.faults := by
    rw [be16, beNat_be16 m.faults.isLt, BitVec.ofNat_toNat, BitVec.setWidth_eq]
  rw [be16] at hfaults
  simp only [posePayload_eq, be16, List.cons_append, List.nil_append, readPose, fmode, fpawl,
    fflight, fdir, freason, fstage, flift, frejoined, toNat_beq_one, modeOfCode_modeCode,
    pawlOfCode_pawlCode, dirOfCode_dirCode, reasonOfCode_reasonCode, readStage_poseByte2 hk,
    readLifts_liftBytes hl he hp, hfaults, beNat_be16 (show m.load < 65536 by omega),
    beNat_be16 htag, Nat.mod_eq_of_lt hload]

theorem readClaim_claimPayload {m : ClaimMsg} (hd : claimDirOk m.kind m.dir = true)
    (hk : WellFormed.stage m.stage = true) (hstart : liftInRange m.start = true)
    (hstop : m.stop.all liftInRange = true) (hnone : m.stop.isNone = (m.kind == .contact))
    (hup : m.kind = .contact → 0 ≤ m.start) :
    readClaim (claimPayload m) = some m := by
  obtain ⟨kind, dir, final, stage, start, stop⟩ := m
  simp only at hd hk hstart hstop hnone hup
  have hkind := strokeCode_lt kind
  have hdir := dirCode_lt dir
  have hfin := toNat_byte final
  have hst := stageCode_lt hk
  have fkind : field (BitVec.ofNat 8 (strokeCode kind * 32 + dirCode dir * 8 + final.toNat * 4)) 5 3
      = strokeCode kind := field_ofNat (by omega)
  have fdir : field (BitVec.ofNat 8 (strokeCode kind * 32 + dirCode dir * 8 + final.toNat * 4)) 3 2
      = dirCode dir := field_ofNat (by omega)
  have ffinal : field (BitVec.ofNat 8 (strokeCode kind * 32 + dirCode dir * 8 + final.toNat * 4)) 2 1
      = final.toNat := field_ofNat (by omega)
  have fstage : field (BitVec.ofNat 8 (stageCode stage)) 0 5 = stageCode stage :=
    field_ofNat (by omega)
  have hs := beToInt24_beInt24 hstart
  rw [beInt24, be24] at hs
  cases stop with
  | none =>
    have hc : kind = .contact := eq_of_beq hnone.symm
    subst hc
    have hrange : 0 ≤ start ∧ start ≤ liftBound :=
      ⟨hup rfl, of_decide_eq_true (Bool.and_eq_true_iff.mp hstart).2⟩
    simp only [claimPayload, beInt24, be24, List.cons_append, List.nil_append, readClaim, fkind, fdir,
      ffinal, fstage, strokeOfCode_strokeCode, dirOfCode_dirCode, stageOfCode_stageCode hk,
      toNat_beq_one, hs, hd, hrange, and_self, if_true]
  | some e =>
    have hc : kind ≠ .contact := ne_of_beq_false hnone.symm
    have he := beToInt24_beInt24 hstop
    have hstop : liftInRange e = true := hstop
    rw [beInt24, be24] at he
    simp only [claimPayload, beInt24, be24, List.cons_append, List.nil_append, readClaim, fkind, fdir,
      ffinal, fstage, strokeOfCode_strokeCode, dirOfCode_dirCode, stageOfCode_stageCode hk,
      toNat_beq_one, hs, he, hd, hc, hstart, hstop, Bool.and_self, if_true, if_false]

theorem readOrder_code (k : OrderKind) : readOrder [BitVec.ofNat 8 (orderCode k)] = some k := by
  cases k <;> rfl

theorem readHalt_code {k : FaultKind} (h : (faultCode k).val ≤ 5) :
    readHalt [BitVec.ofNat 8 (faultCode k).val] = some k := by
  revert h; cases k <;> decide

theorem readPlan_planPayload_load {target : Nat} {car set : Option Nat} (ht : target < 16777216)
    (hc : ∀ v, car = some v → v < 65536) (hs : ∀ v, set = some v → v < 65536) :
    readPlan (planPayload (.load target car set)) = some (.load target car set) := by
  have hcar := toNat_byte car.isSome
  have hset := toNat_byte set.isSome
  have fop : field (BitVec.ofNat 8 (car.isSome.toNat * 2 + set.isSome.toNat)) 6 2 = 0 :=
    field_ofNat (by omega)
  have fcar : field (BitVec.ofNat 8 (car.isSome.toNat * 2 + set.isSome.toNat)) 1 1
      = car.isSome.toNat := field_ofNat (by omega)
  have fset : field (BitVec.ofNat 8 (car.isSome.toNat * 2 + set.isSome.toNat)) 0 1
      = set.isSome.toNat := field_ofNat (by omega)
  simp only [planPayload, readPlan, fop, fcar, fset]
  cases car with
  | none =>
    cases set with
    | none => simp [leadBytes, be24, beNat_be24 ht]
    | some e => simp [leadBytes, be24, be16, beNat_be24 ht, beNat_be16 (hs e rfl)]
  | some c =>
    cases set with
    | none => simp [leadBytes, be24, be16, beNat_be24 ht, beNat_be16 (hc c rfl)]
    | some e =>
      simp [leadBytes, be24, be16, beNat_be24 ht, beNat_be16 (hc c rfl), beNat_be16 (hs e rfl)]

/-! ### Any content -/

/-- Every content within its ranges is read back from its payload (R7 to R10). -/
theorem contentOf_payloadOf (c : Content) (prec : BitVec 8) (station : BitVec 6)
    (h : WellFormed.content c = true) (hp : prec = 0 ∨ kindOf c = kindClaim) :
    contentOf ⟨kindOf c, prec, station, payloadOf c⟩ = some c := by
  cases c with
  | claim m =>
    simp only [WellFormed.content, Bool.and_eq_true, beq_iff_eq, Bool.or_eq_true, bne_iff_ne,
      decide_eq_true_eq] at h
    obtain ⟨⟨⟨⟨⟨hd, hk⟩, hstart⟩, hstop⟩, hnone⟩, hup⟩ := h
    have hr : readClaim (claimPayload m) = some m :=
      readClaim_claimPayload hd hk hstart hstop hnone fun hc => hup.resolve_left (absurd hc)
    show (readClaim (claimPayload m)).map Content.claim = _
    rw [hr]; rfl
  | roll m =>
    obtain rfl : prec = 0 := hp.resolve_right (by simp [kindOf, kindRoll, kindClaim])
    simp only [WellFormed.content, Bool.and_eq_true, decide_eq_true_eq, Option.all_eq_true] at h
    obtain ⟨⟨⟨⟨⟨hc, hf⟩, h1⟩, hs⟩, ht⟩, hsum⟩ := h
    have hr : readRoll (rollPayload m) = some m :=
      readRoll_rollPayload hc hf h1 hs ht fun k g e => hsum (k, g) e
    show (readRoll (rollPayload m)).map Content.roll = _
    rw [hr]; rfl
  | pose m =>
    obtain rfl : prec = 0 := hp.resolve_right (by simp [kindOf, kindPose, kindClaim])
    simp only [WellFormed.content, Bool.and_eq_true, beq_iff_eq, decide_eq_true_eq] at h
    obtain ⟨⟨⟨⟨⟨hload, htag⟩, hk⟩, hl⟩, he⟩, hpr⟩ := h
    show (readPose (posePayload m)).map Content.pose = _
    rw [readPose_posePayload hload htag hk hl he hpr]; rfl
  | order k =>
    obtain rfl : prec = 0 := hp.resolve_right (by simp [kindOf, kindOrder, kindClaim])
    show (readOrder [BitVec.ofNat 8 (orderCode k)]).map Content.order = _
    rw [readOrder_code]; rfl
  | halt k =>
    obtain rfl : prec = 0 := hp.resolve_right (by simp [kindOf, kindHalt, kindClaim])
    show (readHalt [BitVec.ofNat 8 (faultCode k).val]).map Content.halt = _
    rw [readHalt_code (of_decide_eq_true h)]; rfl
  | plan op =>
    obtain rfl : prec = 0 := hp.resolve_right (by simp [kindOf, kindPlan, kindClaim])
    cases op with
    | load target car set =>
      simp only [WellFormed.content, Bool.and_eq_true, decide_eq_true_eq, Option.all_eq_true] at h
      obtain ⟨⟨ht, hc⟩, hs⟩ := h
      show (readPlan (planPayload (.load target car set))).map Content.plan = _
      rw [readPlan_planPayload_load ht hc hs]; rfl
    | clear => rfl
    | adopt => rfl

/-- Every payload fits a frame (R2, R7 to R10). -/
theorem length_payloadOf_le (c : Content) : (payloadOf c).length ≤ 15 := by
  cases c with
  | roll m =>
    rcases hs : m.summary with _ | ⟨k, g⟩ <;> simp [payloadOf, rollPayload, be32, be16, hs]
  | pose m =>
    rcases hl : m.lift with _ | h <;> rcases he : m.committedEnd with _ | e <;>
      simp [payloadOf, posePayload, beInt24, be24, be16, hl, he]
  | claim m =>
    rcases hs : m.stop with _ | e <;> simp [payloadOf, claimPayload, beInt24, be24, hs]
  | order k => simp [payloadOf]
  | halt k => simp [payloadOf]
  | plan op =>
    cases op with
    | load target car set =>
      cases car <;> cases set <;> simp [payloadOf, planPayload, leadBytes, be24, be16]
    | clear => simp [payloadOf, planPayload]
    | adopt => simp [payloadOf, planPayload]

end Sys2Proof.Machine

open Sys2Proof.Machine in
/-- Settles O8: each field of a content is read back from its bytes, kind of frame by kind of frame. -/
theorem contentRoundTrip : Obligations.ContentRoundTrip :=
  fun c prec station h hp => ⟨contentOf_payloadOf c prec station h hp, length_payloadOf_le c⟩

/-! ## Commands that settle nothing (O1, O55, O33)

A command whose own effect leaves the mode and the notice alone is calm when the state was: what ends it
then leaves `outer` and `inner` as the effect made them. -/

namespace Sys2Proof.Machine

/-! ### Calm states -/

theorem calm_of_eq {s t : State} (hm : t.mode = s.mode) (hn : t.notice = s.notice) (h : Calm s) :
    Calm t := by
  unfold Calm Quiet at h ⊢; rw [hm, hn]; exact h

theorem quiet_of_eq {s t : State} (hm : t.mode = s.mode) (h : Quiet s) : Quiet t := by
  unfold Quiet at h ⊢; rw [hm]; exact h

/-- What ends a command with no notice outstanding: the line-busy limit and the lamps. -/
theorem finish_still {s : State} (h : s.notice = false) :
    finish s = refreshLamps (armBusy (clearNotice s)) := by
  unfold finish; rw [settle_still _ h]

/-- With no notice outstanding, a command ends with every block but line and lamps as it stands. -/
theorem finish_still_blocks {s : State} (h : s.notice = false) :
    (finish s).spacing = s.spacing ∧ (finish s).ceiling = s.ceiling ∧
      (finish s).loadMon = s.loadMon ∧ (finish s).faults = s.faults := by
  rw [finish_still h]
  unfold armBusy
  split <;> exact ⟨rfl, rfl, rfl, rfl⟩

/-! ### Order buttons (R185) -/

/-- The ORDER frame of a press (R10, R185). -/
theorem orderFrame_eq (s : State) (b : OrderButton) :
    orderFrame s b =
      ⟨kindOrder, 0, BitVec.ofNat 6 s.own,
        [match b with | .up => 0 | .down => 1 | .stop => 2 | .resume => 3]⟩ := by
  cases b <;> rfl

theorem inner_queueOrder (b : OrderButton) (s : State) : (queueOrder b s).inner = s.inner := by
  unfold queueOrder; split <;> rfl

theorem calm_queueOrder (b : OrderButton) {s : State} (h : Calm s) : Calm (queueOrder b s) := by
  unfold queueOrder
  split <;> exact calm_of_eq (t := { s with line := _, pendant := _ }) rfl rfl h

theorem pressQueues_iff (s : State) :
    pressQueues s = true ↔
      s.pendant.levels.key = true ∧ s.mode ≠ .rollcall ∧ s.mode ≠ .barred := by
  simp [pressQueues, and_assoc]

theorem key_withButton (b : OrderButton) (p : Bool) (l : PendantLevels) :
    (withButton b p l).key = l.key := by cases b <;> rfl

theorem pressQueues_setLevels (b : OrderButton) (p : Bool) (s : State) :
    pressQueues (setLevels (withButton b p) s) = pressQueues s := by
  show ((withButton b p s.pendant.levels).key && _ && _) = _
  rw [key_withButton]; rfl

/-! ### The spacing instant (R109, R110) -/

/-- An offer may be queued: REST in MOVING with the CLAIM slot EMPTY (R110). -/
def MayQueue (s : State) : Prop :=
  s.engine.stroke = .rest ∧ s.mode = .moving ∧ s.line.claim = .empty

theorem tryQueue_still {s : State} (h : ¬ MayQueue s ∨ s.spacing.offer = none) : tryQueue s = s := by
  unfold tryQueue
  split
  · rfl
  · rename_i r ho
    exact if_neg (h.resolve_right (by rw [ho]; nofun))

theorem tryQueue_queues {s : State} {r : Stroke} (hr : MayQueue s) (ho : s.spacing.offer = some r)
    (hg : gapPassed s = true) : tryQueue s = queueClaim r s := by
  unfold tryQueue; simp only [ho]; exact (if_pos hr).trans (if_pos hg)

theorem tryQueue_waits {s : State} {r : Stroke} (hr : MayQueue s) (ho : s.spacing.offer = some r)
    (hg : gapPassed s = false) :
    tryQueue s = { s with spacing :=
      { s.spacing with instant := armed s.timeBase (remainingGap s) } } := by
  unfold tryQueue; simp only [ho]; exact (if_pos hr).trans (if_neg (by simp [hg]))

/-- What is left of a gap, said with the stamp's age. -/
theorem gapLeft_eq (s : State) (ms : Nat) (st : Stamp) :
    gapLeft s ms st =
      if st.expired = true ∨ 10 * ms ≤ (s.timeBase - st.value).toNat then 0
      else 10 * ms - (s.timeBase - st.value).toNat := by
  simp only [gapLeft, Stamp.atLeast, Bool.or_eq_true, decide_eq_true_eq]
  rfl

theorem gapLeft_eq_zero (s : State) (ms : Nat) (st : Stamp) :
    gapLeft s ms st = 0 ↔ st.atLeast s.timeBase (10 * ms) = true := by
  unfold gapLeft
  split
  · simp [*]
  · rename_i h
    simp only [Stamp.atLeast, Bool.or_eq_true, decide_eq_true_eq, not_or] at h
    simp [Stamp.atLeast, h.1]
    omega

/-- The gap test passes exactly when nothing is left of either gap (R109). -/
theorem gapPassed_iff (s : State) : gapPassed s = true ↔ remainingGap s = 0 := by
  simp only [gapPassed, remainingGap, Bool.and_eq_true, ← gapLeft_eq_zero]
  omega

end Sys2Proof.Machine

open Sys2Proof Sys2Proof.Machine in
/-- Settles O33, by what the gap test makes of the state with the compare disarmed. -/
theorem spacingInstant : Obligations.SpacingInstant := by
  intro s hdue hn left rest ready
  let u : State := { s with spacing := { s.spacing with instant := none } }
  have hexec : exec .spacingInstantExpiry s = .next (finish (tryQueue u)) := if_pos hdue
  have hrest : remainingGap u = rest := by
    simp only [remainingGap, gapLeft_eq]; rfl
  have hq : (tryQueue u).notice = false ∧ (tryQueue u).spacing.offer = s.spacing.offer := by
    unfold tryQueue
    split
    · exact ⟨hn, rfl⟩
    · split
      · split <;> exact ⟨hn, rfl⟩
      · exact ⟨hn, rfl⟩
  have hinner := finish_calm (.inr hq.1)
  obtain ⟨hspacing, -⟩ := finish_still_blocks hq.1
  have still : ¬ ready ∨ s.spacing.offer = none → tryQueue u = u := tryQueue_still (s := u)
  have waits : ∀ r, ready → s.spacing.offer = some r → 0 < rest → tryQueue u = { u with
      spacing := { u.spacing with instant := armed s.timeBase rest } } := by
    intro r hr ho hpos
    have hg : gapPassed u = false := by
      rw [Bool.eq_false_iff, Ne, gapPassed_iff, hrest]; omega
    rw [← hrest]; exact tryQueue_waits hr ho hg
  have queues : ∀ r, ready → s.spacing.offer = some r → rest = 0 →
      tryQueue u = queueClaim r u := fun r hr ho h0 =>
    tryQueue_queues hr ho ((gapPassed_iff u).mpr (hrest.trans h0))
  refine ⟨_, hexec, ?_, ?_, fun h => ?_, fun r hr ho hpos => ?_, fun r hr ho h0 => ?_⟩
  · rw [outer_finish, outer_tryQueue]; rfl
  · rw [hspacing]; exact hq.2
  · rw [hinner, hspacing, still h]; exact ⟨rfl, rfl⟩
  · rw [hinner, hspacing, waits r hr ho hpos]; exact ⟨rfl, rfl⟩
  · rw [hinner, hspacing, queues r hr ho h0]; exact ⟨rfl, rfl⟩

open Sys2Proof Sys2Proof.Machine in
/-- Settles O1, branch by branch of `step`. -/
theorem stepTakesFront : Obligations.StepTakesFront := by
  refine ⟨fun _ _ _ => rfl, fun s c hp hd => ?_, fun s hp hd => ?_⟩
  · unfold step; rw [hp]; simp only [hd]
  · have htick : step s = .next (tick s) := by unfold step; rw [hp]; simp only [hd]
    exact htick

open Sys2Proof Sys2Proof.Machine in
/-- Settles O55: a press that queues appends its frame or is counted, and any other change is of the level. -/
theorem orderButtonQueues : Obligations.OrderButtonQueues := by
  intro s b pressed hne takes code level
  have hexec : exec (.orderButtonPress b pressed) s = .next (finish
      (if pressed && pressQueues (setLevels (withButton b pressed) s) then
        queueOrder b (setLevels (withButton b pressed) s)
      else setLevels (withButton b pressed) s)) := if_neg hne
  have htakes : (pressed && pressQueues (setLevels (withButton b pressed) s)) = true ↔ takes := by
    rw [pressQueues_setLevels, Bool.and_eq_true, pressQueues_iff]
  refine ⟨_, hexec, fun hc => ?_, fun ht hlen => ?_, fun ht hlen => ?_, fun ht => ?_⟩
  · have hc' : Calm (setLevels (withButton b pressed) s) := hc
    split
    · rw [finish_calm (calm_queueOrder b hc'), inner_queueOrder]; rfl
    · exact finish_calm hc'
  · rw [if_pos (htakes.mpr ht), outer_finish]
    unfold queueOrder
    rw [if_pos (show (setLevels _ s).line.orderQueue.length < 4 from hlen), orderFrame_eq]
    rfl
  · rw [if_pos (htakes.mpr ht), outer_finish]
    unfold queueOrder
    rw [if_neg (show ¬ (setLevels _ s).line.orderQueue.length < 4 from Nat.not_lt.mpr hlen)]
    rfl
  · rw [if_neg (fun h => ht (htakes.mp h)), outer_finish]
    rfl

/-! ## The offer at a start bit, and frames not delivered (O14, O18) -/

namespace Sys2Proof.Machine

/-! ### Fault sets (R6) -/

theorem getLsbD_kindBit (j k : FaultKind) :
    (kindBit k).getLsbD (faultCode j).val = decide (k = j) := by
  have h : (faultCode k).val = (faultCode j).val ↔ k = j :=
    ⟨fun e => faultCode_injective (Fin.ext e), fun e => by rw [e]⟩
  rw [kindBit, BitVec.getLsbD_ofNat, Nat.testBit_two_pow]
  simp only [(faultCode j).isLt, h, decide_true, Bool.true_and]

theorem mem_allKinds (k : FaultKind) : k ∈ allKinds := by cases k <;> decide

/-- Bit n of a set of kinds says whether the kind of code n is in it (R6). -/
theorem getLsbD_setOf (p : FaultKind → Bool) (j : FaultKind) :
    (setOf p).getLsbD (faultCode j).val = p j := by
  have fold : ∀ (ks : List FaultKind) (acc : BitVec 16),
      (ks.foldl (fun acc k => if p k then acc ||| kindBit k else acc) acc).getLsbD (faultCode j).val
        = (acc.getLsbD (faultCode j).val || ks.any fun k => p k && decide (k = j)) := by
    intro ks
    induction ks with
    | nil => simp
    | cons k ks ih =>
      intro acc
      rw [List.foldl_cons, ih, List.any_cons]
      cases p k with
      | false => simp
      | true => rw [if_pos rfl, BitVec.getLsbD_or, getLsbD_kindBit, Bool.true_and, Bool.or_assoc]
  rw [setOf, fold, Bool.eq_iff_iff]
  simp [mem_allKinds]

/-! ### The offer (R11, R12) -/

/-- The offer is the first place that is not empty (R11). -/
theorem offerNow_eq (s : State) :
    offerNow s =
      [s.line.haltSlot, waitingClaim s.line.claim, s.line.orderQueue.head?,
       if s.line.posePending then some (ownFrame s kindPose (posePayload (poseNow s))) else none,
       s.line.planQueue.head?,
       if s.line.rollPending then some (ownFrame s kindRoll (rollPayload (rollNow s))) else none
      ].findSome? id := by
  unfold offerNow
  cases s.line.haltSlot with
  | some w => rfl
  | none =>
    cases s.line.claim
    case waiting => rfl
    all_goals
      cases s.line.orderQueue with
      | cons w ws => rfl
      | nil =>
        cases s.line.posePending with
        | true => rfl
        | false =>
          cases s.line.planQueue with
          | cons w ws => rfl
          | nil => cases s.line.rollPending <;> rfl

/-- A claim that waits is on the line unless a HALT goes before it (R14). -/
theorem claim_startFrame (peer : Bool) (s : State) :
    (startFrame peer s).line.claim =
      match s.line.haltSlot, s.line.claim with
      | none, .waiting w => .contending w false
      | _, c => c := by
  unfold startFrame
  cases s.line.haltSlot <;> cases s.line.claim <;> rfl

end Sys2Proof.Machine

open Sys2Proof Sys2Proof.Machine in
/-- Settles O14: the fields of POSE and ROLL are those that the assembly reads, and the offer is the first
place that is not empty. -/
theorem startBitOffersFirstPlace : Obligations.StartBitOffersFirstPlace := by
  intro s peer hnone staged running pose roll own offer
  have hpose : poseNow s = pose := by
    have hst : s.stagedRec = staged := rfl
    have hflight : s.flight = (running.map (·.dir)).getD .none := by
      simp only [running]; unfold State.flight; cases s.engine.stroke <;> rfl
    have hlift : s.lift = staged.map fun r => (s.engine.travel : Int) - r.contactZero := rfl
    have hend : s.committedEnd = if staged.isSome then running.bind (·.stop) else none := by
      unfold State.committedEnd
      rw [hlift]
      cases staged <;> simp only [running] <;> cases s.engine.stroke <;> rfl
    unfold poseNow
    rw [hflight, hlift, hend]
    rfl
  have hroll : rollNow s = roll := by
    have hmode : rollModeNow s =
        if s.mode = .rollcall then .rollcall else if s.mode = .barred then .barred else .frozen := by
      unfold rollModeNow; cases s.mode <;> rfl
    unfold rollNow
    rw [hmode]
    rfl
  have hoffer : offerNow s = offer := by rw [offerNow_eq, hpose, hroll]; rfl
  refine ⟨getLsbD_setOf _, _, if_neg (by rw [hnone]; nofun), ?_, fun hc => ?_⟩
  · rw [outer_finish, ← hoffer]; rfl
  · rw [finish_calm (s := startFrame peer s) hc]
    exact congrArg (fun c => { s.inner with claim := c }) (claim_startFrame peer s)

namespace Sys2Proof.Machine

/-! ### Frames that complete (R13, R16, R17) -/

@[simp] theorem outer_lineBusy (s : State) :
    (lineBusy s).outer = { s.outer with idle := false } := rfl

/-- A frame that is not the station's own leaves the line busy and nothing else. -/
theorem frameArrives_other {s : State} {w : WireFrame} (h : isOwnAttempt s w = false) :
    frameArrives w s = lineBusy s := by
  unfold frameArrives; rw [h]; rfl

/-- The kind of a content is that of the frame that carries it (R5). -/
theorem kindOf_contentOf {w : WireFrame} {c : Content} (h : contentOf w = some c) :
    kindOf c = w.kind := by
  have map : ∀ {α : Type} {o : Option α} {f : α → Content} {k : BitVec 3}, (∀ a, kindOf (f a) = k) →
      o.map f = some c → kindOf c = k := by
    intro α o f k hf e
    obtain ⟨a, -, rfl⟩ := Option.map_eq_some_iff.mp e
    exact hf a
  unfold contentOf at h
  split at h
  · rename_i e; rw [e]; exact map (fun _ => rfl) h
  · split at h
    · cases h
    · split at h
      · rename_i e; rw [e]; exact map (fun _ => rfl) h
      · split at h
        · rename_i e; rw [e]; exact map (fun _ => rfl) h
        · split at h
          · rename_i e; rw [e]; exact map (fun _ => rfl) h
          · split at h
            · rename_i e; rw [e]; exact map (fun _ => rfl) h
            · split at h
              · rename_i e; rw [e]; exact map (fun _ => rfl) h
              · cases h

theorem exists_pose {x : Content} (h : kindOf x = kindPose) : ∃ m, x = .pose m := by
  cases x <;> simp [kindOf, kindRoll, kindPose, kindClaim, kindOrder, kindHalt, kindPlan] at h ⊢

theorem exists_claim {x : Content} (h : kindOf x = kindClaim) : ∃ m, x = .claim m := by
  cases x <;> simp [kindOf, kindRoll, kindPose, kindClaim, kindOrder, kindHalt, kindPlan] at h ⊢

theorem exists_halt {x : Content} (h : kindOf x = kindHalt) : ∃ k, x = .halt k := by
  cases x <;> simp [kindOf, kindRoll, kindPose, kindClaim, kindOrder, kindHalt, kindPlan] at h ⊢

theorem exists_plan {x : Content} (h : kindOf x = kindPlan) : ∃ op, x = .plan op := by
  cases x <;> simp [kindOf, kindRoll, kindPose, kindClaim, kindOrder, kindHalt, kindPlan] at h ⊢

/-- A PLAN frame's content is a plan operation, delivered (R10, R17). -/
theorem actPlan_delivers {n : Nat} {x : Content} (h : kindOf x = kindPlan) :
    ∃ g, actPlan n x = deliver n g := by
  obtain ⟨op, rfl⟩ := exists_plan h
  exact ⟨_, rfl⟩

/-- A frame command other than ROLL receives its frame, and delivers its content as R17 says. -/
theorem exec_of_frameOf {c : Instr} {w : WireFrame} (h : frameOf c = some w) (s : State) :
    ∃ act : Content → State → State, exec c s = receive w act s ∧
      ∀ x, kindOf x = w.kind → ∃ g, act x = deliver w.station.toNat g := by
  have every : ∀ g : State → State, ∀ x : Content, kindOf x = w.kind →
      ∃ g', (fun _ => deliver w.station.toNat g : Content → State → State) x =
        deliver w.station.toNat g' := fun g _ _ => ⟨g, rfl⟩
  cases c <;> simp only [frameOf, Option.some.injEq, reduceCtorEq] at h <;> subst h
  case poseFrame f =>
    refine ⟨_, rfl, fun x hx => ?_⟩
    obtain ⟨m, rfl⟩ := exists_pose hx
    exact ⟨_, rfl⟩
  case claimFrame f =>
    refine ⟨_, rfl, fun x hx => ?_⟩
    obtain ⟨m, rfl⟩ := exists_claim hx
    exact ⟨_, rfl⟩
  case haltFrame f =>
    refine ⟨_, rfl, fun x hx => ?_⟩
    obtain ⟨k, rfl⟩ := exists_halt hx
    exact ⟨_, rfl⟩
  case advance f => exact ⟨_, rfl, every _⟩
  case retreat f => exact ⟨_, rfl, every _⟩
  case stop f => exact ⟨_, rfl, every _⟩
  case resume f => exact ⟨_, rfl, every _⟩
  case load low f => exact ⟨_, rfl, fun _ => actPlan_delivers⟩
  case clear low f => exact ⟨_, rfl, fun _ => actPlan_delivers⟩
  case adopt low f => exact ⟨_, rfl, fun _ => actPlan_delivers⟩

theorem exists_content {w : WireFrame} (h : malformed w = false) : ∃ x, contentOf w = some x := by
  cases hx : contentOf w with
  | none => simp [malformed, hx] at h
  | some x => exact ⟨x, rfl⟩

theorem receive_malformed {w : WireFrame} {act : Content → State → State} {s : State}
    (h : malformed w = true) : receive w act s = .next (finish (countDiscarded (frameArrives w s))) := by
  have hn : contentOf w = none := Option.isNone_iff_eq_none.mp h
  unfold receive; simp only [hn]

theorem receive_content {w : WireFrame} {act : Content → State → State} {s : State} {c : Content}
    (h : contentOf w = some c) : receive w act s = .next (finish (act c (frameArrives w s))) := by
  unfold receive; simp only [h]

/-- A frame in ROLLCALL or BARRED is dropped without a count, and one that no member sent is counted (R17). -/
theorem deliver_dropped {n : Nat} {g : State → State} {s : State}
    (h : s.mode = .rollcall ∨ s.mode = .barred ∨ isMember s n = false) :
    deliver n g s = if s.mode = .rollcall ∨ s.mode = .barred then s else countDiscarded s := by
  unfold deliver
  split
  · rfl
  · rename_i hm
    rw [h.resolve_left (fun e => hm (.inl e)) |>.resolve_left (fun e => hm (.inr e))]
    rfl

end Sys2Proof.Machine

open Sys2Proof Sys2Proof.Machine in
/-- Settles O18: a frame that is neither delivered nor the station's own leaves the line busy, and a count. -/
theorem framesNotDelivered : Obligations.FramesNotDelivered := by
  refine ⟨fun s levels hl => ?_, fun s c w hmal hown hc => ?_, fun s c w hgood hown hc hdrop => ?_⟩
  · have hexec : exec (.badFrame levels) s = .next (finish { s with
        line := { s.line with idle := false, badFrames := bump 65535 s.line.badFrames } }) := by
      show execBadFrame levels s = _
      unfold execBadFrame
      split
      · rename_i w hw; exact absurd hw (hl w)
      · rfl
    exact ⟨_, hexec, by rw [outer_finish]; rfl, fun h => finish_calm h⟩
  · have hexec : exec c s = .next (finish (countDiscarded (lineBusy s))) := by
      rcases hc with rfl | hc | ⟨f, rfl, rfl⟩
      · exact if_pos hmal
      · obtain ⟨act, he, -⟩ := exec_of_frameOf hc s
        rw [he, receive_malformed hmal, frameArrives_other hown]
      · show receive _ _ s = _
        rw [receive_malformed hmal, frameArrives_other hown]
    exact ⟨_, hexec, by rw [outer_finish]; rfl, fun h => finish_calm h⟩
  · obtain ⟨act, he, hact⟩ := exec_of_frameOf hc s
    obtain ⟨x, hx⟩ := exists_content hgood
    obtain ⟨g, hg⟩ := hact x (kindOf_contentOf hx)
    have hexec : exec c s = .next (finish
        (if s.mode = .rollcall ∨ s.mode = .barred then lineBusy s else countDiscarded (lineBusy s))) := by
      rw [he, receive_content hx, frameArrives_other hown, hg,
        deliver_dropped (s := lineBusy s) hdrop]
      rfl
    refine ⟨_, hexec, ?_, fun h => ?_⟩
    · rw [outer_finish]; split <;> rfl
    · split
      · exact finish_calm (s := lineBusy s) h
      · exact finish_calm (s := countDiscarded (lineBusy s)) h

/-! ## Halt-class occurrences (O46, O17)

An occurrence of a halt-class kind leaves the station in HALTED, ROLLCALL or BARRED, so nothing is left to
settle, and what it wrote is what the command ends with. -/

namespace Sys2Proof.Machine

/-! ### What a POSE request and a latch write -/

/-- A POSE request writes its two marks and nothing else (R12). -/
theorem requestPose_eq (s : State) :
    ∃ a b, requestPose s = { s with line := { s.line with posePending := a, poseAgain := b } } := by
  unfold requestPose
  split
  · exact ⟨_, _, rfl⟩
  · split <;> exact ⟨_, _, rfl⟩

/-- An occurrence at the fault record writes the record, the POSE marks and a notice (R181). -/
theorem latchAt_eq (p : Place) (n : Option Nat) (k : FaultKind) (s : State) :
    ∃ faults a b notice, latchAt p n k s =
      { s with
        faults := faults
        line := { s.line with posePending := a, poseAgain := b }
        notice := notice } := by
  unfold latchAt
  simp only []
  split
  · exact ⟨_, _, _, _, rfl⟩
  · obtain ⟨a, b, h⟩ := requestPose_eq
      (notify (setFault k (occurred s.timeBase p n (s.fault k)) s))
    rw [h]; exact ⟨_, _, _, _, rfl⟩

@[simp] theorem modeCtl_latchAt (p : Place) (n : Option Nat) (k : FaultKind) (s : State) :
    (latchAt p n k s).modeCtl = s.modeCtl := by
  obtain ⟨_, _, _, _, h⟩ := latchAt_eq p n k s; rw [h]

@[simp] theorem haltSlot_latchAt (p : Place) (n : Option Nat) (k : FaultKind) (s : State) :
    (latchAt p n k s).line.haltSlot = s.line.haltSlot := by
  obtain ⟨_, _, _, _, h⟩ := latchAt_eq p n k s; rw [h]

theorem timeBase_of_outer {s t : State} (h : t.outer = s.outer) : t.timeBase = s.timeBase :=
  congrArg Outer.timeBase h

theorem own_of_outer {s t : State} (h : t.outer = s.outer) : t.own = s.own := by
  have : t.straps = s.straps := congrArg Outer.straps h
  unfold State.own; rw [this]

theorem haltSlot_of_record {s t : State} (h : t.record = s.record) :
    t.line.haltSlot = s.line.haltSlot := congrArg Prod.snd h

theorem placeNow_eq (s : State) : placeNow s = columnPlace s := by
  unfold placeNow columnPlace State.lift State.stagedRec
  cases s.stage.record <;> rfl

/-- The place of an ENCODER record (R124, R181). -/
theorem encoderPlace_eq (s : State) :
    encoderPlace s =
      match s.stage.record with
      | .staged r => .liftAndTravel ((s.engine.travel : Int) - r.contactZero) s.engine.travel
      | _ => .travel s.engine.travel := by
  unfold encoderPlace State.lift State.stagedRec
  cases s.stage.record <;> rfl

/-- The record that an occurrence writes, as statements name it (R181). -/
theorem occurred_eq (p : Place) (s : State) (k : FaultKind) (n : Option Nat) :
    occurred s.timeBase p n (s.fault k) = recordAfterAt p s k (s.active k) n := rfl

theorem inner_faults_of_fault {s t : State} {j : FaultKind} (h : t.fault j = s.fault j) :
    t.inner.faults j = s.inner.faults j := by
  simp only [State.inner, State.latched, State.active, h]

/-! ### Entry to HALTED by an occurrence (R167, R177) -/

/-- The HALT slot after an own halt-class kind: LINE never fills it, and a full slot keeps its frame (R11). -/
theorem haltSlot_placeHalt (k : FaultKind) (s : State) :
    (placeHalt k s).line.haltSlot =
      if k = .line then s.line.haltSlot else some (s.line.haltSlot.getD (haltFrame s k)) := by
  unfold placeHalt
  split
  · rfl
  · split <;> simp [*]

theorem modeCtl_placeHalt (k : FaultKind) (s : State) : (placeHalt k s).modeCtl = s.modeCtl := by
  unfold placeHalt; split
  · rfl
  · split <;> rfl

/-- What mode control does at a halt-class occurrence: the HALT slot, and outside the modes without motion the
entry to HALTED with its stop record (R167, R177). -/
theorem modeOnFault_halt {k : FaultKind} (hk : haltClass k = true) (s : State) :
    modeOnFault k s =
      if s.mode = .rollcall ∨ s.mode = .barred ∨ s.mode = .halted then placeHalt k s
      else placeHalt k (recordStop .halted .fault (some k) none (enterHalted s)) := by
  unfold modeOnFault
  rw [if_pos hk]
  cases s.mode <;> rfl

theorem lastStop_haltReportAt {k : FaultKind} (hk : haltClass k = true) (p : Place) (n : Option Nat)
    (s : State) :
    (reportAt p k n s).modeCtl.lastStop =
      if s.mode = .rollcall ∨ s.mode = .barred ∨ s.mode = .halted then s.modeCtl.lastStop
      else some ⟨.halted, .fault, some k, none, ⟨s.timeBase, false⟩⟩ := by
  have htime : (enterHalted (latchAt p n k s)).timeBase = s.timeBase :=
    timeBase_of_outer (by rw [outer_enterHalted, outer_latchAt])
  unfold reportAt
  rw [modeOnFault_halt hk, mode_latchAt]
  split
  · rw [modeCtl_placeHalt, modeCtl_latchAt]
  · rw [modeCtl_placeHalt]
    show some (StopRecord.mk _ _ _ _ (Stamp.written (enterHalted (latchAt p n k s)).timeBase)) = _
    rw [htime]; rfl

theorem haltSlot_haltReportAt {k : FaultKind} (hk : haltClass k = true) (p : Place) (n : Option Nat)
    (s : State) :
    (reportAt p k n s).line.haltSlot =
      if k = .line then s.line.haltSlot else some (s.line.haltSlot.getD (haltFrame s k)) := by
  have place : ∀ t : State, t.outer = s.outer → t.line.haltSlot = s.line.haltSlot →
      (placeHalt k t).line.haltSlot =
        if k = .line then s.line.haltSlot else some (s.line.haltSlot.getD (haltFrame s k)) := by
    intro t ho hs
    have hf : haltFrame t k = haltFrame s k := by unfold haltFrame; rw [own_of_outer ho]
    rw [haltSlot_placeHalt, hs, hf]
  unfold reportAt
  rw [modeOnFault_halt hk]
  split
  · exact place _ (by simp) (by simp)
  · exact place _ (by simp) ((haltSlot_of_record (by simp)).trans (haltSlot_latchAt p n k s))

theorem quiet_haltReportAt {k : FaultKind} (hk : haltClass k = true) (p : Place) (n : Option Nat)
    (s : State) : Quiet (reportAt p k n s) := by
  unfold Quiet
  rw [mode_haltReportAt hk]
  split
  · rename_i h; rcases h with h | h <;> rw [h] <;> exact ⟨nofun, nofun⟩
  · exact ⟨nofun, nofun⟩

/-- A safe state in a mode without motion has its drive OFF (R123, R134). -/
theorem drive_off {s : State} (h : s.mview.Safe)
    (hm : s.mode = .rollcall ∨ s.mode = .barred ∨ s.mode = .halted) : s.engine.drive = .off := by
  have hjog : s.engine.jog = .none := by
    refine jog_none_of_mode h ?_
    rcases hm with hm | hm | hm <;> rw [hm] <;> nofun
  have hsource : s.engine.source = .stroke := by
    have := h.1.source; simp only [State.mview, hjog, if_true] at this; exact this
  have hrun : isRunning s.engine.stroke = false := by
    rw [Bool.eq_false_iff]
    intro hr
    obtain ⟨h1, h2, h3⟩ := h.2.runMode hr
    exact hm.elim h1 (Or.rec h2 h3)
  have hdrive : s.engine.drive = driveOf s.engine.source s.engine.stroke s.engine.jog := h.1.drive
  rw [hdrive, hsource]
  cases hs : s.engine.stroke with
  | running r n => rw [hs] at hrun; cases hrun
  | rest => rfl
  | claiming r => rfl

/-! ### What a command ends with -/

/-- A command that ends in an occurrence of a halt-class kind ends with what the occurrence wrote. -/
theorem finish_haltReportAt {k : FaultKind} (hk : haltClass k = true) (p : Place) (n : Option Nat)
    (s : State) :
    (finish (reportAt p k n s)).fault k = recordAfterAt p s k (s.active k) n ∧
      OtherFaultsKept s (finish (reportAt p k n s)) k ∧
      (finish (reportAt p k n s)).mode =
        (if s.mode = .rollcall ∨ s.mode = .barred then s.mode else .halted) ∧
      (finish (reportAt p k n s)).modeCtl.lastStop =
        (if s.mode = .rollcall ∨ s.mode = .barred ∨ s.mode = .halted then s.modeCtl.lastStop
         else some ⟨.halted, .fault, some k, none, ⟨s.timeBase, false⟩⟩) ∧
      (finish (reportAt p k n s)).line.haltSlot =
        (if k = .line then s.line.haltSlot else some (s.line.haltSlot.getD (haltFrame s k))) ∧
      (s.mview.Safe → (finish (reportAt p k n s)).engine.drive = .off) := by
  have hi := finish_quiet (quiet_haltReportAt hk p n s)
  have hmode : (finish (reportAt p k n s)).mode = _ :=
    (congrArg Inner.mode hi).trans (mode_haltReportAt hk p n s)
  have h1 : k ≠ .loadShare := by rintro rfl; cases hk
  have h2 : k ≠ .travelLimit := by rintro rfl; cases hk
  refine ⟨?_, fun j hj => ?_, hmode, ?_, ?_, fun hs => ?_⟩
  · rw [fault_finish h1 h2, fault_reportAt, if_pos rfl, occurred_eq]
  · rw [hi]; exact inner_faults_of_fault (by rw [fault_reportAt, if_neg hj])
  · exact (congrArg Inner.lastStop hi).trans (lastStop_haltReportAt hk p n s)
  · exact (congrArg Inner.haltSlot hi).trans (haltSlot_haltReportAt hk p n s)
  · refine drive_off (safe_finish (safe_reportAt p k n hs)) ?_
    rw [hmode]
    split
    · rename_i h; exact h.imp_right .inl
    · exact .inr (.inr rfl)

theorem countTravel_refused {up : Bool} {x : Nat}
    (h : up = true ∧ x = 240000 ∨ up = false ∧ x = 0) : countTravel up x = none := by
  rcases h with ⟨rfl, rfl⟩ | ⟨rfl, rfl⟩ <;> rfl

/-- A count that would leave the screw's travel is an occurrence of ENCODER (R124). -/
theorem exec_countEvent_refused {s : State} {up : Bool}
    (h : up = true ∧ s.engine.travel = 240000 ∨ up = false ∧ s.engine.travel = 0) :
    exec (.countEvent up) s = .next (finish (reportEncoder s)) := by
  show execCountEvent up s = _
  unfold execCountEvent
  simp only [countTravel_refused h]

end Sys2Proof.Machine

open Sys2Proof Sys2Proof.Machine in
/-- Settles O46: each input is an occurrence of a halt-class kind in the state with the input taken. -/
theorem haltInputs : Obligations.HaltInputs := by
  refine ⟨fun s c k hc => ?_, fun s hopen => ?_⟩
  · have encoder : k = .encoder → exec c s = .next (finish (reportEncoder s)) := by
      rintro rfl
      rcases hc with ⟨rfl, -⟩ | ⟨rfl, ht, -⟩ | ⟨rfl, ht, -⟩ | ⟨-, -, h⟩
      · rfl
      · exact exec_countEvent_refused (.inl ⟨rfl, ht⟩)
      · exact exec_countEvent_refused (.inr ⟨rfl, ht⟩)
      · cases h
    have hk : k = .encoder ∨ (c = .emergencyOpen ∧ s.pendant.levels.emergencyClosed = true ∧
        k = .emergency) := by
      rcases hc with ⟨-, h⟩ | ⟨-, -, h⟩ | ⟨-, -, h⟩ | h
      · exact .inl h
      · exact .inl h
      · exact .inl h
      · exact .inr h
    rcases hk with rfl | ⟨rfl, hclosed, rfl⟩
    · obtain ⟨hf, hother, hmode, hstop, hslot, hdrive⟩ :=
        finish_haltReportAt (k := .encoder) rfl (encoderPlace s) none s
      refine ⟨_, encoder rfl, ?_, hother, ?_, hmode, hstop, hslot,
        fun hs => hdrive ((motionSafe_iff s).mp hs)⟩
      · refine hf.trans ?_
        have hact : (s.active .encoder || FaultKind.encoder == .emergency) = s.active .encoder :=
          Bool.or_false _
        rw [hact, encoderPlace_eq]
        cases hrec : s.stage.record <;> simp [columnPlace, hrec]
      · rw [outer_finish, outer_reportEncoder]; rfl
    · let u : State := setActive .emergency true
        (setLevels (fun l => { l with emergencyClosed := false }) s)
      have hexec : exec .emergencyOpen s = .next (finish (reportAt (placeNow u) .emergency none u)) :=
        if_pos hclosed
      obtain ⟨hf, hother, hmode, hstop, hslot, hdrive⟩ :=
        finish_haltReportAt (k := .emergency) rfl (placeNow u) none u
      have hu : ∀ j, u.fault j =
          if j = .emergency then { s.fault .emergency with active := true } else s.fault j :=
        fun j => fault_setActive .emergency j true _
      refine ⟨_, hexec, ?_, fun j hj => ?_, ?_, hmode, hstop, hslot,
        fun hs => hdrive ((motionSafe_iff s).mp hs)⟩
      · refine hf.trans ?_
        rw [placeNow_eq]
        have hact : u.active .emergency = true := by unfold State.active; rw [hu]; rfl
        have hplace : columnPlace u = columnPlace s := rfl
        unfold recordAfterAt
        rw [hact, hplace, hu]
        simp
        rfl
      · exact (hother j hj).trans (inner_faults_of_fault (by rw [hu, if_neg hj]))
      · rw [outer_finish, outer_reportAt]; rfl
  · let u : State := setActive .emergency false
      (setLevels (fun l => { l with emergencyClosed := true }) s)
    have hexec : exec .emergencyClose s = .next (finish u) :=
      if_neg (by rw [hopen]; exact Bool.false_ne_true)
    have hu : ∀ j, u.fault j =
        if j = .emergency then { s.fault .emergency with active := false } else s.fault j :=
      fun j => fault_setActive .emergency j false _
    refine ⟨_, hexec, by rw [outer_finish]; rfl, ?_, fun hc => ?_⟩
    · rw [fault_finish (k := .emergency) nofun nofun, hu, if_pos rfl]
    · rw [finish_calm (s := u) hc]
      refine ⟨rfl, fun j hj => ?_⟩
      rw [finish_calm (s := u) hc]
      exact inner_faults_of_fault (by rw [hu, if_neg hj])

namespace Sys2Proof.Machine

/-! ### The sixteenth failure (R15) -/

/-- What a claim's withdrawal or its return to WAITING can write. -/
def ClaimMoved (s t : State) : Prop :=
  ∃ claim stroke drive withdrawals held notice, t =
    { s with
      line := { s.line with claim := claim }
      engine := { s.engine with stroke := stroke, drive := drive }
      spacing := { s.spacing with withdrawals := withdrawals, held := held }
      notice := notice }

theorem ClaimMoved.refl (s : State) : ClaimMoved s s := ⟨_, _, _, _, _, _, rfl⟩

theorem ClaimMoved.trans {s t u : State} (h : ClaimMoved s t) (k : ClaimMoved t u) :
    ClaimMoved s u := by
  obtain ⟨_, _, _, _, _, _, rfl⟩ := h
  obtain ⟨_, _, _, _, _, _, rfl⟩ := k
  exact ⟨_, _, _, _, _, _, rfl⟩

theorem claimMoved_requestWithdrawal (s : State) : ClaimMoved s (requestWithdrawal s) := by
  unfold requestWithdrawal
  split <;> exact ⟨_, _, _, _, _, _, rfl⟩

theorem claimMoved_claimOffLine (s : State) : ClaimMoved s (claimOffLine s) := by
  unfold claimOffLine
  split
  · rename_i f _ _
    have h : ClaimMoved s { s with line := { s.line with claim := .waiting f } } :=
      ⟨_, _, _, _, _, _, rfl⟩
    simp only []
    split
    · exact h.trans (claimMoved_requestWithdrawal _)
    · exact h
  · exact ⟨_, _, _, _, _, _, rfl⟩
  · exact .refl s

theorem claimMoved_failedClaim (s : State) : ClaimMoved s (failedClaim s) := by
  unfold failedClaim
  simp only []
  split
  · split
    · exact claimMoved_claimOffLine s
    · exact (claimMoved_claimOffLine s).trans (claimMoved_requestWithdrawal _)
  · exact claimMoved_claimOffLine s

/-- The state of a failed attempt before its failure is counted (R13, R115). -/
def offLine (s : State) : State :=
  if claimOnLine s then failedClaim (dropAttempt (lineBusy s)) else dropAttempt (lineBusy s)

theorem failAttempt_eq (s : State) : failAttempt s = countFailure (offLine s) := rfl

theorem claimMoved_offLine (s : State) : ClaimMoved (dropAttempt (lineBusy s)) (offLine s) := by
  unfold offLine
  split
  · exact claimMoved_failedClaim _
  · exact .refl _

theorem outer_of_claimMoved {s t : State} (h : ClaimMoved s t) : t.outer = s.outer := by
  obtain ⟨_, _, _, _, _, _, rfl⟩ := h; rfl

/-- A state with its failure count raised. -/
def withFailures (n : Nat) (s : State) : State := { s with line := { s.line with failures := n } }

/-- The failure that brings the count to 16 is an occurrence of LINE with its condition active (R15). -/
theorem countFailure_reaches {s : State} (h : s.line.failures = 15) :
    countFailure s =
      report .line none (setActive .line true (withFailures 16 s)) := by
  unfold countFailure
  rw [h]
  exact if_pos ⟨by decide, rfl⟩

/-- Any other failure is counted and no more (R15). -/
theorem countFailure_counts {s : State} (h : s.line.failures ≠ 15) :
    countFailure s = withFailures (oneMore 16 s.line.failures) s := by
  unfold countFailure
  refine if_neg fun hc => h ?_
  have := hc.2
  unfold bump at this
  rw [if_pos hc.1] at this
  omega

/-- What the command with the sixteenth failure ends with: LINE latched and active, a local halt, and the HALT
slot as it was (R15, R177). -/
theorem finish_countFailure_reaches {s : State} (h : s.line.failures = 15) :
    (finish (countFailure s)).outer = { s.outer with failures := 16 } ∧
      (finish (countFailure s)).fault .line = recordAfter s .line true none ∧
      (finish (countFailure s)).line.haltSlot = s.line.haltSlot ∧
      (finish (countFailure s)).mode =
        (if s.mode = .rollcall ∨ s.mode = .barred then s.mode else .halted) ∧
      (finish (countFailure s)).modeCtl.lastStop =
        (if s.mode = .rollcall ∨ s.mode = .barred ∨ s.mode = .halted then s.modeCtl.lastStop
         else some ⟨.halted, .fault, some .line, none, ⟨s.timeBase, false⟩⟩) := by
  let u : State := setActive .line true (withFailures 16 s)
  obtain ⟨hf, -, hmode, hstop, hslot, -⟩ :=
    finish_haltReportAt (k := .line) rfl (placeNow u) none u
  have hu : u.fault .line = { s.fault .line with active := true } :=
    fault_setFault_same _ _ _
  rw [countFailure_reaches h]
  refine ⟨?_, ?_, hslot, hmode, hstop⟩
  · rw [outer_finish, outer_report]; rfl
  · refine hf.trans ?_
    have hact : u.active .line = true := by unfold State.active; rw [hu]
    have hplace : columnPlace u = columnPlace s := rfl
    rw [placeNow_eq, hact, hplace]
    unfold recordAfter recordAfterAt
    rw [hu]
    rfl

end Sys2Proof.Machine

open Sys2Proof Sys2Proof.Machine in
/-- Settles O17: both commands end in the count of one failure, on a state that differs from the first in the
line, the claim and the drive alone. -/
theorem lineFaultAtSixteen : Obligations.LineFaultAtSixteen := by
  intro s c h15 hc
  rcases hc with ⟨rfl, hatt⟩ | ⟨rfl, hdue⟩
  · have hexec : exec .bitError s = .next (finish (countFailure (offLine s))) :=
      if_neg (by simp [Option.isSome_iff_ne_none.mp hatt])
    obtain ⟨_, _, _, _, _, _, hm⟩ := claimMoved_offLine s
    obtain ⟨ho, hf, hslot, hmode, hstop⟩ :=
      finish_countFailure_reaches (s := offLine s) (by rw [hm]; exact h15)
    refine ⟨_, hexec, congrArg Outer.failures ho, hf.trans ?_, hslot.trans ?_, hmode.trans ?_,
      hstop.trans ?_⟩ <;> rw [hm] <;> rfl
  · have hexec : exec .lineBusyLimitExpiry s = .next (finish (countFailure
        { s with line := { s.line with busyLimit := armed s.timeBase busyLimitUnits } })) := if_pos hdue
    obtain ⟨ho, hf, hslot, hmode, hstop⟩ := finish_countFailure_reaches
      (s := { s with line := { s.line with busyLimit := armed s.timeBase busyLimitUnits } }) h15
    exact ⟨_, hexec, congrArg Outer.failures ho, hf, hslot, hmode, hstop⟩

/-! ## How an attempt ends (O15, O16)

A withdrawn claim leaves the slot EMPTY and the stroke engine at REST (`Unclaimed`). The operations that
settle the withdrawal's notice keep it so, but for the gap test, which in MOVING may queue a fresh claim
(`Requeued`); no notice is then outstanding, and the settling ends. -/

namespace Sys2Proof.Machine

/-- No claim and no stroke, `n` withdrawals, and no own frame on the line; with `pose`, a POSE is pending. -/
structure Unclaimed (n : Nat) (pose : Bool) (s : State) : Prop where
  claim : s.line.claim = .empty
  stroke : s.engine.stroke = .rest
  withdrawals : s.spacing.withdrawals = n
  held : s.spacing.held = false
  attempt : s.line.attempt = none
  poseAgain : s.line.poseAgain = false
  pose : pose = true → s.line.posePending = true

/-- A fresh claim queued in MOVING after `n` withdrawals, with no notice outstanding. -/
structure Requeued (n : Nat) (pose : Bool) (s : State) : Prop where
  claim : ∃ r, s.engine.stroke = .claiming r ∧ s.line.claim = .waiting (claimFrame s r)
  mode : s.mode = .moving
  withdrawals : s.spacing.withdrawals = n
  held : s.spacing.held = false
  poseAgain : s.line.poseAgain = false
  pose : pose = true → s.line.posePending = true
  notice : s.notice = false

/-- Either of the two. -/
def Resolved (n : Nat) (pose : Bool) (s : State) : Prop := Unclaimed n pose s ∨ Requeued n pose s

section
variable {n : Nat} {p : Bool} {s : State}

/-! ### Requests, flags and the pawl -/

theorem unclaimed_notify (h : Unclaimed n p s) : Unclaimed n p (notify s) := { h with }

theorem unclaimed_requestPose (h : Unclaimed n p s) : Unclaimed n p (requestPose s) := by
  have hs : sendingKind s kindPose = false := by unfold sendingKind; rw [h.attempt]
  unfold requestPose
  rw [hs]
  split
  · exact h
  · exact { h with pose := fun _ => rfl }

theorem unclaimed_setActive (k : FaultKind) (on : Bool) (h : Unclaimed n p s) :
    Unclaimed n p (setActive k on s) := { h with }

theorem unclaimed_latchAt (w : Place) (m : Option Nat) (k : FaultKind) (h : Unclaimed n p s) :
    Unclaimed n p (latchAt w m k s) := by
  have hf : Unclaimed n p (setFault k (occurred s.timeBase w m (s.fault k)) s) := { h with }
  unfold latchAt
  simp only []
  split
  · exact hf
  · exact unclaimed_requestPose (unclaimed_notify hf)

/-- With no claim, a cause of withdrawal does nothing (R112). -/
theorem causeOfWithdrawal_of_rest (h : s.engine.stroke = .rest) : causeOfWithdrawal s = s := by
  unfold causeOfWithdrawal State.claiming; rw [h]; rfl

theorem abortStroke_of_rest (h : s.engine.stroke = .rest) : abortStroke s = s := by
  unfold abortStroke; rw [h]

theorem cutStroke_of_rest (h : s.engine.stroke = .rest) : cutStroke s = s := by
  unfold cutStroke; rw [h]

theorem shortStop_of_rest (h : s.engine.stroke = .rest) : shortStop s = s := by
  unfold shortStop; rw [h]

theorem unclaimed_dropJog (h : Unclaimed n p s) : Unclaimed n p (dropJog s) := { h with }

theorem unclaimed_setPawl (w : Pawl) (h : Unclaimed n p s) : Unclaimed n p { s with pawl := w } :=
  { h with }

theorem unclaimed_engineOnPawl (w : PawlState) (h : Unclaimed n p s) :
    Unclaimed n p (engineOnPawl w s) := by
  unfold engineOnPawl
  rw [cutStroke_of_rest h.stroke]
  split
  · split
    · exact { h with }
    · exact h
  · simp only []
    split
    · exact unclaimed_dropJog (unclaimed_setPawl _ h)
    · exact h

theorem unclaimed_reportPawl (w : PawlState) (h : Unclaimed n p s) :
    Unclaimed n p (reportPawl w s) := by
  have h1 : Unclaimed n p (requestPose (notify { s with pawl := { s.pawl with state := w } })) :=
    unclaimed_requestPose (unclaimed_notify (unclaimed_setPawl _ h))
  have h2 := unclaimed_engineOnPawl w h1
  unfold reportPawl
  simp only []
  rw [causeOfWithdrawal_of_rest h1.stroke]
  split
  · exact { h2 with }
  · exact h2

theorem unclaimed_pawlWithdraw (h : Unclaimed n p s) : Unclaimed n p (pawlWithdraw s) := by
  unfold pawlWithdraw
  split
  · split
    · exact unclaimed_reportPawl _ (unclaimed_setPawl _ (unclaimed_setPawl _ h))
    · exact unclaimed_setPawl _ h
    · exact h
  · exact h

theorem unclaimed_pawlSet (h : Unclaimed n p s) : Unclaimed n p (pawlSet s) := by
  have h0 : Unclaimed n p { s with pawl := { s.pawl with pendingWithdraw := false } } :=
    unclaimed_setPawl _ h
  have h1 := unclaimed_reportPawl (s := armPawlLimit (commandPawl .set
    { s with pawl := { s.pawl with pendingWithdraw := false } })) .setting { h0 with }
  unfold pawlSet
  simp only []
  split
  · exact h0
  · exact h0
  · split
    · exact unclaimed_reportPawl _ (unclaimed_setPawl _ h1)
    · exact h1
  · exact h1
  · exact unclaimed_setPawl _ h0

theorem unclaimed_endJog (h : Unclaimed n p s) : Unclaimed n p (endJog s) := by
  unfold endJog
  split
  · exact h
  · split
    · exact unclaimed_pawlSet (unclaimed_dropJog h)
    · exact unclaimed_dropJog h

/-! ### Mode entries and occurrences -/

theorem unclaimed_handRetained (h : Unclaimed n p s) : Unclaimed n p (handRetained s) := by
  unfold handRetained
  simp only []
  split <;> exact { h with }

theorem unclaimed_ceilingIdle (h : Unclaimed n p s) : Unclaimed n p (ceilingIdle s) := { h with }

theorem unclaimed_recordStop (m : Mode) (o : StopOrigin) (k : Option FaultKind) (q : Option Nat)
    (h : Unclaimed n p s) : Unclaimed n p (recordStop m o k q s) := { h with }

theorem unclaimed_setMode (m : Mode) (h : Unclaimed n p s) : Unclaimed n p (setMode m s) :=
  unclaimed_requestPose { h with }

theorem unclaimed_enterUnstaged (h : Unclaimed n p s) : Unclaimed n p (enterUnstaged s) := by
  have h1 := unclaimed_setMode .unstaged h
  have tail : ∀ t : State, Unclaimed n p t → Unclaimed n p (pawlSet (ceilingIdle
      { t with ceiling := { t.ceiling with nudgeDue := false, release := false } })) :=
    fun t ht => unclaimed_pawlSet (unclaimed_ceilingIdle { ht with })
  unfold enterUnstaged
  simp only []
  split
  · exact tail _ h1
  · exact tail _ (unclaimed_handRetained { h1 with })

theorem unclaimed_enterSettled (h : Unclaimed n p s) : Unclaimed n p (enterSettled s) :=
  unclaimed_pawlSet (unclaimed_ceilingIdle (unclaimed_setMode _ h))

theorem unclaimed_enterHold (h : Unclaimed n p s) : Unclaimed n p (enterHold s) := by
  have h1 := unclaimed_setMode .hold h
  unfold enterHold
  rw [shortStop_of_rest h1.stroke, causeOfWithdrawal_of_rest h1.stroke]
  exact unclaimed_pawlSet (unclaimed_ceilingIdle h1)

theorem unclaimed_enterHalted (h : Unclaimed n p s) : Unclaimed n p (enterHalted s) := by
  have h1 := unclaimed_endJog (unclaimed_setMode .halted h)
  unfold enterHalted
  rw [abortStroke_of_rest h1.stroke, causeOfWithdrawal_of_rest h1.stroke]
  exact unclaimed_pawlSet (unclaimed_ceilingIdle h1)

theorem unclaimed_placeHalt (k : FaultKind) (h : Unclaimed n p s) : Unclaimed n p (placeHalt k s) := by
  unfold placeHalt
  split
  · exact h
  · split
    · exact h
    · exact { h with }

theorem unclaimed_report (k : FaultKind) (m : Option Nat) (h : Unclaimed n p s) :
    Unclaimed n p (report k m s) := by
  have h1 := unclaimed_latchAt (placeNow s) m k h
  unfold report reportAt modeOnFault
  split
  · split
    · exact unclaimed_placeHalt k h1
    · exact unclaimed_placeHalt k h1
    · exact unclaimed_placeHalt k h1
    · exact unclaimed_placeHalt k (unclaimed_recordStop _ _ _ _ (unclaimed_enterHalted h1))
  · split
    · exact unclaimed_recordStop _ _ _ _ (unclaimed_enterHold h1)
    · exact h1

/-! ### Readers before the ceiling unit -/

theorem unclaimed_shareEval (h : Unclaimed n p s) : Unclaimed n p (shareEval s) := by
  have hw : Unclaimed n p (writeShare s) := { h with }
  unfold shareEval
  simp only []
  split
  · exact unclaimed_report _ _ (unclaimed_setActive _ _ hw)
  · split
    · exact unclaimed_setActive _ _ hw
    · exact hw

theorem unclaimed_handOverArrival (h : Unclaimed n p s) : Unclaimed n p (handOverArrival s) := by
  unfold handOverArrival
  split
  · exact unclaimed_enterUnstaged (unclaimed_handRetained { h with })
  · exact unclaimed_enterSettled h
  · exact h

theorem unclaimed_awaitTest (h : Unclaimed n p s) : Unclaimed n p (awaitTest s) := by
  unfold awaitTest
  split
  · exact unclaimed_handOverArrival { h with }
  · exact h

theorem unclaimed_restTest (h : Unclaimed n p s) : Unclaimed n p (restTest s) := by
  unfold restTest
  split
  · split
    · exact unclaimed_setMode _ h
    · exact h
  · exact h

/-- The share evaluation sends a notice only where it takes the station out of MOVING (R175). -/
theorem notice_shareEval (hm : (shareEval s).mode = .moving) : (shareEval s).notice = s.notice := by
  unfold shareEval at hm ⊢
  simp only [] at hm ⊢
  split
  · rename_i hc
    rw [if_pos hc, mode_holdReport rfl] at hm
    split at hm
    · cases hm
    · contradiction
  · split <;> rfl

theorem notice_awaitTest (hm : (awaitTest s).mode = .moving) : (awaitTest s).notice = s.notice := by
  unfold awaitTest at hm ⊢
  split
  · rename_i hc
    rw [if_pos hc] at hm
    unfold handOverArrival at hm ⊢
    split at hm
    · rw [mode_endStaging] at hm; cases hm
    · rw [mode_enterSettled] at hm; cases hm
    · rfl
  · rfl

theorem notice_restTest (hm : (restTest s).mode = .moving) : (restTest s).notice = s.notice := by
  unfold restTest at hm ⊢
  split
  · split
    · simp only [*, and_self, if_true, mode_enterIdle] at hm; cases hm
    · rfl
  · rfl

/-! ### The ceiling unit and the gap test -/

theorem resolved_tryQueue (h : Unclaimed n p s) (hn : s.notice = false) :
    Resolved n p (tryQueue s) := by
  unfold tryQueue
  split
  · exact .inl h
  · split
    · rename_i hc
      split
      · exact .inr ⟨⟨_, rfl, rfl⟩, hc.2.1, h.withdrawals, rfl, h.poseAgain, h.pose, hn⟩
      · exact .inl { h with }
    · exact .inl h

theorem resolved_giveOffer (r : Stroke) (h : Unclaimed n p s) (hn : s.notice = false) :
    Resolved n p (giveOffer r s) := by
  unfold giveOffer handOffer
  exact resolved_tryQueue { h with } hn

theorem unclaimed_giveWait (w : WaitReason) (h : Unclaimed n p s) : Unclaimed n p (giveWait w s) := by
  unfold giveWait handOffer
  exact { h with }

theorem unclaimed_giveArrived (h : Unclaimed n p s) : Unclaimed n p (giveArrived s) := by
  unfold giveArrived handOffer
  exact { h with }

theorem resolved_offerOrLead (o : Option Stroke) (h : Unclaimed n p s) (hn : s.notice = false) :
    Resolved n p (offerOrLead o s) := by
  unfold offerOrLead
  split
  · exact resolved_giveOffer _ h hn
  · exact .inl (unclaimed_giveWait _ h)

/-- Preconditions that all pass find the pawl as the class needs it (R91, R96). -/
theorem pawl_of_precondition {c : StrokeClass} (h : precondition s c = .none) :
    s.pawl.state = classPawl c := by
  unfold precondition at h
  split at h
  · cases h
  · split at h
    · cases h
    · rename_i hp; simpa using hp

theorem mayAskWithdraw_pawl (h : mayAskWithdraw s = true) : s.pawl.state = .set := by
  simp only [mayAskWithdraw, Bool.and_eq_true, beq_iff_eq] at h
  exact h.1.1.1.1

/-- A pawl at SET keeps a lowering stroke from being offered (R96). -/
theorem unclaimed_evalLower_of_set (r : StagedRec) (x : Int) (h : Unclaimed n p s)
    (hp : s.pawl.state = .set) : Unclaimed n p (evalLower r x s) := by
  have never : precondition s .lowering ≠ .none := fun hc => by
    have := pawl_of_precondition hc
    rw [hp] at this; cases this
  unfold evalLower
  simp only []
  split
  · exact unclaimed_pawlWithdraw (unclaimed_giveWait _ h)
  · exact unclaimed_giveWait _ h

theorem resolved_evalLower (r : StagedRec) (x : Int) (h : Unclaimed n p s) (hn : s.notice = false) :
    Resolved n p (evalLower r x s) := by
  by_cases hp : s.pawl.state = .set
  · exact .inl (unclaimed_evalLower_of_set r x h hp)
  · have ask : mayAskWithdraw s = false := Bool.eq_false_iff.mpr fun e => hp (mayAskWithdraw_pawl e)
    unfold evalLower
    simp only []
    rw [ask]
    simp only [Bool.false_eq_true, if_false]
    split
    · exact resolved_offerOrLead _ h hn
    · exact .inl (unclaimed_giveWait _ h)

theorem unclaimed_markRelease (h : Unclaimed n p s) : Unclaimed n p (markRelease s) := by
  unfold markRelease
  split
  · exact { h with }
  · exact h

theorem pawl_markRelease (s : State) : (markRelease s).pawl = s.pawl := by
  unfold markRelease; split <;> rfl

theorem notice_markRelease (s : State) : (markRelease s).notice = s.notice := by
  unfold markRelease; split <;> rfl

/-- A nudge of length 0 leaves its notice, but the pawl at SET then keeps a lowering stroke from being offered. -/
theorem resolved_evalNudge (r : StagedRec) (x : Int) (h : Unclaimed n p s) (hn : s.notice = false) :
    Resolved n p (evalNudge r x s) := by
  unfold evalNudge
  split
  · rename_i hc
    have hp := pawl_of_precondition hc
    split
    · refine .inl (unclaimed_evalLower_of_set r x (unclaimed_markRelease { h with }) ?_)
      rw [pawl_markRelease]; exact hp
    · split
      · exact resolved_giveOffer _ h hn
      · exact .inl (unclaimed_giveWait _ h)
  · exact .inl (unclaimed_giveWait _ h)

theorem resolved_evalAtRest (h : Unclaimed n p s) (hn : s.notice = false) :
    Resolved n p (evalAtRest s) := by
  have h1 := unclaimed_markRelease h
  have hn1 : (markRelease s).notice = false := (notice_markRelease s).trans hn
  unfold evalAtRest
  split
  · simp only []
    split
    · exact .inl (unclaimed_giveArrived h1)
    · split
      · split
        · exact resolved_evalNudge _ _ h1 hn1
        · exact resolved_evalLower _ _ h1 hn1
      · unfold evalRaise
        split
        · exact resolved_offerOrLead _ h1 hn1
        · exact .inl (unclaimed_giveWait _ h1)
  · unfold evalTakeUp
    split
    · exact .inl (unclaimed_report _ _ (unclaimed_giveWait _ h))
    · split
      · exact resolved_giveOffer _ h hn
      · exact .inl (unclaimed_giveWait _ h)

/-! ### Settling -/

theorem resolved_readers (h : Unclaimed n p s) (hn : s.notice = false) : Resolved n p (readers s) := by
  have h1 := unclaimed_restTest (unclaimed_awaitTest (unclaimed_shareEval h))
  unfold readers evaluate
  split
  · rename_i hm
    have m2 : (awaitTest (shareEval s)).mode = .moving := by
      by_contra hne
      revert hm
      unfold restTest
      split
      · split
        · simp
        · exact hne
      · exact hne
    have m1 : (shareEval s).mode = .moving := by
      by_contra hne
      revert m2
      unfold awaitTest
      rw [if_neg (fun hc => hne hc.2.1)]
      exact hne
    have hn1 : (restTest (awaitTest (shareEval s))).notice = false := by
      rw [notice_restTest hm, notice_awaitTest m2, notice_shareEval m1, hn]
    split
    · rename_i hs; rw [h1.stroke] at hs; cases hs
    · rename_i hs; rw [h1.stroke] at hs; cases hs
    · exact resolved_evalAtRest h1 hn1
  · exact .inl (unclaimed_ceilingIdle h1)

theorem resolved_settle (m : Nat) (h : Unclaimed n p s) : Resolved n p (settle m s) := by
  induction m generalizing s with
  | zero => exact .inl h
  | succ m ih =>
    unfold settle
    split
    · rcases resolved_readers (s := { s with notice := false }) { h with } rfl with hr | hr
      · exact ih hr
      · rw [settle_still _ hr.notice]; exact .inr hr
    · exact .inl h

theorem resolved_finish (h : Unclaimed n p s) : Resolved n p (finish s) := by
  unfold finish armBusy
  rcases resolved_settle settleRounds h with hr | hr
  · split <;> exact .inl { hr with }
  · obtain ⟨r, hs, hc⟩ := hr.claim
    split <;> exact .inr
      ⟨⟨r, hs, hc⟩, hr.mode, hr.withdrawals, hr.held, hr.poseAgain, hr.pose, rfl⟩

end

/-- What a command that withdraws a claim ends with (R114). -/
theorem claimWithdrawn_of_unclaimed {s u : State} {p : Bool}
    (h : Unclaimed (oneMore 255 s.spacing.withdrawals) p u) :
    ClaimWithdrawn s (finish u) ∧ (finish u).line.poseAgain = false ∧
      (p = true → (finish u).line.posePending = true) := by
  rcases resolved_finish h with hr | hr
  · exact ⟨⟨hr.withdrawals, hr.held, .inl ⟨hr.claim, hr.stroke⟩⟩, hr.poseAgain, hr.pose⟩
  · obtain ⟨r, hs, hc⟩ := hr.claim
    exact ⟨⟨hr.withdrawals, hr.held, .inr ⟨r, hr.mode, hs, hc⟩⟩, hr.poseAgain, hr.pose⟩

end Sys2Proof.Machine

namespace Sys2Proof.Machine

/-! ### Withdrawals and returns at the end of an attempt -/

/-- A state with its CLAIM slot replaced. -/
def withClaim (c : ClaimSlot) (s : State) : State := { s with line := { s.line with claim := c } }

/-- The CLAIM slot once its claim is off the line with no withdrawal held (R14). -/
def backToWaiting : ClaimSlot → ClaimSlot
  | .contending f _ => .waiting f
  | .committed f => .waiting f
  | c => c

/-- A withdrawal held in CONTENDING takes effect (R14, R113). -/
theorem claimOffLine_contending {s : State} {f : WireFrame} (h : s.line.claim = .contending f true) :
    claimOffLine s = withdrawNow (withClaim (.waiting f) s) := by
  unfold claimOffLine; rw [h]; rfl

/-- A claim with no withdrawal held waits again; an EMPTY slot and a waiting claim stay (R13, R14). -/
theorem claimOffLine_waits {s : State} (h : ∀ f, s.line.claim ≠ .contending f true) :
    claimOffLine s = withClaim (backToWaiting s.line.claim) s := by
  unfold claimOffLine withClaim
  cases hc : s.line.claim with
  | contending f held =>
    cases held with
    | true => exact absurd hc (h f)
    | false => rfl
  | empty => simp only [backToWaiting, ← hc]
  | waiting f => simp only [backToWaiting, ← hc]
  | committed f => rfl

end Sys2Proof.Machine

open Sys2Proof Sys2Proof.Machine in
/-- Settles O15: the loser's claim is taken off the line as the slot's phase says, the winner's is committed. -/
theorem arbitrationEnds : Obligations.ArbitrationEnds := by
  refine ⟨fun s hatt hnc => ?_, fun s w held hatt hc => ?_⟩
  · have hcom : claimCommitted s = false := by
      unfold claimCommitted
      split
      · rename_i f hf; exact absurd hf (hnc f)
      · rfl
    have hexec : exec .lostArbitration s = .next (finish (claimOffLine (dropAttempt s))) :=
      if_neg (by simp [Option.isSome_iff_ne_none.mp hatt, hcom])
    have withdrawn : ∀ w, s.line.claim = .contending w true → claimOffLine (dropAttempt s) =
        withdrawNow (withClaim (.waiting w) (dropAttempt s)) :=
      fun w hw => claimOffLine_contending (s := dropAttempt s) hw
    refine ⟨_, hexec, ?_, fun hcalm hno => ?_, fun w hq hw => ?_, fun w hw => ?_⟩
    · rw [outer_finish, outer_of_claimMoved (claimMoved_claimOffLine _)]; rfl
    · have hcalm' : Calm (withClaim (backToWaiting s.line.claim) (dropAttempt s)) := hcalm
      have hwaits : claimOffLine (dropAttempt s) =
          withClaim (backToWaiting s.line.claim) (dropAttempt s) :=
        claimOffLine_waits (s := dropAttempt s) hno
      rw [hwaits, finish_calm hcalm']
      cases hcl : s.line.claim with
      | committed f => exact absurd hcl (hnc f)
      | empty => rfl
      | waiting f => rfl
      | contending f held => rfl
    · have hq' : Quiet (withdrawNow (withClaim (.waiting w) (dropAttempt s))) := hq
      rw [withdrawn w hw, finish_quiet hq']; rfl
    · rw [withdrawn w hw]
      exact claimWithdrawn_of_unclaimed ⟨rfl, rfl, rfl, rfl, rfl, rfl, id⟩
  · have hexec : exec .wonArbitration s = .next (finish { s with
        line := { s.line with claim := .committed w }
        spacing := { s.spacing with held := s.spacing.held || held } }) := by
      obtain ⟨a, ha⟩ := Option.isSome_iff_exists.mp hatt
      show execWonArbitration s = _
      unfold execWonArbitration
      simp only [ha, hc]
    exact ⟨_, hexec, outer_finish _, fun h => finish_calm h⟩

namespace Sys2Proof.Machine

/-! ### A failed attempt (R115) -/

theorem claimOnLine_of {s : State} {w : WireFrame}
    (h : s.line.claim = .committed w ∨ ∃ b, s.line.claim = .contending w b) :
    claimOnLine s = true := by
  unfold claimOnLine
  rcases h with h | ⟨b, h⟩ <;> rw [h]

theorem offLine_noClaim {s : State} (h1 : ∀ w b, s.line.claim ≠ .contending w b)
    (h2 : ∀ w, s.line.claim ≠ .committed w) : offLine s = dropAttempt (lineBusy s) := by
  have h : claimOnLine s = false := by
    unfold claimOnLine
    split
    · exact absurd ‹_› (h1 _ _)
    · exact absurd ‹_› (h2 _)
    · rfl
  unfold offLine; rw [h]; rfl

/-- A claim on the line with no withdrawal held in its slot waits again before the spacing unit decides. -/
theorem offLine_waiting {s : State} {w : WireFrame}
    (h : s.line.claim = .committed w ∨ s.line.claim = .contending w false) :
    offLine s =
      if claimStands s then withClaim (.waiting w) (dropAttempt (lineBusy s))
      else withdrawNow (withClaim (.waiting w) (dropAttempt (lineBusy s))) := by
  have hoff : claimOffLine (dropAttempt (lineBusy s)) =
      withClaim (.waiting w) (dropAttempt (lineBusy s)) := by
    have hw : backToWaiting s.line.claim = .waiting w := by rcases h with h | h <;> rw [h] <;> rfl
    rw [← hw]
    refine claimOffLine_waits (s := dropAttempt (lineBusy s)) fun f hf => ?_
    have hf : s.line.claim = .contending f true := hf
    rcases h with h | h <;> rw [h] at hf <;> cases hf
  unfold offLine failedClaim
  rw [claimOnLine_of (h.imp_right fun e => ⟨false, e⟩), hoff]
  rfl

/-- A claim stands when no withdrawal is held, in MOVING, while it is admitted; any other is withdrawn (R115). -/
theorem offLine_stands {s : State} {w : WireFrame}
    (h : s.line.claim = .committed w ∨ s.line.claim = .contending w false)
    (hh : s.spacing.held = false) (hm : s.mode = .moving) (ha : s.spacing.admitted = true) :
    offLine s = withClaim (.waiting w) (dropAttempt (lineBusy s)) := by
  rw [offLine_waiting h, if_pos (by simp [claimStands, hh, hm, ha])]

theorem offLine_withdraws {s : State} {w : WireFrame}
    (h : s.line.claim = .committed w ∨ ∃ b, s.line.claim = .contending w b)
    (hd : s.line.claim = .contending w true ∨ s.spacing.held = true ∨ s.spacing.admitted = false ∨
      s.mode ≠ .moving) :
    offLine s = withdrawNow (withClaim (.waiting w) (dropAttempt (lineBusy s))) := by
  by_cases ht : s.line.claim = .contending w true
  · unfold offLine failedClaim
    rw [claimOnLine_of h, claimOffLine_contending (s := dropAttempt (lineBusy s)) ht]
    rfl
  · have hw : s.line.claim = .committed w ∨ s.line.claim = .contending w false := by
      rcases h with h | ⟨_ | _, h⟩
      · exact .inl h
      · exact .inr h
      · exact absurd h ht
    rw [offLine_waiting hw, if_neg]
    rcases hd.resolve_left ht with hd | hd | hd <;> simp [claimStands, hd]

theorem outer_countFailure (s : State) :
    (countFailure s).outer = { s.outer with failures := oneMore 16 s.line.failures } := by
  unfold countFailure
  simp only []
  split
  · rw [outer_report]; rfl
  · rfl

theorem unclaimed_countFailure {n : Nat} {p : Bool} {s : State} (h : Unclaimed n p s) :
    Unclaimed n p (countFailure s) := by
  unfold countFailure
  simp only []
  split
  · exact unclaimed_report _ _ { h with }
  · exact { h with }

/-! ### The line-busy limit (R15) -/

theorem line_settle_quiet (n : Nat) {s : State} (h : Quiet s) : (settle n s).line = s.line := by
  have reads : ∀ t : State, Quiet t → (readers t).line = t.line := by
    intro t ht
    have hline : (shareEval t).line = t.line := by
      unfold shareEval
      simp only [shareOf_quiet ht]
      rw [if_neg (by simp [outOfBand])]
      split <;> rfl
    have hq : Quiet (shareEval t) := quiet_of_eq (congrArg Inner.mode (inner_shareEval ht).1) ht
    unfold readers
    rw [awaitTest_quiet hq, restTest_quiet hq]
    unfold evaluate
    rw [if_neg hq.1]
    exact hline
  induction n generalizing s with
  | zero => rfl
  | succ n ih =>
    unfold settle
    split
    · have hq : Quiet { s with notice := false } := h
      rw [ih (quiet_of_eq (congrArg Inner.mode (readers_quiet hq).1) hq)]
      exact reads _ hq
    · rfl

/-- What ends a command leaves a line-busy limit that is armed as it is (R15). -/
theorem busyLimit_finish {s : State} (h : Calm s) (hb : s.line.busyLimit ≠ none) :
    (finish s).line.busyLimit = s.line.busyLimit := by
  have hl : (settle settleRounds s).line = s.line := by
    rcases h with h | h
    · exact line_settle_quiet _ h
    · rw [settle_still _ h]
  have harm : armBusy (clearNotice (settle settleRounds s)) = clearNotice (settle settleRounds s) := by
    unfold armBusy
    rw [line_clearNotice, hl]
    exact if_neg fun hc => hb hc.1
  unfold finish
  rw [harm]
  exact congrArg Line.busyLimit hl

end Sys2Proof.Machine

open Sys2Proof Sys2Proof.Machine in
/-- Settles O16: a failure is counted on the state whose claim is off the line, standing or withdrawn. -/
theorem transmitFailures : Obligations.TransmitFailures := by
  refine ⟨fun s hatt => ?_, fun s hdue => ?_⟩
  · have hexec : exec .bitError s = .next (finish (countFailure (offLine s))) :=
      if_neg (by simp [Option.isSome_iff_ne_none.mp hatt])
    have houter : (offLine s).outer = (dropAttempt (lineBusy s)).outer :=
      outer_of_claimMoved (claimMoved_offLine s)
    have hfail : (offLine s).line.failures = s.line.failures := congrArg Outer.failures houter
    have hcount : s.line.failures ≠ 15 →
        countFailure (offLine s) = withFailures (oneMore 16 s.line.failures) (offLine s) :=
      fun h15 => by rw [← hfail] at h15 ⊢; exact countFailure_counts h15
    refine ⟨_, hexec, ?_, fun hc h15 h1 h2 => ?_, fun w hc h15 hw hh hm ha => ?_,
      fun w hq h15 hw => ?_, fun w hw hd => ?_⟩
    · rw [outer_finish, outer_countFailure, hfail, houter]; rfl
    · have hc' : Calm (withFailures (oneMore 16 s.line.failures) (dropAttempt (lineBusy s))) := hc
      rw [hcount h15, offLine_noClaim h1 h2, finish_calm hc']; rfl
    · have hc' : Calm (withFailures (oneMore 16 s.line.failures)
        (withClaim (.waiting w) (dropAttempt (lineBusy s)))) := hc
      rw [hcount h15, offLine_stands hw hh hm ha, finish_calm hc']; rfl
    · have hq' : Quiet (withFailures (oneMore 16 s.line.failures)
        (withdrawNow (withClaim (.waiting w) (dropAttempt (lineBusy s))))) := hq
      rw [hcount h15, offLine_withdraws hw (.inr (.inr (.inr hq.1))), finish_quiet hq']; rfl
    · rw [offLine_withdraws hw hd]
      exact claimWithdrawn_of_unclaimed
        (unclaimed_countFailure ⟨rfl, rfl, rfl, rfl, rfl, rfl, id⟩)
  · let u : State := { s with line := { s.line with busyLimit := armed s.timeBase busyLimitUnits } }
    have hexec : exec .lineBusyLimitExpiry s = .next (finish (countFailure u)) := if_pos hdue
    refine ⟨_, hexec, ?_, fun hc h15 => ?_⟩
    · rw [outer_finish, outer_countFailure]; rfl
    · have hc' : Calm (withFailures (oneMore 16 s.line.failures) u) := hc
      have hcount : countFailure u = withFailures (oneMore 16 s.line.failures) u :=
        countFailure_counts (s := u) h15
      rw [hcount, finish_calm hc', busyLimit_finish hc' nofun]
      exact ⟨rfl, rfl⟩

/-! ## Expired marks and the long wait (O58) -/

namespace Sys2Proof.Machine

/-! ### Stamps of rows and candidates -/

/-- The marks of the row of a number, the self row first (R46, R48). -/
def marksOf (a : Option PeerTable) (n : Nat) : Option RowMarks :=
  a.bind fun a =>
    if a.selfFixed.number = n then some a.selfMarks
    else (a.peers.find? fun r => r.fixed.number == n).map (·.marks)

theorem marks_rowOf (s : State) (n : Nat) : (rowOf s n).map (·.marks) = marksOf s.table n := by
  unfold rowOf allRows marksOf
  cases s.table with
  | none => rfl
  | some a =>
    simp only [List.find?_cons, Option.bind_some]
    by_cases h : a.selfFixed.number = n
    · simp [h, selfRow]
    · have hb : ((selfRow s a).fixed.number == n) = false := beq_eq_false_iff_ne.mpr h
      simp [hb, h]

/-- A change of one row's marks is seen in that row alone. -/
theorem marksOf_mapMarks (n m : Nat) (f : RowMarks → RowMarks) (a : Option PeerTable) :
    marksOf (a.map (mapMarks n f)) m = if m = n then (marksOf a m).map f else marksOf a m := by
  cases a with
  | none => simp [marksOf]
  | some a =>
    by_cases hs : a.selfFixed.number = n
    · have hm : mapMarks n f a = { a with selfMarks := f a.selfMarks } := if_pos hs
      simp only [Option.map_some, hm, marksOf, Option.bind_some, hs]
      by_cases hmn : m = n
      · simp [hmn]
      · simp [hmn, Ne.symm hmn]
    · have hm : mapMarks n f a = { a with peers := a.peers.map fun r =>
          if r.fixed.number = n then { r with marks := f r.marks } else r } := if_neg hs
      have hnum : ∀ r : Row, (if r.fixed.number = n then { r with marks := f r.marks } else r).fixed
          = r.fixed := fun r => by split <;> rfl
      simp only [Option.map_some, hm, marksOf, Option.bind_some, List.find?_map, Function.comp_def,
        hnum]
      by_cases hsm : a.selfFixed.number = m
      · have hmn : m ≠ n := fun e => hs (hsm.trans e)
        simp [hsm, hmn]
      · rw [if_neg hsm, if_neg hsm, Option.map_map]
        cases hf : a.peers.find? (fun r => r.fixed.number == m) with
        | none => simp
        | some r =>
          have hr : r.fixed.number = m := by simpa using List.find?_some hf
          by_cases hmn : m = n <;> simp [hr, hmn]

/-- The stamp of a row (R46). -/
theorem stampOf_lastHeard (s : State) (n : Nat) :
    stampOf s (.lastHeard n) = (marksOf s.table n).map (·.lastHeard) := by
  rw [← marks_rowOf, Option.map_map]; rfl

theorem stampOf_lastClaim (s : State) (n : Nat) :
    stampOf s (.lastClaim n) = (marksOf s.table n).map (·.lastClaim) := by
  rw [← marks_rowOf, Option.map_map]; rfl

/-- A change of candidates that keeps their numbers is seen in each candidate. -/
theorem candidate_map {f : Candidate → Candidate} (hf : ∀ c, (f c).number = c.number) (s : State)
    (n : Nat) :
    candidate (setCandidates (s.roll.candidates.map f) s) n = (candidate s n).map f := by
  unfold candidate
  rw [roll_setCandidates, List.find?_map]
  simp only [Function.comp_def, hf]

theorem number_of_candidate {s : State} {n : Nat} {c : Candidate} (h : candidate s n = some c) :
    c.number = n := by simpa using List.find?_some h

/-! ### Marking -/

/-- A mark is set once the stamp's age exceeds 100,000 units (R20). -/
theorem Stamp.mark_eq (now : Time) (st : Stamp) :
    st.mark now = if 100000 < (now - st.value).toNat then ⟨st.value, true⟩ else st := by
  obtain ⟨v, e⟩ := st
  unfold Stamp.mark Stamp.markDue Stamp.age expiryUnits
  cases e <;> simp

/-- The stamp named is marked where its mark is due (R20). -/
theorem stampOf_markStamp_same (s : State) (ref : StampRef) :
    stampOf (markStamp ref s) ref = (stampOf s ref).map (·.mark s.timeBase) := by
  cases ref with
  | candidate n =>
    have hc := candidate_map (f := fun c =>
      if c.number = n then { c with lastRoll := c.lastRoll.mark s.timeBase } else c)
      (fun c => by split <;> rfl) s n
    refine (congrArg (Option.map (·.lastRoll)) hc).trans ?_
    show _ = ((candidate s n).map (·.lastRoll)).map _
    cases h : candidate s n with
    | none => rfl
    | some c => simp [number_of_candidate h]
  | lastHeard n =>
    rw [stampOf_lastHeard, stampOf_lastHeard]
    refine (congrArg (Option.map (·.lastHeard)) (marksOf_mapMarks n n _ s.table)).trans ?_
    rw [if_pos rfl, Option.map_map, Option.map_map]; rfl
  | lastClaim n =>
    rw [stampOf_lastClaim, stampOf_lastClaim]
    refine (congrArg (Option.map (·.lastClaim)) (marksOf_mapMarks n n _ s.table)).trans ?_
    rw [if_pos rfl, Option.map_map, Option.map_map]; rfl
  | line => rfl
  | feeder => rfl
  | strokeEnd => rfl
  | wait => rfl
  | refusedOrder =>
    show (s.modeCtl.lastRefused.map _).map _ = (s.modeCtl.lastRefused.map _).map _
    rw [Option.map_map, Option.map_map]; rfl
  | stopRecord =>
    show (s.modeCtl.lastStop.map _).map _ = (s.modeCtl.lastStop.map _).map _
    rw [Option.map_map, Option.map_map]; rfl
  | firstRecord k =>
    show ((setFault k _ s).fault k).first.map _ = ((s.fault k).first.map _).map _
    rw [fault_setFault_same, Option.map_map, Option.map_map]; rfl

/-- No other stamp is marked (R20). -/
theorem stampOf_markStamp_other {s : State} {ref other : StampRef} (h : other ≠ ref) :
    stampOf (markStamp ref s) other = stampOf s other := by
  have marks : ∀ (n m : Nat) (b : Bool) (g : RowMarks → Stamp),
      (m = n → ∀ x, g (markRow s.timeBase b x) = g x) →
      (marksOf (s.table.map (mapMarks n (markRow s.timeBase b))) m).map g =
        (marksOf s.table m).map g := by
    intro n m b g hg
    rw [marksOf_mapMarks]
    split
    · rename_i e; rw [Option.map_map]; congr 1; funext x; exact hg e x
    · rfl
  cases ref with
  | candidate n =>
    cases other
    case candidate m =>
      have hc := candidate_map (f := fun c =>
        if c.number = n then { c with lastRoll := c.lastRoll.mark s.timeBase } else c)
        (fun c => by split <;> rfl) s m
      refine (congrArg (Option.map (·.lastRoll)) hc).trans ?_
      show _ = (candidate s m).map (·.lastRoll)
      cases hm : candidate s m with
      | none => rfl
      | some c =>
        have hne : c.number ≠ n := fun e =>
          h (by rw [← number_of_candidate hm, e])
        simp [hne]
    all_goals rfl
  | lastHeard n =>
    cases other
    case lastHeard m =>
      rw [stampOf_lastHeard, stampOf_lastHeard]
      exact marks n m false _ fun e => absurd (by rw [e]) h
    case lastClaim m =>
      rw [stampOf_lastClaim, stampOf_lastClaim]
      exact marks n m false _ fun _ _ => rfl
    all_goals rfl
  | lastClaim n =>
    cases other
    case lastHeard m =>
      rw [stampOf_lastHeard, stampOf_lastHeard]
      exact marks n m true _ fun _ _ => rfl
    case lastClaim m =>
      rw [stampOf_lastClaim, stampOf_lastClaim]
      exact marks n m true _ fun e => absurd (by rw [e]) h
    all_goals rfl
  | firstRecord k =>
    cases other
    case firstRecord j =>
      have hjk : j ≠ k := fun e => h (by rw [e])
      show ((setFault k _ s).fault j).first.map _ = (s.fault j).first.map _
      rw [fault_setFault_other hjk]
    case lastHeard m => rw [stampOf_lastHeard, stampOf_lastHeard]; rfl
    case lastClaim m => rw [stampOf_lastClaim, stampOf_lastClaim]; rfl
    all_goals rfl
  | line => cases other <;> first | rfl | exact absurd rfl h
  | feeder => cases other <;> first | rfl | exact absurd rfl h
  | strokeEnd => cases other <;> first | rfl | exact absurd rfl h
  | wait => cases other <;> first | rfl | exact absurd rfl h
  | refusedOrder => cases other <;> first | rfl | exact absurd rfl h
  | stopRecord => cases other <;> first | rfl | exact absurd rfl h

/-- Marking changes neither the mode nor the notice. -/
theorem mode_notice_markStamp (ref : StampRef) (s : State) :
    (markStamp ref s).mode = s.mode ∧ (markStamp ref s).notice = s.notice := by
  cases ref <;> exact ⟨rfl, rfl⟩

/-- A row's marks with its stamps blank. -/
def blankMarks (m : RowMarks) : RowMarks := { m with lastHeard := ⟨0, true⟩, lastClaim := ⟨0, true⟩ }

/-- A table with every row's stamps blank, as `State.unstamped` has it. -/
def blankTable (a : PeerTable) : PeerTable :=
  { a with
    selfMarks := blankMarks a.selfMarks
    peers := a.peers.map fun q => { q with marks := blankMarks q.marks } }

theorem unstamped_withTable (t : Option PeerTable) (s : State) :
    State.unstamped { s with table := t } = { s.unstamped with table := t.map blankTable } := rfl

/-- A fault record with its stamp blank. -/
def blankFault (f : FaultRec) : FaultRec :=
  { f with first := f.first.map fun o => { o with stamp := ⟨0, true⟩ } }

theorem unstamped_withFaults (fs : Vector FaultRec 16) (s : State) :
    State.unstamped { s with faults := fs } = { s.unstamped with faults := fs.map blankFault } := rfl

/-- A marked row is the row with its stamps blank. -/
theorem unstamped_marked (n : Nat) (b : Bool) (s : State) :
    State.unstamped { s with table := s.table.map (mapMarks n (markRow s.timeBase b)) } =
      s.unstamped := by
  have hrow : ∀ m : RowMarks, ({ (markRow s.timeBase b m) with
      lastHeard := ⟨0, true⟩, lastClaim := ⟨0, true⟩ } : RowMarks) =
      { m with lastHeard := ⟨0, true⟩, lastClaim := ⟨0, true⟩ } := by
    intro m; unfold markRow; split <;> rfl
  have htable : ∀ a, blankTable (mapMarks n (markRow s.timeBase b) a) = blankTable a := by
    intro a
    unfold mapMarks blankTable blankMarks
    split
    · simp only [hrow]
    · refine congrArg (fun ps => ({ a with peers := ps, selfMarks := _ } : PeerTable)) ?_
      rw [List.map_map]
      refine List.map_congr_left fun q _ => ?_
      simp only [Function.comp_def]
      split
      · simp only [hrow]
      · rfl
  rw [unstamped_withTable, Option.map_map]
  exact congrArg (fun g => { s.unstamped with table := s.table.map g }) (funext htable)

/-- Marking changes the stamp named alone: with the stamps blank nothing is changed. -/
theorem unstamped_markStamp (ref : StampRef) (s : State) :
    (markStamp ref s).unstamped = s.unstamped := by
  cases ref with
  | candidate n =>
    have hmap : ∀ cs : List Candidate,
        (cs.map fun c =>
          if c.number = n then { c with lastRoll := c.lastRoll.mark s.timeBase } else c).map
            (fun c => { c with lastRoll := ⟨0, true⟩ }) =
          cs.map fun c => { c with lastRoll := ⟨0, true⟩ } := by
      intro cs
      rw [List.map_map]
      refine List.map_congr_left fun c _ => ?_
      show ({ (if _ then _ else _ : Candidate) with lastRoll := _ } : Candidate) = _
      split <;> rfl
    unfold markStamp setCandidates State.unstamped
    simp only [hmap]
  | lastHeard n => exact unstamped_marked n false s
  | lastClaim n => exact unstamped_marked n true s
  | refusedOrder =>
    unfold markStamp State.unstamped
    simp only [Option.map_map, Function.comp_def]
  | stopRecord =>
    unfold markStamp State.unstamped
    simp only [Option.map_map, Function.comp_def]
  | firstRecord k =>
    refine (unstamped_withFaults _ s).trans
      (congrArg (fun fs => { s.unstamped with faults := fs }) (Vector.ext fun i hi => ?_))
    simp only [Vector.getElem_map, Vector.getElem_set]
    split
    · rename_i e
      subst e
      simp only [blankFault, State.fault, Option.map_map, Function.comp_def]
      rfl
    · rfl
  | line => rfl
  | feeder => rfl
  | strokeEnd => rfl
  | wait => rfl

/-- What the two views hold decides every stamp. -/
theorem stampOf_of_views {s t : State} (ho : t.outer = s.outer) (hi : t.inner = s.inner)
    (ref : StampRef) : stampOf t ref = stampOf s ref := by
  have htable : t.table = s.table := congrArg Outer.table ho
  cases ref with
  | candidate n =>
    have : t.roll = s.roll := congrArg Outer.roll ho
    simp only [stampOf, candidate, this]
  | lastHeard n => rw [stampOf_lastHeard, stampOf_lastHeard, htable]
  | lastClaim n => rw [stampOf_lastClaim, stampOf_lastClaim, htable]
  | line => exact congrArg (fun o : Outer => some o.lineStamp) ho
  | feeder => exact congrArg (fun o : Outer => some o.feederStamp) ho
  | strokeEnd => exact congrArg (fun i : Inner => some i.engine.lastEnd) hi
  | wait => exact congrArg (fun i : Inner => some i.waitStamp) hi
  | refusedOrder => exact congrArg (fun o : Outer => o.lastRefused.map (·.stamp)) ho
  | stopRecord => exact congrArg (fun i : Inner => i.lastStop.map (·.stamp)) hi
  | firstRecord k => exact congrArg (fun i : Inner => (i.faults k).2.2.2.1.map (·.stamp)) hi

/-- The outer part with its stamps blank. -/
def blankOuter (o : Outer) : Outer :=
  { o with
    roll := { o.roll with candidates := o.roll.candidates.map fun c =>
      { c with lastRoll := ⟨0, true⟩ } }
    table := o.table.map blankTable
    lineStamp := ⟨0, true⟩
    feederStamp := ⟨0, true⟩
    lastRefused := o.lastRefused.map fun r => { r with stamp := ⟨0, true⟩ } }

/-- The inner part with its stamps blank. -/
def blankInner (i : Inner) : Inner :=
  { i with
    engine := { i.engine with lastEnd := ⟨0, true⟩ }
    waitStamp := ⟨0, true⟩
    lastStop := i.lastStop.map fun r => { r with stamp := ⟨0, true⟩ }
    faults := fun k =>
      let (latched, active, count, first, snapshot) := i.faults k
      (latched, active, count, first.map fun r => { r with stamp := ⟨0, true⟩ }, snapshot) }

theorem outer_unstamped (s : State) : s.unstamped.outer = blankOuter s.outer := rfl

theorem inner_unstamped (s : State) : s.unstamped.inner = blankInner s.inner := by
  have hf : ∀ k, s.unstamped.fault k =
      blankFault (s.fault k) := fun k => Vector.getElem_map ..
  unfold State.inner blankInner
  congr 1
  funext k
  simp only [State.latched, State.active, hf, blankFault]

/-! ### The long wait (R191) -/

/-- The amber lamp of a long wait in MOVING (R191). -/
theorem shown_finish_waiting {s : State} (hn : s.notice = false) (hw : s.lamps.waitingLong = true) :
    (finish s).lamps.waitingLong = true ∧
      (s.mode = .moving → (finish s).lamps.shown = .amberSteady) := by
  rw [finish_still hn]
  unfold armBusy
  split <;> exact ⟨hw, fun hm => by
    simp only [refreshLamps, indicationOf, clearNotice, State.mode] at hm ⊢; simp [hm, hw]⟩

theorem waitsLong_iff (s : State) :
    waitsLong s = true ↔ s.ceiling.reason ≠ .none ∧
      (s.lamps.waitStamp.expired = true ∨
        20000 ≤ (s.timeBase - s.lamps.waitStamp.value).toNat) := by
  simp only [waitsLong, Stamp.atLeast, Bool.and_eq_true, Bool.or_eq_true, bne_iff_ne,
    decide_eq_true_eq]
  rfl

end Sys2Proof.Machine

open Sys2Proof Sys2Proof.Machine in
/-- Settles O58, by the stamp's own mark and what the two views hold. -/
theorem stampsAndWaits : Obligations.StampsAndWaits := by
  unfold Obligations.StampsAndWaits
  constructor
  · intro s ref hc
    obtain ⟨hm, hn⟩ := mode_notice_markStamp ref s
    have ho := outer_finish (markStamp ref s)
    have hi := finish_calm (calm_of_eq hm hn hc)
    have same := stampOf_of_views ho hi
    have blank := unstamped_markStamp ref s
    refine ⟨_, rfl, fun st hst => ?_, fun other h => ?_, ?_, ?_⟩
    · rw [same, stampOf_markStamp_same, hst, Option.map_some, Stamp.mark_eq]
    · rw [same, stampOf_markStamp_other h]
    · rw [outer_unstamped, ho, ← outer_unstamped, blank]
    · rw [inner_unstamped, hi, ← inner_unstamped, blank]
  · intro s hn hr hw
    have hexec : exec .waitingLong s =
        .next (finish { s with lamps := { s.lamps with waitingLong := true } }) :=
      if_pos ((waitsLong_iff s).mpr ⟨hr, hw⟩)
    have hn' : ({ s with lamps := { s.lamps with waitingLong := true } } : State).notice = false := hn
    obtain ⟨hsp, hce, hlo, hfa⟩ := finish_still_blocks hn'
    obtain ⟨hwait, hshown⟩ := shown_finish_waiting hn' rfl
    exact ⟨_, hexec, outer_finish _, finish_calm (.inr hn'), hce, hsp, hlo, hfa, hwait, hshown⟩

/-! ## A start (O9, O10)

An occurrence in ROLLCALL moves nothing: it writes its record, the HALT slot and the model's notice. So the state
after the occurrences found at a start is the state found but for these. -/

namespace Sys2Proof.Machine

/-! ### Occurrences in ROLLCALL (R22, R124, R141, R155, R179) -/

/-- Two states that differ in the fault record, the HALT slot and the model's notice at most. -/
def FaultsOnly (s t : State) : Prop :=
  ∃ faults slot notice, t =
    { s with faults := faults, line := { s.line with haltSlot := slot }, notice := notice }

theorem FaultsOnly.refl (s : State) : FaultsOnly s s := ⟨_, _, _, rfl⟩

theorem FaultsOnly.trans {s t u : State} (h₁ : FaultsOnly s t) (h₂ : FaultsOnly t u) :
    FaultsOnly s u := by
  obtain ⟨_, _, _, rfl⟩ := h₁
  obtain ⟨_, _, _, rfl⟩ := h₂
  exact ⟨_, _, _, rfl⟩

theorem FaultsOnly.mode {s t : State} (h : FaultsOnly s t) : t.mode = s.mode := by
  obtain ⟨_, _, _, rfl⟩ := h; rfl

theorem FaultsOnly.own {s t : State} (h : FaultsOnly s t) : t.own = s.own := by
  obtain ⟨_, _, _, rfl⟩ := h; rfl

theorem faultsOnly_setActive (k : FaultKind) (on : Bool) (s : State) :
    FaultsOnly s (setActive k on s) := ⟨_, s.line.haltSlot, s.notice, rfl⟩

/-- A latch in ROLLCALL requests no POSE (R12, R181). -/
theorem faultsOnly_latchAt (p : Place) (n : Option Nat) (k : FaultKind) {s : State}
    (hm : s.mode = .rollcall) : FaultsOnly s (latchAt p n k s) := by
  have hpose : ∀ t : State, t.mode = .rollcall → requestPose t = t := fun _ h => if_pos h
  unfold latchAt
  simp only []
  split
  · exact ⟨_, s.line.haltSlot, s.notice, rfl⟩
  · rw [hpose (notify (setFault k _ s)) hm]
    exact ⟨_, s.line.haltSlot, true, rfl⟩

theorem faultsOnly_placeHalt (k : FaultKind) (s : State) : FaultsOnly s (placeHalt k s) := by
  unfold placeHalt
  split
  · exact .refl s
  · split
    · exact .refl s
    · exact ⟨s.faults, _, s.notice, rfl⟩

/-- An occurrence in ROLLCALL leaves the mode: its class fills the HALT slot at most (R167, R177). -/
theorem faultsOnly_reportAt (p : Place) (k : FaultKind) (n : Option Nat) {s : State}
    (hm : s.mode = .rollcall) : FaultsOnly s (reportAt p k n s) := by
  have hl := faultsOnly_latchAt p n k hm
  refine hl.trans ?_
  have hm' : (latchAt p n k s).mode = .rollcall := hl.mode.trans hm
  unfold reportAt
  by_cases hk : haltClass k = true
  · rw [modeOnFault_halt hk, if_pos (.inl hm')]
    exact faultsOnly_placeHalt k _
  · have : modeOnFault k (latchAt p n k s) = latchAt p n k s := by
      simp [modeOnFault, hk, hm']
    rw [this]
    exact .refl _

theorem faultsOnly_report (k : FaultKind) (n : Option Nat) {s : State} (hm : s.mode = .rollcall) :
    FaultsOnly s (report k n s) := faultsOnly_reportAt _ k n hm

/-- The occurrences before the test of the station number. -/
def testsBeforeStrap (x : Int) (s : State) : State :=
  startLoadTest (startEmergencyTest (startPawlTest (startEncoderTest x s)))

theorem faultsOnly_startEncoderTest (x : Int) {s : State} (hm : s.mode = .rollcall) :
    FaultsOnly s (startEncoderTest x s) := by
  unfold startEncoderTest
  split
  · exact faultsOnly_reportAt _ _ _ hm
  · exact .refl s

theorem faultsOnly_startPawlTest {s : State} (hm : s.mode = .rollcall) :
    FaultsOnly s (startPawlTest s) := by
  unfold startPawlTest
  split
  · exact faultsOnly_report _ _ hm
  · exact .refl s

theorem faultsOnly_startEmergencyTest {s : State} (hm : s.mode = .rollcall) :
    FaultsOnly s (startEmergencyTest s) := by
  unfold startEmergencyTest
  split
  · exact .refl s
  · exact (faultsOnly_setActive _ _ s).trans (faultsOnly_report _ _ hm)

theorem faultsOnly_startLoadTest {s : State} (hm : s.mode = .rollcall) :
    FaultsOnly s (startLoadTest s) := by
  unfold startLoadTest
  split
  · exact (faultsOnly_setActive _ _ s).trans (faultsOnly_report _ _ hm)
  · exact .refl s

theorem faultsOnly_testsBeforeStrap (x : Int) {s : State} (hm : s.mode = .rollcall) :
    FaultsOnly s (testsBeforeStrap x s) := by
  have h₁ := faultsOnly_startEncoderTest x hm
  have h₂ := h₁.trans (faultsOnly_startPawlTest (h₁.mode.trans hm))
  have h₃ := h₂.trans (faultsOnly_startEmergencyTest (h₂.mode.trans hm))
  exact h₃.trans (faultsOnly_startLoadTest (h₃.mode.trans hm))

theorem faultsOnly_startStrapTest {s : State} (hm : s.mode = .rollcall) :
    FaultsOnly s (startStrapTest s) := by
  unfold startStrapTest
  split
  · exact faultsOnly_report _ _ hm
  · exact .refl s

theorem faultsOnly_startTests (x : Int) {s : State} (hm : s.mode = .rollcall) :
    FaultsOnly s (startTests x s) :=
  have h := faultsOnly_testsBeforeStrap x hm
  h.trans (faultsOnly_startStrapTest (h.mode.trans hm))

/-! ### The roll window (R29) -/

theorem armed_zero (n : Nat) : armed 0 n = some (BitVec.ofNat 32 n) :=
  congrArg some (BitVec.zero_add _)

theorem number_usedStraps (t : Straps) : (usedStraps t).number = t.number := by
  unfold usedStraps; split <;> rfl

theorem own_startState (i : StartInputs) (s : State) :
    (startState i s).own = i.straps.number.val :=
  congrArg Fin.val (number_usedStraps i.straps)

/-- The station's own candidate at a start (R29). -/
theorem ownCandidate_startState (i : StartInputs) (s : State) :
    ownCandidate (startState i s) =
      { number := i.straps.number.val, serial := s.serial, car := i.straps.car.val,
        feeder := i.straps.feeder.val,
        share := if i.straps.share = 0 then 1 else i.straps.share.val,
        mode := .rollcall,
        summary := (startState i s).retained.content.staged.map fun r =>
          (r.stage, planTag (startState i s).retained.content.plan),
        lastRoll := ⟨0, true⟩ } := by
  show Candidate.mk (usedStraps i.straps).number.val _ (usedStraps i.straps).car.val
    (usedStraps i.straps).feeder.val (usedStraps i.straps).share.val _ _ _ = _
  unfold usedStraps
  split <;> rfl

/-- A pacing expiry marks the ROLL slot, or leaves the mark after the ROLL being sent (R12). -/
theorem requestRoll_eq (s : State) :
    requestRoll s = { s with line := { s.line with
      rollPending := s.line.rollPending || !sendingKind s kindRoll
      rollAgain := s.line.rollAgain || sendingKind s kindRoll } } := by
  unfold requestRoll
  cases sendingKind s kindRoll <;> simp

/-- The roll unit as a start with a valid strap leaves it (R29). -/
def openedRoll (s : State) : Roll :=
  { candidates := [ownCandidate s], members := [], answerOwed := false
    quiet := armed 0 (10 * s.cfg.rq)
    limit := armed 0 (10 * s.cfg.rmax)
    pacing := some 2500 }

/-- What opening the window gives after the occurrences found at a start. -/
theorem openWindow_started {i : StartInputs} {s u : State} (h : FaultsOnly (startState i s) u) :
    (openWindow u).outer = { (startState i s).outer with
      roll := openedRoll (startState i s), rollPending := true } ∧
    (openWindow u).mode = .rollcall ∧ (openWindow u).retained = (startState i s).retained ∧
    (openWindow u).line.claim = .empty ∧ (openWindow u).line.posePending = false := by
  obtain ⟨_, _, _, rfl⟩ := h
  exact ⟨rfl, rfl, rfl, rfl, rfl⟩

end Sys2Proof.Machine

open Sys2Proof Sys2Proof.Machine in
/-- Settles O9: the occurrences found at a start write faults alone, and ROLLCALL settles nothing. -/
theorem rollWindowOpens : Obligations.RollWindowOpens := by
  unfold Obligations.RollWindowOpens
  constructor
  · intro i s hi
    have htests := faultsOnly_startTests i.encoder (s := startState i s) rfl
    generalize hu : startTests i.encoder (startState i s) = u at htests
    have hown : ¬ 48 ≤ u.own := by
      rw [htests.own, own_startState]; exact Nat.not_le.mpr hi
    have hexec : exec (.start i) s = .next (finish (openWindow u)) :=
      hu ▸ congrArg (fun x => Host.Outcome.next (finish x)) (if_neg (hu ▸ hown))
    obtain ⟨hou, hmode, hretu, hclaim, hpose⟩ := openWindow_started htests
    have hin := finish_quiet (s := openWindow u) ⟨by simp [hmode], by simp [hmode]⟩
    have hout := (outer_finish (openWindow u)).trans hou
    have hret : (finish (openWindow u)).retained = (startState i s).retained :=
      (congrArg Inner.retained hin).trans hretu
    have hset : (finish (openWindow u)).settings = (startState i s).settings :=
      congrArg Outer.settings hout
    have hroll : (finish (openWindow u)).roll = openedRoll (startState i s) :=
      congrArg Outer.roll hout
    refine ⟨_, hexec, (congrArg Inner.mode hin).trans hmode, congrArg Outer.timeBase hout,
      congrArg Outer.table hout, ?_, congrArg Outer.rollPending hout, congrArg Outer.attempt hout,
      (congrArg Inner.claim hin).trans hclaim, congrArg Outer.orderQueue hout,
      (congrArg Inner.posePending hin).trans hpose, congrArg Outer.planQueue hout,
      congrArg Outer.pending hout⟩
    rw [hroll, hret, State.cfg, hset, openedRoll, ownCandidate_startState, armed_zero, armed_zero]
    rfl
  · intro s hm hd
    have hexec : exec .rollPacingExpiry s = .next (finish (armPacing (requestRoll
        { s with roll := { s.roll with pacing := none } }))) :=
      (if_pos hd).trans (congrArg (fun x => Host.Outcome.next (finish x)) (if_pos hm))
    rw [requestRoll_eq] at hexec
    refine ⟨_, hexec, ?_, outer_finish _⟩
    exact finish_quiet (s := armPacing _) (by
      have : s.modeCtl.mode = .rollcall := hm
      exact ⟨by simp [armPacing, State.mode, this], by simp [armPacing, State.mode, this]⟩)

namespace Sys2Proof.Machine

/-! ### Entry to BARRED at a start (R22, R34) -/

/-- No occurrence before the strap's test is of CONFIG_MISMATCH. -/
theorem fault_testsBeforeStrap (x : Int) (s : State) :
    (testsBeforeStrap x s).fault .configMismatch = s.fault .configMismatch := by
  have hload : ∀ t, (startLoadTest t).fault .configMismatch = t.fault .configMismatch := by
    intro t
    unfold startLoadTest
    split
    · rw [fault_report, if_neg nofun, fault_setActive, if_neg nofun]
    · rfl
  have hemergency : ∀ t, (startEmergencyTest t).fault .configMismatch = t.fault .configMismatch := by
    intro t
    unfold startEmergencyTest emergencyOpens
    split
    · rfl
    · rw [fault_report, if_neg nofun, fault_setActive, if_neg nofun]
  have hpawl : ∀ t, (startPawlTest t).fault .configMismatch = t.fault .configMismatch := by
    intro t
    unfold startPawlTest
    split
    · rw [fault_report, if_neg nofun]
    · rfl
  have hencoder : (startEncoderTest x s).fault .configMismatch = s.fault .configMismatch := by
    unfold startEncoderTest
    split
    · rw [fault_reportAt, if_neg nofun]
    · rfl
  exact (hload _).trans ((hemergency _).trans ((hpawl _).trans hencoder))

/-- A station at a start stands nowhere but at its travel: no stage is STAGED yet (R42). -/
theorem placeNow_startState (i : StartInputs) (s : State) :
    placeNow (startState i s) = .travel (startState i s).engine.travel := by
  rw [placeNow_eq]
  unfold columnPlace startState
  simp only []
  cases (startRetained s.retained).content.staged <;> rfl

/-- The record of CONFIG_MISMATCH that an invalid strap leaves at a start (R22, R181). -/
theorem fault_startTests_invalid {i : StartInputs} (s : State) (h : 48 ≤ i.straps.number.val) :
    (startTests i.encoder (startState i s)).fault .configMismatch =
      ⟨true, false, 1, some ⟨⟨0, false⟩, .travel (startState i s).engine.travel,
        some i.straps.number.val⟩, 0⟩ := by
  have hv := faultsOnly_testsBeforeStrap i.encoder (s := startState i s) rfl
  have hf := fault_testsBeforeStrap i.encoder (startState i s)
  show (startStrapTest (testsBeforeStrap i.encoder (startState i s))).fault _ = _
  generalize testsBeforeStrap i.encoder (startState i s) = v at hv hf
  have hown : v.own = i.straps.number.val := hv.own.trans (own_startState i s)
  have hplace : placeNow v = .travel (startState i s).engine.travel := by
    rw [← placeNow_startState]; obtain ⟨_, _, _, rfl⟩ := hv; rfl
  have htime : v.timeBase = 0 := by obtain ⟨_, _, _, rfl⟩ := hv; rfl
  unfold startStrapTest
  rw [hown, if_pos h, fault_report, if_pos rfl, hplace, htime, hf]
  rfl

/-- A set command to a pawl that is at SET, on its way there or STUCK moves the pawl's own block alone (R144). -/
theorem pawlSet_eq {s : State} (h₁ : s.pawl.state ≠ .withdrawing) (h₂ : s.pawl.state ≠ .withdrawn) :
    ∃ pawl, pawlSet s = { s with pawl := pawl } := by
  unfold pawlSet
  simp only []
  split
  · exact ⟨_, rfl⟩
  · exact ⟨_, rfl⟩
  · exact absurd (by assumption) h₁
  · exact absurd (by assumption) h₂
  · exact ⟨_, rfl⟩

/-- A pawl at a start is SET, SETTING or STUCK (R141). -/
theorem startPawlState_ne (setClosed withdrawnClosed : Bool) :
    startPawlState setClosed withdrawnClosed ≠ .withdrawing ∧
      startPawlState setClosed withdrawnClosed ≠ .withdrawn := by
  cases setClosed <;> cases withdrawnClosed <;> exact ⟨nofun, nofun⟩

/-- What the entry to BARRED gives after the occurrences found at a start (R34). -/
theorem enterBarred_started {i : StartInputs} {s u : State} (h : FaultsOnly (startState i s) u) :
    (enterBarred u).outer = { (startState i s).outer with
      posePeriod := armed 0 (10 * (startState i s).cfg.p) } ∧
    (enterBarred u).mode = .barred ∧ (enterBarred u).stage = ⟨.unstaged, .none, false⟩ ∧
    (enterBarred u).retained = (startState i s).retained ∧
    (enterBarred u).line.posePending = true ∧ (enterBarred u).faults = u.faults := by
  obtain ⟨_, _, _, rfl⟩ := h
  obtain ⟨h₁, h₂⟩ := startPawlState_ne i.setClosed i.withdrawnClosed
  unfold enterBarred
  simp only []
  generalize hv : ceilingIdle _ = v
  obtain ⟨pawl, hp⟩ := pawlSet_eq (s := v) (by subst hv; exact h₁) (by subst hv; exact h₂)
  refine ⟨?_, ?_⟩
  · rw [outer_pawlSet, ← hv]; rfl
  · rw [hp, ← hv]; exact ⟨rfl, rfl, rfl, rfl, rfl⟩

end Sys2Proof.Machine

open Sys2Proof Sys2Proof.Machine in
/-- Settles O10: the strap's test comes last, and the entry to BARRED finds the state of the start. -/
theorem startInvalidStrap : Obligations.StartInvalidStrap := by
  unfold Obligations.StartInvalidStrap
  intro i s hi
  have htests := faultsOnly_startTests i.encoder (s := startState i s) rfl
  have hfault := fault_startTests_invalid s hi
  generalize hu : startTests i.encoder (startState i s) = u at htests hfault
  have hown : 48 ≤ u.own := by rw [htests.own, own_startState]; exact hi
  have hexec : exec (.start i) s = .next (finish (enterBarred u)) :=
    hu ▸ congrArg (fun x => Host.Outcome.next (finish x)) (if_pos (hu ▸ hown))
  obtain ⟨hou, hmode, hstage, hretu, hpose, hfaults⟩ := enterBarred_started htests
  have hin := finish_quiet (s := enterBarred u) ⟨by simp [hmode], by simp [hmode]⟩
  have hout := (outer_finish (enterBarred u)).trans hou
  have hret : (finish (enterBarred u)).retained = (startState i s).retained :=
    (congrArg Inner.retained hin).trans hretu
  have hrec : (finish (enterBarred u)).fault .configMismatch = u.fault .configMismatch := by
    rw [fault_finish (k := .configMismatch) nofun nofun, State.fault, hfaults]; rfl
  have htravel : (finish (enterBarred u)).engine.travel = (startState i s).engine.travel :=
    congrArg Outer.travel hout
  have hset : (finish (enterBarred u)).settings = (startState i s).settings :=
    congrArg Outer.settings hout
  refine ⟨_, hexec, (congrArg Inner.mode hin).trans hmode, ?_, congrArg Outer.roll hout,
    congrArg Outer.table hout, (congrArg Inner.stage hin).trans hstage, ?_,
    congrArg (·.record) hret, congrArg (·.marker) hret, congrArg (·.writing) hret,
    (congrArg Inner.posePending hin).trans hpose, congrArg Outer.rollPending hout, ?_⟩
  · exact (congrArg (fun o : Outer => o.straps.number.val) hout).trans (own_startState i s)
  · rw [hrec, hfault, htravel]
  · rw [State.cfg, hset, ← armed_zero]; exact congrArg Outer.posePeriod hout

/-! ## Rows, signs of life and ROLL after freeze (O25) -/

namespace Sys2Proof.Machine

/-! ### Contents of ROLL and POSE frames (R5, R16) -/

theorem contentOf_roll {f : RxFrame} {m : RollMsg} (hp : f.prec = 0)
    (hm : readRoll f.payload = some m) : contentOf (wire kindRoll f) = some (.roll m) := by
  simp [contentOf, wire, hp, hm, kindRoll, kindClaim, kindHalt, kindOrder, kindPose, kindPlan]

theorem contentOf_pose {f : RxFrame} {m : PoseMsg} (hp : f.prec = 0)
    (hm : readPose f.payload = some m) : contentOf (wire kindPose f) = some (.pose m) := by
  simp [contentOf, wire, hp, hm, kindClaim, kindHalt, kindOrder, kindPose]

/-! ### Peers' rows (R46, R48) -/

theorem peerOf_of_table {s t : State} (h : t.table = s.table) (n : Nat) : peerOf t n = peerOf s n := by
  unfold peerOf peerRows; rw [h]

/-- Rows of other numbers are not the self row's: under the table's own number, a number that is not the station's
finds a peer or nothing (R48). -/
theorem rowOf_eq_peerOf {s : State} (ht : TableOwn s) {n : Nat} (hn : n ≠ s.own) :
    rowOf s n = peerOf s n := by
  unfold rowOf peerOf allRows peerRows
  cases h : s.table with
  | none => rfl
  | some a =>
    have : (a.selfFixed.number == n) = false :=
      beq_eq_false_iff_ne.mpr fun e => hn (e.symm.trans (ht a h).1)
    simp [selfRow, this]

/-- A change of one number's rows, as a lookup among the rows sees it. -/
theorem find_map_rows {g : Row → Row} (hg : ∀ r, (g r).fixed = r.fixed) (n j : Nat) (rs : List Row) :
    (rs.map fun r => if r.fixed.number = n then g r else r).find? (fun r => r.fixed.number == j) =
      (rs.find? fun r => r.fixed.number == j).map fun r => if j = n then g r else r := by
  have hnum : ∀ r : Row, (if r.fixed.number = n then g r else r).fixed = r.fixed := fun r => by
    split <;> simp [hg]
  rw [List.find?_map]
  simp only [Function.comp_def, hnum]
  cases hf : rs.find? (fun r => r.fixed.number == j) with
  | none => rfl
  | some r =>
    have hr : r.fixed.number = j := by simpa using List.find?_some hf
    simp [hr]

/-- A change of a peer's reported fields is seen in that peer's row alone. -/
theorem peerOf_mapReport (n j : Nat) (f : Report → Report) (s : State) :
    peerOf (onTable (mapReport n f) s) j =
      (peerOf s j).map fun r => if j = n then { r with report := f r.report } else r := by
  unfold peerOf peerRows
  rw [table_onTable]
  cases s.table with
  | none => rfl
  | some a => exact find_map_rows (g := fun r => { r with report := f r.report }) (fun _ => rfl) n j _

/-- A change of a number's marks is seen in that peer's row, or in no peer's when the number is the station's own. -/
theorem peerOf_mapMarks {s : State} (ht : TableOwn s) (n j : Nat) (f : RowMarks → RowMarks) :
    peerOf (onTable (mapMarks n f) s) j =
      (peerOf s j).map fun r => if j = n then { r with marks := f r.marks } else r := by
  unfold peerOf peerRows
  rw [table_onTable]
  cases h : s.table with
  | none => rfl
  | some a =>
    obtain ⟨hself, hpeers⟩ := ht a h
    by_cases hn : a.selfFixed.number = n
    · have hm : mapMarks n f a = { a with selfMarks := f a.selfMarks } := if_pos hn
      rw [Option.map_some, hm]
      show a.peers.find? _ = (a.peers.find? _).map _
      cases hf : a.peers.find? (fun r => r.fixed.number == j) with
      | none => rfl
      | some r =>
        have hr : r.fixed.number = j := by simpa using List.find?_some hf
        have hjn : j ≠ n := by
          rw [← hr, ← hn, hself]; exact hpeers r (List.mem_of_find?_eq_some hf)
        simp [hjn]
    · have hm : mapMarks n f a = { a with peers := a.peers.map fun r =>
          if r.fixed.number = n then { r with marks := f r.marks } else r } := if_neg hn
      rw [Option.map_some, hm]
      exact find_map_rows (g := fun r => { r with marks := f r.marks }) (fun _ => rfl) n j _

/-! ### Signs of life (R49, R56) -/

/-- A row's marks after a sign of life (R49). -/
def heardMarks (s : State) (m : RowMarks) : RowMarks :=
  { live := .live, lastHeard := ⟨s.timeBase, false⟩, lastClaim := m.lastClaim,
    silence := some (s.timeBase + BitVec.ofNat 32 (s.cfg.s * s.cfg.p * 10)) }

/-- A sign of life writes the row's marks, and ends PEER_SILENT where no row is LOST any more (R49, R56). -/
theorem signOfLife_cases (n : Nat) (s : State) :
    signOfLife n s = onTable (mapMarks n (heardMarks s)) s ∨
      signOfLife n s = setActive .peerSilent false (onTable (mapMarks n (heardMarks s)) s) := by
  unfold signOfLife
  simp only []
  split
  · exact .inr rfl
  · exact .inl rfl

theorem table_signOfLife (n : Nat) (s : State) :
    (signOfLife n s).table = s.table.map (mapMarks n (heardMarks s)) := by
  rcases signOfLife_cases n s with h | h <;> rw [h] <;> rfl

theorem outer_signOfLife (n : Nat) (s : State) :
    (signOfLife n s).outer = { s.outer with table := (signOfLife n s).table } := by
  rw [table_signOfLife]
  rcases signOfLife_cases n s with h | h <;> rw [h] <;> rfl

theorem columnPlace_signOfLife (n : Nat) (s : State) :
    columnPlace (signOfLife n s) = columnPlace s := by
  rcases signOfLife_cases n s with h | h <;> rw [h] <;> rfl

theorem fault_signOfLife {k : FaultKind} (hk : k ≠ .peerSilent) (n : Nat) (s : State) :
    (signOfLife n s).fault k = s.fault k := by
  rcases signOfLife_cases n s with h | h <;> rw [h]
  · rfl
  · rw [fault_setActive, if_neg hk]; rfl

/-- A sign of life is seen in the sender's row alone (R49). -/
theorem peerOf_signOfLife {s : State} (ht : TableOwn s) (n j : Nat) :
    peerOf (signOfLife n s) j = (peerOf s j).map fun r => if j = n then heardAt s r else r :=
  (peerOf_of_table (table_signOfLife n s) j).trans (peerOf_mapMarks ht n j (heardMarks s))

/-! ### ROLL after freeze (R38, R39, R52, R53) -/

/-- What a member's ROLL of a mode shows of its sender (R52, R53). -/
def rollReport (mode : RollMode) (r : Report) : Report :=
  match mode with
  | .frozen => r
  | m =>
    { r with mode := if m = .barred then .barred else .rollcall
             lift := none, committedEnd := none, stage := none, flight := .none
             faults := r.faults ||| 256#16 }

/-- The report of a member's ROLL is seen in the sender's row alone, and FROZEN shows nothing new (R52). -/
theorem peerOf_rollToRow (n j : Nat) (mode : RollMode) (s : State) :
    peerOf (rollToRow n mode s) j = (peerOf s j).map fun r =>
      if j = n then { r with report := rollReport mode r.report } else r := by
  cases mode with
  | frozen =>
    show peerOf s j = (peerOf s j).map fun r => if j = n then r else r
    simp
  | rollcall => exact peerOf_mapReport n j _ s
  | barred => exact peerOf_mapReport n j _ s

theorem outer_rollToRow (n : Nat) (mode : RollMode) (s : State) :
    (rollToRow n mode s).outer = { s.outer with table := (rollToRow n mode s).table } := by
  cases mode <;> rfl

/-- A member's ROLL writes the table alone, but for the answer. -/
theorem outer_rollHeard (n : Nat) (mode : RollMode) (s : State) :
    (rollToRow n mode (signOfLife n s)).outer =
      { s.outer with table := (rollToRow n mode (signOfLife n s)).table } := by
  rw [outer_rollToRow, outer_signOfLife]

theorem peerOf_rollHeard {s : State} (ht : TableOwn s) (n j : Nat) (mode : RollMode) :
    peerOf (rollToRow n mode (signOfLife n s)) j = (peerOf s j).map fun r =>
      if j = n then { heardAt s r with report := rollReport mode r.report } else r := by
  rw [peerOf_rollToRow, peerOf_signOfLife ht, Option.map_map]
  congr 1
  funext r
  simp only [Function.comp_def]
  split <;> rfl

/-- A lookup that sees a change of one number's row alone. -/
theorem lookup_changed {o : Nat → Option Row} {p : Nat → Option Row} {n : Nat} {g : Row → Row}
    (h : ∀ j, o j = (p j).map fun r => if j = n then g r else r) :
    (∀ j, j ≠ n → o j = p j) ∧ ∀ r, p n = some r → o n = some (g r) := by
  refine ⟨fun j hj => ?_, fun r hr => ?_⟩
  · rw [h]; simp [hj]
  · rw [h, hr]; simp

/-- An answerable ROLL is answered at once while the pacing compare is disarmed, else owed (R38). -/
theorem outer_answerRoll (s : State) :
    (answerRoll s).outer =
      if s.roll.pacing.isSome then { s.outer with roll := { s.roll with answerOwed := true } }
      else { s.outer with
        roll := { s.roll with pacing := some (s.timeBase + 2500) }
        rollPending := s.line.rollPending || !sendingKind s kindRoll
        rollAgain := s.line.rollAgain || sendingKind s kindRoll } := by
  unfold answerRoll
  cases s.roll.pacing with
  | none => rw [requestRoll_eq]; rfl
  | some _ => rfl

/-- After freeze a ROLL goes to the sender's row, or is a stranger's (R17). -/
theorem takeRoll_frozen {s : State} (h₁ : s.mode ≠ .rollcall) (h₂ : s.mode ≠ .barred) (n : Nat)
    (m : RollMsg) :
    takeRoll n m s = (rowOf s n).elim (report .stranger (some n) s) fun r => rollFromMember n m r s := by
  unfold takeRoll
  cases hm : s.mode <;> first | exact absurd hm h₁ | exact absurd hm h₂ | (cases rowOf s n <;> rfl)

theorem rollFromMember_right {n : Nat} {m : RollMsg} {r : Row} {s : State}
    (hser : r.fixed.serial = m.serial) (hn : n ≠ s.own) :
    rollFromMember n m r s =
      if m.mode = .rollcall then answerRoll (rollToRow n m.mode (signOfLife n s))
      else rollToRow n m.mode (signOfLife n s) := by
  have hown : (rollToRow n m.mode (signOfLife n s)).own = s.own := by
    have : (rollToRow n m.mode (signOfLife n s)).straps = s.straps :=
      congrArg Outer.straps (outer_rollHeard n m.mode s)
    unfold State.own; rw [this]
  unfold rollFromMember
  simp only []
  rw [if_pos hser]
  by_cases hm : m.mode = .rollcall
  · rw [if_pos hm]; exact if_pos ⟨hown ▸ hn, hm⟩
  · rw [if_neg hm]; exact if_neg fun h => hm h.2

theorem rollFromMember_wrong {n : Nat} {m : RollMsg} {r : Row} {s : State}
    (hser : r.fixed.serial ≠ m.serial) :
    rollFromMember n m r s = report .stranger (some n) (signOfLife n s) := if_neg hser

/-- What a ROLL with a serial that is not the row's leaves of the sender: a sign of life and STRANGER (R39). -/
theorem fault_stranger (n : Nat) {s t : State} (hp : columnPlace t = columnPlace s)
    (ht : t.timeBase = s.timeBase) (hf : t.fault .stranger = s.fault .stranger) :
    (finish (report .stranger (some n) t)).fault .stranger =
      recordAfter s .stranger (s.active .stranger) (some n) := by
  rw [fault_finish (k := .stranger) nofun nofun, fault_report, if_pos rfl, placeNow_eq, hp, ht, hf]
  exact occurred_eq _ s .stranger (some n)

theorem table_answerRoll (s : State) : (answerRoll s).table = s.table := by
  have h : (answerRoll s).outer.table = s.table := by rw [outer_answerRoll]; split <;> rfl
  exact h

/-- The outer part after an answer, for a state that differs from `s` in the table alone. -/
def answeredOuter (s : State) (table : Option PeerTable) : Outer :=
  if s.roll.pacing.isSome then
    { s.outer with table := table, roll := { s.roll with answerOwed := true } }
  else
    { s.outer with
      table := table
      roll := { s.roll with pacing := some (s.timeBase + 2500) }
      rollPending := s.line.rollPending || !sendingKind s kindRoll
      rollAgain := s.line.rollAgain || sendingKind s kindRoll }

theorem outer_answered {s v : State} (hv : v.outer = { s.outer with table := v.table }) :
    (answerRoll v).outer = answeredOuter s v.table := by
  have hroll : v.roll = s.roll := congrArg Outer.roll hv
  have htime : v.timeBase = s.timeBase := congrArg Outer.timeBase hv
  have hpending : v.line.rollPending = s.line.rollPending := congrArg Outer.rollPending hv
  have hagain : v.line.rollAgain = s.line.rollAgain := congrArg Outer.rollAgain hv
  have hsending : sendingKind v kindRoll = sendingKind s kindRoll := by
    have : v.line.attempt = s.line.attempt := congrArg Outer.attempt hv
    unfold sendingKind; rw [this]
  rw [outer_answerRoll, hroll, htime, hpending, hagain, hsending]
  unfold answeredOuter
  split <;> simp only [hv]

/-- What the outer part after a ROLL may change of the one before: table, roll-call unit and ROLL marks. -/
def rollChange (s : State) (o : Outer) : Outer :=
  { s.outer with
    idle := false, table := o.table, roll := o.roll
    rollPending := o.rollPending, rollAgain := o.rollAgain }

theorem outer_rollChange {s t : State} (h : t.outer = rollChange s t.outer) :
    t.outer = { s.outer with
      idle := false
      table := t.table
      roll := t.roll
      rollPending := t.line.rollPending
      rollAgain := t.line.rollAgain } := h

/-- The fields that an answer writes (R38). -/
theorem fields_answered {s t : State} {a : Option PeerTable}
    (h : t.outer = answeredOuter (lineBusy s) a) :
    if s.roll.pacing.isSome then
      t.roll = { s.roll with answerOwed := true } ∧
        t.line.rollPending = s.line.rollPending ∧ t.line.rollAgain = s.line.rollAgain
    else
      t.roll = { s.roll with pacing := some (s.timeBase + 2500) } ∧
        t.line.rollPending = (s.line.rollPending || !sendingKind s kindRoll) ∧
        t.line.rollAgain = (s.line.rollAgain || sendingKind s kindRoll) := by
  unfold answeredOuter at h
  by_cases hp : s.roll.pacing.isSome = true
  · rw [if_pos hp]
    have h := h.trans (if_pos hp)
    exact ⟨congrArg Outer.roll h, congrArg Outer.rollPending h, congrArg Outer.rollAgain h⟩
  · rw [if_neg hp]
    have h := h.trans (if_neg hp)
    exact ⟨congrArg Outer.roll h, congrArg Outer.rollPending h, congrArg Outer.rollAgain h⟩

/-- The row of a sender whose ROLL shows FROZEN stands as heard; any other mode clears what it showed (R52, R53). -/
theorem rollReport_ne {mode : RollMode} (h : mode ≠ .frozen) (r : Report) :
    rollReport mode r =
      { r with mode := if mode = .barred then .barred else .rollcall
               lift := none, committedEnd := none, stage := none, flight := .none
               faults := r.faults ||| 256#16 } := by
  cases mode
  case frozen => exact absurd rfl h
  all_goals rfl

end Sys2Proof.Machine

open Sys2Proof Sys2Proof.Machine in
/-- Settles O25, by the sender's row: none, with another serial, or with the ROLL's. -/
theorem rollAfterFreeze : Obligations.RollAfterFreeze := by
  intro s f m h₁ h₂ hown ht hp hm hne n
  have hexec : exec (.rollFrame f) s = .next (finish (takeRoll n m (lineBusy s))) := by
    show receive _ _ s = _
    rw [receive_content (contentOf_roll hp hm), frameArrives_other hown]; rfl
  have ht' : TableOwn (lineBusy s) := ht
  rw [takeRoll_frozen (s := lineBusy s) h₁ h₂, rowOf_eq_peerOf ht' hne] at hexec
  have hpeer : peerOf (lineBusy s) n = peerOf s n := rfl
  rw [hpeer] at hexec
  rcases Option.eq_none_or_eq_some (peerOf s n) with hrow | ⟨r, hrow⟩
  · rw [hrow] at hexec
    have hout : (finish (report .stranger (some n) (lineBusy s))).outer =
        { s.outer with idle := false } := by rw [outer_finish, outer_report]; rfl
    refine ⟨_, hexec, fun j _ => peerOf_of_table (congrArg Outer.table hout) j, fun _ => ?_,
      fun r hr => absurd (hrow.symm.trans hr) nofun⟩
    refine ⟨hout, fun hq j hj => ?_, fault_stranger n rfl rfl rfl⟩
    have hquiet : Quiet (report .stranger (some n) (lineBusy s)) :=
      quiet_of_eq (s := s) (mode_otherReport rfl rfl _ (lineBusy s)) hq
    rw [Option.elim_none, finish_quiet hquiet]
    exact inner_faults_of_fault (by rw [fault_report, if_neg hj]; rfl)
  · rw [hrow] at hexec
    by_cases hser : r.fixed.serial = m.serial
    · rw [Option.elim_some, rollFromMember_right (s := lineBusy s) hser hne] at hexec
      have hpeers := lookup_changed fun j => peerOf_rollHeard ht' n j m.mode
      have hv := outer_rollHeard n m.mode (lineBusy s)
      generalize rollToRow n m.mode (signOfLife n (lineBusy s)) = v at hexec hpeers hv
      have hothers : ∀ t : State, t.table = v.table → ∀ j, j ≠ n → peerOf t j = peerOf s j :=
        fun t h j hj => (peerOf_of_table h j).trans (hpeers.1 j hj)
      have hsender : ∀ t : State, t.table = v.table →
          peerOf t n = some { heardAt s r with report := rollReport m.mode r.report } :=
        fun t h => (peerOf_of_table h n).trans (hpeers.2 r hrow)
      by_cases hmode : m.mode = .rollcall
      · rw [if_pos hmode] at hexec
        have hout : (finish (answerRoll v)).outer = answeredOuter (lineBusy s) v.table :=
          (outer_finish _).trans (outer_answered hv)
        have htable : (finish (answerRoll v)).table = v.table :=
          (congrArg Outer.table (outer_finish (answerRoll v))).trans (table_answerRoll v)
        refine ⟨_, hexec, hothers _ htable, fun h => absurd (hrow.symm.trans h) nofun,
          fun r' hr' => ?_⟩
        obtain rfl : r = r' := Option.some.inj (hrow.symm.trans hr')
        refine ⟨?_, fun h => absurd hser h, fun _ h => absurd (hmode.symm.trans h) nofun,
          fun _ h => absurd hmode h, fun _ h => ?_, fun _ _ => ?_⟩
        · exact outer_rollChange (by rw [hout]; unfold answeredOuter; split <;> rfl)
        · rw [hsender _ htable, rollReport_ne h]
        · exact fields_answered hout
      · rw [if_neg hmode] at hexec
        have hout := (outer_finish v).trans hv
        have htable : (finish v).table = v.table := congrArg Outer.table hout
        refine ⟨_, hexec, hothers _ htable, fun h => absurd (hrow.symm.trans h) nofun,
          fun r' hr' => ?_⟩
        obtain rfl : r = r' := Option.some.inj (hrow.symm.trans hr')
        refine ⟨?_, fun h => absurd hser h, fun _ h => ?_, fun _ _ => ⟨congrArg Outer.roll hout,
          congrArg Outer.rollPending hout, congrArg Outer.rollAgain hout⟩, fun _ h => ?_,
          fun _ h => absurd h hmode⟩
        · exact outer_rollChange (hout ▸ rfl)
        · rw [hsender _ htable, h]; rfl
        · rw [hsender _ htable, rollReport_ne h]
    · rw [Option.elim_some, rollFromMember_wrong hser] at hexec
      have hout : (finish (report .stranger (some n) (signOfLife n (lineBusy s)))).outer =
          { s.outer with idle := false, table := (signOfLife n (lineBusy s)).table } := by
        rw [outer_finish, outer_report, outer_signOfLife]; rfl
      have hpeers := lookup_changed fun j =>
        (peerOf_of_table (congrArg Outer.table hout) j).trans (peerOf_signOfLife ht' n j)
      refine ⟨_, hexec, hpeers.1, fun h => absurd (hrow.symm.trans h) nofun, fun r' hr' => ?_⟩
      · obtain rfl : r = r' := Option.some.inj (hrow.symm.trans hr')
        refine ⟨?_, fun _ => ⟨?_, congrArg Outer.roll hout, congrArg Outer.rollPending hout,
          congrArg Outer.rollAgain hout, ?_⟩, fun h => absurd h hser, fun h => absurd h hser,
          fun h => absurd h hser, fun h => absurd h hser⟩
        · exact outer_rollChange (hout ▸ rfl)
        · exact hpeers.2 r hrow
        · exact fault_stranger n (columnPlace_signOfLife n (lineBusy s))
            (congrArg Outer.timeBase (outer_signOfLife n (lineBusy s)))
            (fault_signOfLife (k := .stranger) nofun n (lineBusy s))

/-! ## Own frames (O19) -/

namespace Sys2Proof.Machine

/-! ### The HALT slot under hold-class and lower occurrences (R11, R177) -/

/-- An occurrence of a kind that is not of the halt class leaves the HALT slot. -/
theorem haltSlot_otherReport {k : FaultKind} (hk : haltClass k = false) (n : Option Nat) (s : State) :
    (report k n s).line.haltSlot = s.line.haltSlot := by
  unfold report reportAt modeOnFault
  rw [hk, if_neg Bool.false_ne_true]
  split
  · exact (haltSlot_of_record (s := latchAt (placeNow s) n k s) (by simp)).trans
      (haltSlot_latchAt ..)
  · exact haltSlot_latchAt ..

theorem haltSlot_shareEval (s : State) : (shareEval s).line.haltSlot = s.line.haltSlot := by
  unfold shareEval
  simp only []
  split
  · exact haltSlot_otherReport rfl _ _
  · split <;> rfl

theorem haltSlot_evaluate (s : State) : (evaluate s).line.haltSlot = s.line.haltSlot := by
  unfold evaluate
  split
  · split
    · rfl
    · simp only []
      split
      · rfl
      · exact haltSlot_of_record (by rw [record_requestWithdrawal]; rfl)
    · unfold evalAtRest
      split
      · simp only []
        split
        · exact haltSlot_of_record (by simp)
        · split
          · split <;> exact haltSlot_of_record (by simp)
          · exact haltSlot_of_record (by simp)
      · unfold evalTakeUp
        split
        · exact (haltSlot_otherReport rfl _ _).trans (haltSlot_of_record (by simp))
        · split <;> exact haltSlot_of_record (by simp)
  · rfl

theorem haltSlot_readers (s : State) : (readers s).line.haltSlot = s.line.haltSlot := by
  unfold readers
  rw [haltSlot_evaluate]
  exact (haltSlot_of_record (by simp)).trans (haltSlot_shareEval s)

/-- What ends a command leaves the HALT slot: its occurrences are of the hold class. -/
theorem haltSlot_finish (s : State) : (finish s).line.haltSlot = s.line.haltSlot := by
  have hs : ∀ (n : Nat) (t : State), (settle n t).line.haltSlot = t.line.haltSlot := by
    intro n
    induction n with
    | zero => intro t; rfl
    | succ n ih =>
      intro t
      unfold settle
      split
      · rw [ih, haltSlot_readers]
      · rfl
  have hr : (finish s).record = (settle settleRounds s).record := by simp [finish]
  exact (haltSlot_of_record hr).trans (hs settleRounds s)

theorem active_of_fault {s t : State} {k : FaultKind} (h : t.fault k = s.fault k) :
    t.active k = s.active k := by
  unfold State.active; rw [h]

/-! ### What acting on a frame leaves of the line controller -/

/-- The line controller's places that acting on a frame leaves alone. -/
def State.linePlaces (s : State) :
    Option WireFrame × Bool × Nat × List WireFrame × List WireFrame × Bool × Bool :=
  (s.line.attempt, s.line.idle, s.line.failures, s.line.orderQueue, s.line.planQueue,
    s.line.rollPending, s.line.rollAgain)

/-- What acting on a frame keeps: these places, a HALT that waits, and the condition of LINE. -/
structure LineKept (s t : State) : Prop where
  places : t.linePlaces = s.linePlaces
  slot : s.line.haltSlot.isSome = true → t.line.haltSlot = s.line.haltSlot
  active : t.active .line = s.active .line

theorem LineKept.refl (s : State) : LineKept s s := ⟨rfl, fun _ => rfl, rfl⟩

theorem LineKept.trans {s t u : State} (h₁ : LineKept s t) (h₂ : LineKept t u) : LineKept s u where
  places := h₂.places.trans h₁.places
  slot hs := by
    have hst := h₁.slot hs
    exact (h₂.slot (by rw [hst]; exact hs)).trans hst
  active := h₂.active.trans h₁.active

theorem linePlaces_of_outer {s t : State} (h : t.outer = s.outer) : t.linePlaces = s.linePlaces :=
  congrArg (fun o : Outer =>
    (o.attempt, o.idle, o.failures, o.orderQueue, o.planQueue, o.rollPending, o.rollAgain)) h

/-- The Laws' two views decide it. -/
theorem lineKept_of_views {s t : State} (ho : t.outer = s.outer) (hr : t.record = s.record) :
    LineKept s t :=
  ⟨linePlaces_of_outer ho, fun _ => haltSlot_of_record hr, active_of_fault (fault_of_record hr _)⟩

/-- No occurrence but LINE's own touches them: a full HALT slot keeps its frame (R11). -/
theorem lineKept_report {k : FaultKind} (hk : k ≠ .line) (n : Option Nat) (s : State) :
    LineKept s (report k n s) where
  places := linePlaces_of_outer (outer_report k n s)
  slot hs := by
    obtain ⟨w, hw⟩ := Option.isSome_iff_exists.mp hs
    cases hc : haltClass k with
    | true =>
      show (reportAt _ k n s).line.haltSlot = _
      rw [haltSlot_haltReportAt hc, if_neg hk, hw, Option.getD_some]
    | false => exact haltSlot_otherReport hc n s
  active := active_of_fault (by rw [fault_report, if_neg (Ne.symm hk)])

theorem lineKept_shareEval (s : State) : LineKept s (shareEval s) :=
  ⟨linePlaces_of_outer (outer_shareEval s), fun _ => haltSlot_shareEval s,
    active_of_fault (fault_shareEval (k := .line) nofun s)⟩

theorem lineKept_arrivalTest (s : State) : LineKept s (arrivalTest s) := by
  unfold arrivalTest
  split
  · split
    · simp only []
      split
      · split
        · exact (lineKept_of_views (outer_markLimitReported s) (record_markLimitReported s)).trans
            (lineKept_report (k := .travelLimit) nofun none _)
        · exact lineKept_of_views (by simp) (by simp)
      · split
        · exact .refl s
        · exact lineKept_report (k := .drift) nofun none s
    · exact .refl s
  · exact .refl s

theorem lineKept_enterMoving (s : State) : LineKept s (enterMoving s) := by
  unfold enterMoving
  refine LineKept.trans ?_ ((lineKept_shareEval _).trans (lineKept_arrivalTest _))
  have h : LineKept s (setMode .moving (endJog s)) := lineKept_of_views (by simp) (by simp)
  split
  · exact h.trans (lineKept_of_views rfl rfl)
  · exact h

theorem lineKept_takeUp (s : State) : LineKept s (takeUp s) :=
  (lineKept_of_views (by simp; rfl) (by simp; rfl)).trans (lineKept_enterMoving _)

theorem lineKept_moveTo (k : StageIx) (s : State) : LineKept s (moveTo k s) :=
  (lineKept_of_views (by simp) (by simp)).trans (lineKept_enterMoving _)

theorem lineKept_refuse (kind : RefusedKind) (why : Reason) (n : Nat) (s : State) :
    LineKept s (refuse kind why n s) := ⟨rfl, fun _ => rfl, rfl⟩

theorem lineKept_refuseOrder (kind : RefusedKind) (why : Reason) (n : Nat) (s : State) :
    LineKept s (refuseOrder kind why n s) := by
  unfold refuseOrder
  simp only []
  split
  · exact (lineKept_refuse kind why n s).trans (lineKept_report (k := .planMismatch) nofun _ _)
  · exact lineKept_refuse kind why n s

theorem lineKept_onTable (f : PeerTable → PeerTable) (s : State) : LineKept s (onTable f s) :=
  ⟨rfl, fun _ => rfl, rfl⟩

theorem lineKept_signOfLife (n : Nat) (s : State) : LineKept s (signOfLife n s) := by
  refine ⟨?_, fun _ => ?_, active_of_fault (fault_signOfLife (k := .line) nofun n s)⟩
  all_goals rcases signOfLife_cases n s with h | h <;> rw [h] <;> rfl

/-! ### Orders (R169 to R172) -/

theorem lineKept_takeAdvance (n : Nat) (s : State) : LineKept s (takeAdvance n s) := by
  unfold takeAdvance
  split
  · split
    · exact lineKept_refuseOrder ..
    · split
      · exact lineKept_refuseOrder ..
      · exact lineKept_takeUp s
  · split
    · exact lineKept_refuseOrder ..
    · split
      · exact lineKept_refuseOrder ..
      · exact lineKept_moveTo _ s
  · exact lineKept_refuseOrder ..

theorem lineKept_takeRetreat (n : Nat) (s : State) : LineKept s (takeRetreat n s) := by
  unfold takeRetreat
  split
  · split
    · exact lineKept_refuseOrder ..
    · split
      · exact lineKept_moveTo _ s
      · exact lineKept_refuseOrder ..
  · exact lineKept_refuseOrder ..

theorem lineKept_takeStop (n : Nat) (s : State) : LineKept s (takeStop n s) := by
  unfold takeStop
  split
  · exact lineKept_of_views (by simp) (by simp)
  · exact .refl s

/-- An acknowledgement clears latched flags alone. -/
theorem lineKept_unlatch (p : FaultKind → Bool) (s : State) : LineKept s (unlatch p s) := by
  have one : ∀ (k : FaultKind) (t : State),
      LineKept t (if p k then setFault k { t.fault k with latched := false } t else t) := by
    intro k t
    split
    · refine ⟨rfl, fun _ => rfl, ?_⟩
      by_cases hk : k = .line
      · subst hk; unfold State.active; rw [fault_setFault_same]
      · exact active_of_fault (fault_setFault_other (Ne.symm hk) _ t)
    · exact .refl t
  have fold : ∀ (ks : List FaultKind) (t : State), LineKept t (ks.foldl
      (fun acc k => if p k then setFault k { acc.fault k with latched := false } acc else acc) t) := by
    intro ks
    induction ks with
    | nil => exact fun t => .refl t
    | cons k ks ih => exact fun t => (one k t).trans (ih _)
  unfold unlatch
  simp only []
  split
  · exact fold allKinds s
  · exact (fold allKinds s).trans (lineKept_of_views (outer_requestPose _) (record_requestPose _))

theorem lineKept_pawlOnResume (s : State) : LineKept s (pawlOnResume s) := by
  unfold pawlOnResume
  split
  · split
    · exact lineKept_of_views (by simp) (by simp)
    · exact lineKept_of_views (by simp) (by simp [pawlFoundWithdrawn])
    · exact .refl s
  · exact .refl s

theorem lineKept_leaveHalted (s : State) : LineKept s (leaveHalted s) := by
  unfold leaveHalted
  split
  · exact lineKept_of_views (by simp) (by simp)
  · split <;> exact lineKept_of_views (by simp) (by simp)

theorem lineKept_resumeMode (n : Nat) (s : State) : LineKept s (resumeMode n s) := by
  unfold resumeMode
  split
  · split
    · exact lineKept_refuseOrder ..
    · split
      · exact lineKept_refuseOrder ..
      · split
        · exact lineKept_refuseOrder ..
        · exact lineKept_enterMoving s
  · split
    · exact lineKept_refuseOrder ..
    · split
      · exact lineKept_refuseOrder ..
      · exact lineKept_leaveHalted s
  · exact .refl s

theorem lineKept_takeResume (n : Nat) (s : State) : LineKept s (takeResume n s) :=
  (lineKept_pawlOnResume s).trans ((lineKept_unlatch _ _).trans (lineKept_resumeMode n _))

/-! ### HALT, POSE and PLAN (R50, R66 to R70, R174 to R178) -/

/-- A HALT frame changes the mode; it places no HALT of the station's own (R178). -/
theorem record_takeHalt (n : Nat) (k : FaultKind) (s : State) : (takeHalt n k s).record = s.record := by
  unfold takeHalt; split <;> simp

theorem lineKept_takeHalt (n : Nat) (k : FaultKind) (s : State) : LineKept s (takeHalt n k s) :=
  lineKept_of_views (by unfold takeHalt; split <;> simp) (record_takeHalt n k s)

theorem lineKept_catchUp (m : PoseMsg) (s : State) : LineKept s (catchUp m s) := by
  unfold catchUp
  split
  · split
    · exact lineKept_takeUp s
    · exact .refl s
  · split
    · exact lineKept_moveTo _ s
    · exact .refl s
  · split
    · exact lineKept_moveTo _ s
    · exact .refl s
  · exact .refl s

theorem lineKept_modeOnPose (n : Nat) (m : PoseMsg) (s : State) : LineKept s (modeOnPose n m s) := by
  unfold modeOnPose
  split
  · exact lineKept_of_views (by simp) (by simp)
  · split
    · exact lineKept_of_views (by simp) (by simp)
    · exact lineKept_catchUp m s

theorem lineKept_takePose (n : Nat) (m : PoseMsg) (s : State) : LineKept s (takePose n m s) := by
  unfold takePose
  split
  · exact .refl s
  · exact (lineKept_onTable _ s).trans (lineKept_modeOnPose n m _)

theorem lineKept_takePlan (n : Nat) (op : PlanOp) (s : State) : LineKept s (takePlan n op s) := by
  cases op with
  | load target car set =>
    show LineKept s (takeLoad _ s)
    unfold takeLoad
    split <;> exact ⟨rfl, fun _ => rfl, rfl⟩
  | clear => exact ⟨rfl, fun _ => rfl, rfl⟩
  | adopt =>
    show LineKept s (takeAdopt n s)
    unfold takeAdopt
    split
    · exact lineKept_refuse ..
    · refine LineKept.trans ?_ (lineKept_of_views (outer_requestPose _) (record_requestPose _))
      refine LineKept.trans ?_ (lineKept_of_views (outer_handRetained _) (record_handRetained _))
      exact ⟨rfl, fun _ => rfl, rfl⟩

/-! ### Own frames that complete (R11, R12, R13, R15) -/

/-- The line controller as a completed frame of a kind leaves it (R12, R13). -/
theorem line_leavePlace (kind : BitVec 3) (s : State) :
    (leavePlace kind s).line =
      { s.line with
        haltSlot := if kind = kindHalt then none else s.line.haltSlot
        orderQueue := if kind = kindOrder then s.line.orderQueue.tail else s.line.orderQueue
        planQueue := if kind = kindPlan then s.line.planQueue.tail else s.line.planQueue
        posePending := if kind = kindPose then s.line.poseAgain else s.line.posePending
        poseAgain := if kind = kindPose then false else s.line.poseAgain
        posePeriod := if kind = kindPose then armed s.timeBase (10 * s.cfg.p) else s.line.posePeriod
        rollPending := if kind = kindRoll then s.line.rollAgain else s.line.rollPending
        rollAgain := if kind = kindRoll then false else s.line.rollAgain } := by
  unfold leavePlace
  simp only []
  by_cases hh : kind = kindHalt
  · subst hh; rfl
  by_cases ho : kind = kindOrder
  · subst ho; rfl
  by_cases hp : kind = kindPlan
  · subst hp; rfl
  by_cases hq : kind = kindPose
  · subst hq; rfl
  by_cases hr : kind = kindRoll
  · subst hr; rfl
  simp only [hh, ho, hp, hq, hr, if_false]

/-- The line controller as an own frame that completes leaves it (R13, R15). -/
theorem line_completeOwn (kind : BitVec 3) (s : State) :
    (completeOwn kind s).line =
      (leavePlace kind { s with line := { s.line with attempt := none, failures := 0 } }).line := rfl

/-- The condition of LINE ends with an own transmission, and no other record changes (R15). -/
theorem fault_completeOwn (kind : BitVec 3) (k : FaultKind) (s : State) :
    (completeOwn kind s).fault k =
      if k = .line then { s.fault .line with active := false } else s.fault k :=
  fault_setActive .line k false _

theorem active_completeOwn (kind : BitVec 3) (s : State) : (completeOwn kind s).active .line = false := by
  unfold State.active; rw [fault_completeOwn, if_pos rfl]

theorem frameArrives_own {s : State} {w : WireFrame} (h : isOwnAttempt s w = true)
    (hk : w.kind ≠ kindClaim) : frameArrives w s = completeOwn w.kind (lineBusy s) := by
  unfold frameArrives
  rw [if_pos (by simp [h, hk])]

/-- What an own frame leaves of the places, the HALT slot and the condition of LINE, after an act on it that keeps
them. -/
theorem places_own {s u : State} {kind : BitVec 3} (h : LineKept (completeOwn kind (lineBusy s)) u) :
    (finish u).linePlaces =
      (none, false, 0,
        if kind = kindOrder then s.line.orderQueue.tail else s.line.orderQueue,
        if kind = kindPlan then s.line.planQueue.tail else s.line.planQueue,
        if kind = kindRoll then s.line.rollAgain else s.line.rollPending,
        if kind = kindRoll then false else s.line.rollAgain) ∧
    (kind ≠ kindHalt → s.line.haltSlot.isSome = true →
      (finish u).line.haltSlot = s.line.haltSlot) ∧
    (finish u).active .line = false := by
  have hslot : (completeOwn kind (lineBusy s)).line.haltSlot =
      if kind = kindHalt then none else s.line.haltSlot := by
    rw [line_completeOwn, line_leavePlace]; rfl
  refine ⟨?_, fun hk hs => ?_, ?_⟩
  · rw [linePlaces_of_outer (outer_finish u), h.places]
    unfold State.linePlaces
    rw [line_completeOwn, line_leavePlace]; rfl
  · rw [if_neg hk] at hslot
    rw [haltSlot_finish, h.slot (by rw [hslot]; exact hs), hslot]
  · rw [active_of_fault (fault_finish (k := .line) nofun nofun u), h.active, active_completeOwn]

theorem haltSlot_own {s u : State}
    (h : u.line.haltSlot = (completeOwn kindHalt (lineBusy s)).line.haltSlot) :
    (finish u).line.haltSlot = none := by
  rw [haltSlot_finish, h]; rfl

/-- A delivered frame keeps what its act keeps. -/
theorem lineKept_deliver {g : State → State} (hg : ∀ u, LineKept u (g u)) (n : Nat) (s : State) :
    LineKept s (deliver n g s) := by
  unfold deliver
  split
  · exact .refl s
  · split
    · exact (lineKept_signOfLife n s).trans (hg _)
    · exact ⟨rfl, fun _ => rfl, rfl⟩

theorem haltSlot_deliver {g : State → State} (hg : ∀ u, (g u).line.haltSlot = u.line.haltSlot) (n : Nat)
    (s : State) : (deliver n g s).line.haltSlot = s.line.haltSlot := by
  unfold deliver
  split
  · rfl
  · split
    · rw [hg]; rcases signOfLife_cases n s with h | h <;> rw [h] <;> rfl
    · rfl

/-- A frame command other than ROLL and CLAIM acts through `deliver` by an act that keeps the line's places, and a
HALT's keeps the HALT slot empty too. -/
theorem act_of_frameOf {c : Instr} {w : WireFrame} (h : frameOf c = some w) (hc : w.kind ≠ kindClaim)
    (s : State) :
    ∃ act : Content → State → State, exec c s = receive w act s ∧
      ∀ x, kindOf x = w.kind → ∃ g, act x = deliver w.station.toNat g ∧
        (∀ u, LineKept u (g u)) ∧
        (w.kind = kindHalt → ∀ u, (g u).line.haltSlot = u.line.haltSlot) := by
  cases c <;> simp only [frameOf, Option.some.injEq, reduceCtorEq] at h <;> subst h
  case poseFrame f =>
    refine ⟨_, rfl, fun x hx => ?_⟩
    obtain ⟨m, rfl⟩ := exists_pose hx
    exact ⟨_, rfl, lineKept_takePose _ m, nofun⟩
  case claimFrame f => exact absurd rfl hc
  case haltFrame f =>
    refine ⟨_, rfl, fun x hx => ?_⟩
    obtain ⟨k, rfl⟩ := exists_halt hx
    exact ⟨_, rfl, lineKept_takeHalt _ k, fun _ u => haltSlot_of_record (record_takeHalt _ k u)⟩
  case advance f => exact ⟨_, rfl, fun _ _ => ⟨_, rfl, lineKept_takeAdvance _, nofun⟩⟩
  case retreat f => exact ⟨_, rfl, fun _ _ => ⟨_, rfl, lineKept_takeRetreat _, nofun⟩⟩
  case stop f => exact ⟨_, rfl, fun _ _ => ⟨_, rfl, lineKept_takeStop _, nofun⟩⟩
  case resume f => exact ⟨_, rfl, fun _ _ => ⟨_, rfl, lineKept_takeResume _, nofun⟩⟩
  all_goals
    refine ⟨_, rfl, fun x hx => ?_⟩
    obtain ⟨op, rfl⟩ := exists_plan hx
    exact ⟨_, rfl, lineKept_takePlan _ op, nofun⟩

/-- No command but ROLL_FRAME names a ROLL. -/
theorem kind_ne_roll {c : Instr} {w : WireFrame} (h : frameOf c = some w) : w.kind ≠ kindRoll := by
  cases c <;> simp only [frameOf, Option.some.injEq, reduceCtorEq] at h <;> subst h <;> exact nofun

/-- An own frame other than ROLL and CLAIM is received and acted on by an act that keeps the line's places. -/
theorem exec_own {c : Instr} {w : WireFrame} {s : State} (h : frameOf c = some w)
    (hown : isOwnAttempt s w = true) (hc : w.kind ≠ kindClaim) :
    ∃ u, exec c s = .next (finish u) ∧ LineKept (completeOwn w.kind (lineBusy s)) u ∧
      (w.kind = kindHalt → u.line.haltSlot = (completeOwn w.kind (lineBusy s)).line.haltSlot) := by
  obtain ⟨act, hexec, hact⟩ := act_of_frameOf h hc s
  rw [hexec]
  cases hm : malformed w with
  | true =>
    rw [receive_malformed hm, frameArrives_own hown hc]
    exact ⟨_, rfl, ⟨rfl, fun _ => rfl, rfl⟩, fun _ => rfl⟩
  | false =>
    obtain ⟨x, hx⟩ := exists_content hm
    obtain ⟨g, hg, hkept, hhalt⟩ := hact x (kindOf_contentOf hx)
    rw [receive_content hx, frameArrives_own hown hc, hg]
    exact ⟨_, rfl, lineKept_deliver hkept _ _, fun hk => haltSlot_deliver (hhalt hk) _ _⟩

end Sys2Proof.Machine

namespace Sys2Proof.Machine

/-! ### An own ROLL (R31, R38, R49) -/

theorem line_signOfLife (n : Nat) (s : State) : (signOfLife n s).line = s.line := by
  rcases signOfLife_cases n s with h | h <;> rw [h] <;> rfl

/-- What acting on an own ROLL keeps: the line's places and the HALT slot, empty or full. -/
structure RollKept (s u : State) : Prop where
  line : LineKept s u
  slot : u.line.haltSlot = s.line.haltSlot

theorem rollKept_of_views {s t : State} (ho : t.outer = s.outer) (hr : t.record = s.record) :
    RollKept s t := ⟨lineKept_of_views ho hr, haltSlot_of_record hr⟩

theorem RollKept.trans {s t u : State} (h₁ : RollKept s t) (h₂ : RollKept t u) : RollKept s u :=
  ⟨h₁.line.trans h₂.line, h₂.slot.trans h₁.slot⟩

theorem RollKept.refl (s : State) : RollKept s s := ⟨.refl s, rfl⟩

theorem rollKept_report {k : FaultKind} (hk : haltClass k = false) (n : Option Nat) (s : State) :
    RollKept s (report k n s) :=
  ⟨lineKept_report (fun e => by rw [e] at hk; cases hk) n s, haltSlot_otherReport hk n s⟩

theorem rollKept_signOfLife (n : Nat) (s : State) : RollKept s (signOfLife n s) :=
  ⟨lineKept_signOfLife n s, by rw [line_signOfLife]⟩

theorem rollKept_enterBarred (s : State) : RollKept s (enterBarred s) := by
  unfold enterBarred
  simp only []
  refine RollKept.trans ?_ (rollKept_of_views (outer_pawlSet _) (record_pawlSet _))
  refine RollKept.trans (t := setMode .barred _) ?_ ⟨⟨rfl, fun _ => rfl, rfl⟩, rfl⟩
  refine RollKept.trans ?_ (rollKept_of_views (outer_setMode _ _) (record_setMode _ _))
  exact ⟨⟨rfl, fun _ => rfl, rfl⟩, rfl⟩

theorem rollKept_rollInWindow (n : Nat) (m : RollMsg) (s : State) : RollKept s (rollInWindow n m s) := by
  have plain : ∀ roll : Roll, RollKept s { s with roll := roll } :=
    fun _ => ⟨⟨rfl, fun _ => rfl, rfl⟩, rfl⟩
  unfold rollInWindow
  split
  · exact rollKept_report rfl _ s
  · split
    · exact rollKept_report rfl _ s
    · simp only []
      split
      · split
        · exact plain _
        · exact rollKept_report rfl _ s
      · split
        · exact (plain _).trans ((rollKept_report rfl _ _).trans (rollKept_enterBarred _))
        · exact plain _

/-- In the window a ROLL of a known number with its serial renews the candidate (R31). -/
theorem rollInWindow_known {n : Nat} {m : RollMsg} {s : State} {c : Candidate} (hn : n < 48)
    (ht : m.tag = s.settings.tag) (hc : candidate s n = some c) (hs : c.serial = m.serial) :
    rollInWindow n m s =
      setCandidates (insertCandidate (candidateOf s.timeBase n m) s.roll.candidates) s := by
  unfold rollInWindow
  rw [if_neg (Nat.not_le.mpr hn), if_neg (not_not.mpr ht), hc]
  exact if_pos hs

/-- A candidate put in its place is found under its number. -/
theorem find_insertCandidate_same (c : Candidate) (cs : List Candidate) :
    (insertCandidate c cs).find? (fun d => d.number == c.number) = some c := by
  induction cs with
  | nil => simp [insertCandidate]
  | cons d ds ih =>
    unfold insertCandidate
    split
    · simp
    · split
      · simp
      · rename_i hne
        have : (d.number == c.number) = false := beq_eq_false_iff_ne.mpr (Ne.symm hne)
        rw [List.find?_cons, this]; exact ih

/-- Every other candidate is found as before. -/
theorem find_insertCandidate_other {c : Candidate} {j : Nat} (hj : j ≠ c.number)
    (cs : List Candidate) :
    (insertCandidate c cs).find? (fun d => d.number == j) = cs.find? fun d => d.number == j := by
  have hc : (c.number == j) = false := beq_eq_false_iff_ne.mpr (Ne.symm hj)
  induction cs with
  | nil => simp [insertCandidate, hc]
  | cons d ds ih =>
    unfold insertCandidate
    split
    · rw [List.find?_cons, hc]
    · split
      · rename_i heq
        have hd : (d.number == j) = false := heq ▸ hc
        rw [List.find?_cons, List.find?_cons, hc, hd]
      · rw [List.find?_cons, List.find?_cons, ih]

/-- A ROLL with the station's own number is not answered in BARRED (R38). -/
theorem rollInBarred_own (m : RollMsg) (s : State) : rollInBarred s.own m s = s :=
  if_neg fun h => h.1 rfl

/-- No peer has the station's own number (R48). -/
theorem peerOf_own {s : State} (ht : TableOwn s) : peerOf s s.own = none := by
  unfold peerOf peerRows
  cases h : s.table with
  | none => rfl
  | some a =>
    obtain ⟨-, hpeers⟩ := ht a h
    exact List.find?_eq_none.mpr fun r hr => by simpa using hpeers r hr

/-- A change of the own number's row is seen in no peer's. -/
theorem lookup_own {s t : State} {g : Row → Row} (ht : TableOwn s)
    (h : ∀ j, peerOf t j = (peerOf s j).map fun r => if j = s.own then g r else r) (j : Nat) :
    peerOf t j = peerOf s j := by
  by_cases hj : j = s.own
  · rw [h, hj, peerOf_own ht]; rfl
  · exact (lookup_changed h).1 j hj

/-- An own sign of life is written in the self row (R48, R49). -/
theorem selfMarks_signOfLife {s : State} (ht : TableOwn s) :
    (signOfLife s.own s).table.map (·.selfMarks) = s.table.map fun a => heardMarks s a.selfMarks := by
  rw [table_signOfLife, Option.map_map]
  cases h : s.table with
  | none => rfl
  | some a =>
    have : mapMarks s.own (heardMarks s) a = { a with selfMarks := heardMarks s a.selfMarks } :=
      if_pos (ht a h).1
    simp only [Option.map_some, Function.comp_def, this]

theorem selfMarks_rollToRow (n : Nat) (mode : RollMode) (s : State) :
    (rollToRow n mode s).table.map (·.selfMarks) = s.table.map (·.selfMarks) := by
  have h : ∀ f, (onTable (mapReport n f) s).table.map (·.selfMarks) = s.table.map (·.selfMarks) := by
    intro f
    rw [table_onTable, Option.map_map]; rfl
  cases mode with
  | frozen => rfl
  | rollcall => exact h _
  | barred => exact h _

theorem rollKept_rollToRow (n : Nat) (mode : RollMode) (s : State) :
    RollKept s (rollToRow n mode s) := by
  cases mode <;> exact ⟨⟨rfl, fun _ => rfl, rfl⟩, rfl⟩

/-- What an own ROLL after freeze does: a sign of life, and no answer (R38, R49). -/
structure OwnRoll (s u : State) : Prop where
  kept : RollKept s u
  outer : u.outer = { s.outer with table := u.table }
  selfMarks : TableOwn s → s.table.isSome = true →
    u.table.map (·.selfMarks) = s.table.map fun a => heardMarks s a.selfMarks
  peers : TableOwn s → ∀ j, peerOf u j = peerOf s j

/-- A member with the station's own number is not answered (R38). -/
theorem rollFromMember_own {m : RollMsg} {r : Row} {s : State} :
    rollFromMember s.own m r s =
      if r.fixed.serial = m.serial then rollToRow s.own m.mode (signOfLife s.own s)
      else report .stranger (some s.own) (signOfLife s.own s) := by
  have hown : (rollToRow s.own m.mode (signOfLife s.own s)).own = s.own :=
    congrArg (fun o : Outer => o.straps.number.val) (outer_rollHeard s.own m.mode s)
  unfold rollFromMember
  simp only []
  split
  · exact if_neg fun h => h.1 hown.symm
  · rfl

theorem ownRoll_rollFromMember (m : RollMsg) (r : Row) (s : State) :
    OwnRoll s (rollFromMember s.own m r s) := by
  have heard := rollKept_signOfLife s.own s
  rw [rollFromMember_own]
  split
  · exact
      { kept := heard.trans (rollKept_rollToRow _ _ _)
        outer := outer_rollHeard _ _ s
        selfMarks := fun ht _ => (selfMarks_rollToRow ..).trans (selfMarks_signOfLife ht)
        peers := fun ht => lookup_own ht (peerOf_rollHeard ht s.own · m.mode) }
  · have htable : (report .stranger (some s.own) (signOfLife s.own s)).table =
        (signOfLife s.own s).table := congrArg Outer.table (outer_report ..)
    exact
      { kept := heard.trans (rollKept_report rfl _ _)
        outer := by rw [outer_report, htable]; exact outer_signOfLife s.own s
        selfMarks := fun ht _ => by rw [htable]; exact selfMarks_signOfLife ht
        peers := fun ht j => (peerOf_of_table htable j).trans
          (lookup_own ht (peerOf_signOfLife ht s.own) j) }

/-- A station with a table of its own has its own row (R48). -/
theorem rowOf_own {s : State} (ht : TableOwn s) (h : s.table.isSome = true) :
    ∃ r, rowOf s s.own = some r := by
  obtain ⟨a, ha⟩ := Option.isSome_iff_exists.mp h
  have hself : (selfRow s a).fixed.number = s.own := (ht a ha).1
  exact ⟨selfRow s a, by unfold rowOf allRows; simp [ha, hself]⟩

theorem ownRoll_takeRoll {s : State} (h₁ : s.mode ≠ .rollcall) (h₂ : s.mode ≠ .barred) (m : RollMsg) :
    OwnRoll s (takeRoll s.own m s) := by
  rw [takeRoll_frozen h₁ h₂]
  rcases Option.eq_none_or_eq_some (rowOf s s.own) with hrow | ⟨r, hrow⟩
  · rw [hrow, Option.elim_none]
    have hout := outer_report .stranger (some s.own) s
    have htable := congrArg Outer.table hout
    exact
      { kept := rollKept_report rfl _ s
        outer := hout.trans (by rw [show (report .stranger (some s.own) s).table = _ from htable])
        selfMarks := fun ht hs => by
          obtain ⟨r, hr⟩ := rowOf_own ht hs
          exact absurd (hrow.symm.trans hr) nofun
        peers := fun _ j => peerOf_of_table htable j }
  · rw [hrow]
    exact ownRoll_rollFromMember m r s

/-- In ROLLCALL a ROLL goes to the window (R31). -/
theorem takeRoll_rollcall {s : State} (h : s.mode = .rollcall) (n : Nat) (m : RollMsg) :
    takeRoll n m s = rollInWindow n m s := by unfold takeRoll; rw [h]

/-- In BARRED an own ROLL is not answered (R38). -/
theorem takeRoll_barred_own {s : State} (h : s.mode = .barred) (m : RollMsg) :
    takeRoll s.own m s = s :=
  (show takeRoll s.own m s = rollInBarred s.own m s by unfold takeRoll; rw [h]).trans
    (rollInBarred_own m s)

theorem rollKept_takeRoll_own (m : RollMsg) (s : State) : RollKept s (takeRoll s.own m s) := by
  by_cases h₁ : s.mode = .rollcall
  · rw [takeRoll_rollcall h₁]; exact rollKept_rollInWindow _ m s
  · by_cases h₂ : s.mode = .barred
    · rw [takeRoll_barred_own h₂]; exact .refl s
    · exact (ownRoll_takeRoll h₁ h₂ m).kept

/-- Outside ROLLCALL an own ROLL leaves the roll-call unit (R31, R38). -/
theorem roll_takeRoll_own {s : State} (h : s.mode ≠ .rollcall) (m : RollMsg) :
    (takeRoll s.own m s).roll = s.roll := by
  by_cases h₂ : s.mode = .barred
  · rw [takeRoll_barred_own h₂]
  · exact congrArg Outer.roll (ownRoll_takeRoll h h₂ m).outer

/-- An own ROLL is received and taken. -/
theorem exec_ownRoll {s : State} {f : RxFrame} {m : RollMsg}
    (hown : isOwnAttempt s (wire kindRoll f) = true) (hp : f.prec = 0)
    (hm : readRoll f.payload = some m) (hn : f.station.toNat = s.own) :
    exec (.rollFrame f) s =
      .next (finish (takeRoll s.own m (completeOwn kindRoll (lineBusy s)))) := by
  show receive _ _ s = _
  rw [receive_content (contentOf_roll hp hm), frameArrives_own hown nofun, ← hn]
  rfl

/-- An own ROLL in ROLLCALL renews the station's own candidate and changes nothing else of the fault record or the
other candidates (R31). -/
theorem ownRoll_renews {s : State} {m : RollMsg} {c : Candidate} (hm : s.mode = .rollcall)
    (hn : s.own < 48) (ht : m.tag = s.settings.tag) (hc : candidate s s.own = some c)
    (hs : c.serial = m.serial) :
    let t := finish (takeRoll s.own m (completeOwn kindRoll (lineBusy s)))
    t.mode = .rollcall ∧ OtherFaultsKept s t .line ∧
      candidate t s.own = some (candidateOf s.timeBase s.own m) ∧
      ∀ j, j ≠ s.own → candidate t j = candidate s j := by
  generalize hv : completeOwn kindRoll (lineBusy s) = v
  intro t
  have hmode : v.mode = .rollcall := by rw [← hv]; exact hm
  have hsettings : v.settings = s.settings := by rw [← hv]; rfl
  have htime : v.timeBase = s.timeBase := by rw [← hv]; rfl
  have hroll : v.roll = s.roll := by rw [← hv]; rfl
  have hcand : candidate v s.own = some c := by rw [← hv]; exact hc
  have hfault : ∀ k, k ≠ .line → v.fault k = s.fault k := fun k hk => by
    rw [← hv, fault_completeOwn, if_neg hk]; rfl
  have htake : takeRoll s.own m v =
      setCandidates (insertCandidate (candidateOf s.timeBase s.own m) s.roll.candidates) v := by
    rw [takeRoll_rollcall hmode, rollInWindow_known hn (hsettings ▸ ht) hcand hs, htime, hroll]
  have hquiet : Quiet (takeRoll s.own m v) := by
    rw [htake]; exact quiet_of_eq (s := v) rfl ⟨by simp [hmode], by simp [hmode]⟩
  have hin : t.inner = (takeRoll s.own m v).inner := finish_quiet hquiet
  have hcands : t.roll.candidates =
      insertCandidate (candidateOf s.timeBase s.own m) s.roll.candidates := by
    have : t.roll = (takeRoll s.own m v).roll := congrArg Outer.roll (outer_finish _)
    rw [this, htake, roll_setCandidates]
  refine ⟨?_, fun j hj => ?_, ?_, fun j hj => ?_⟩
  · exact (congrArg Inner.mode hin).trans (by rw [htake]; exact hmode)
  · rw [hin, htake]; exact inner_faults_of_fault (hfault j hj)
  · unfold candidate; rw [hcands]; exact find_insertCandidate_same (candidateOf ..) _
  · unfold candidate; rw [hcands]; exact find_insertCandidate_other hj _

/-! ### An own POSE and the pose period (R12, R50) -/

/-- An own POSE is received and delivered. -/
theorem exec_ownPose {s : State} {f : RxFrame} {m : PoseMsg}
    (hown : isOwnAttempt s (wire kindPose f) = true) (hp : f.prec = 0)
    (hm : readPose f.payload = some m) :
    exec (.poseFrame f) s = .next (finish (deliver f.station.toNat (takePose f.station.toNat m)
      (completeOwn kindPose (lineBusy s)))) := by
  show receive _ _ s = _
  rw [receive_content (contentOf_pose hp hm), frameArrives_own hown nofun]
  rfl

/-- An own POSE is a sign of life only (R50). -/
theorem deliver_ownPose {s : State} (h₁ : s.mode ≠ .rollcall) (h₂ : s.mode ≠ .barred)
    (htable : s.table.isSome = true) (ht : TableOwn s) (m : PoseMsg) :
    deliver s.own (takePose s.own m) s = signOfLife s.own s := by
  have hmember : isMember s s.own = true := by
    obtain ⟨r, hr⟩ := rowOf_own ht htable
    exact List.any_eq_true.mpr ⟨r, List.mem_of_find?_eq_some hr, by simpa using List.find?_some hr⟩
  have hown : s.own = (signOfLife s.own s).own :=
    (congrArg (fun o : Outer => o.straps.number.val) (outer_signOfLife s.own s)).symm
  unfold deliver
  rw [if_neg (by simp [h₁, h₂]), if_pos hmember]
  exact if_pos hown

/-- Outside ROLLCALL a POSE request marks the slot, or the POSE after the one being sent (R12). -/
theorem requestPose_outside {s : State} (h : s.mode ≠ .rollcall) :
    requestPose s = { s with line := { s.line with
      posePending := s.line.posePending || !sendingKind s kindPose
      poseAgain := s.line.poseAgain || sendingKind s kindPose } } := by
  unfold requestPose
  rw [if_neg h]
  cases sendingKind s kindPose <;> simp

end Sys2Proof.Machine

open Sys2Proof Sys2Proof.Machine in
/-- Settles O19: an own frame leaves its place, and no act on it touches the places, a HALT that waits or the
condition of LINE. -/
theorem ownFrames : Obligations.OwnFrames := by
  refine ⟨fun s c w hf hown hc => ?_, fun s f m hown hp hm hn => ?_,
    fun s f m hown hp hm hn h₁ h₂ htable ht => ?_, fun s f m hown hp hm hb => ?_,
    fun s hd hm => ?_⟩
  · obtain ⟨u, hexec, hkept, hhalt⟩ := exec_own hf hown hc
    obtain ⟨hplaces, hslot, hactive⟩ := places_own hkept
    rw [if_neg (kind_ne_roll hf), if_neg (kind_ne_roll hf)] at hplaces
    simp only [State.linePlaces, Prod.mk.injEq] at hplaces
    obtain ⟨hattempt, hidle, hfailures, horder, hplan, hpending, hagain⟩ := hplaces
    exact ⟨_, hexec, hattempt, hidle, hfailures, horder, hplan,
      fun hk => haltSlot_own (hk ▸ hhalt hk), hslot, hpending, hagain, hactive⟩
  · have hkept := rollKept_takeRoll_own m (completeOwn kindRoll (lineBusy s))
    obtain ⟨hplaces, -, hactive⟩ := places_own hkept.line
    simp only [State.linePlaces, Prod.mk.injEq] at hplaces
    obtain ⟨hattempt, hidle, hfailures, horder, hplan, hpending, hagain⟩ := hplaces
    refine ⟨_, exec_ownRoll hown hp hm hn, hattempt, hidle, hfailures, hactive, hpending, hagain,
      (haltSlot_finish _).trans hkept.slot, horder, hplan, fun h₁ => ?_, fun a h₁ h₂ ha ht => ?_,
      fun c h hlt htag hc hs => ?_⟩
    · exact (congrArg Outer.roll (outer_finish _)).trans
        (roll_takeRoll_own (s := completeOwn kindRoll (lineBusy s)) h₁ m)
    · have hroll := ownRoll_takeRoll (s := completeOwn kindRoll (lineBusy s)) h₁ h₂ m
      have htable := congrArg Outer.table (outer_finish
        (takeRoll s.own m (completeOwn kindRoll (lineBusy s))))
      have hself := hroll.selfMarks ht (Option.isSome_iff_exists.mpr ⟨a, ha⟩)
      refine ⟨?_, fun j => (peerOf_of_table htable j).trans (hroll.peers ht j)⟩
      exact (congrArg (Option.map (·.selfMarks)) htable).trans
        (hself.trans (congrArg (Option.map fun a : PeerTable => heardMarks s a.selfMarks) ha))
    · exact ownRoll_renews h hlt htag hc hs
  · have hact := deliver_ownPose (s := completeOwn kindPose (lineBusy s)) h₁ h₂ htable ht m
    have hexec : exec (.poseFrame f) s =
        .next (finish (signOfLife s.own (completeOwn kindPose (lineBusy s)))) := by
      rw [exec_ownPose hown hp hm, hn]
      exact congrArg (fun u => Host.Outcome.next (finish u)) hact
    have hout := (outer_finish _).trans (outer_signOfLife s.own (completeOwn kindPose (lineBusy s)))
    have hpeers := lookup_own (s := completeOwn kindPose (lineBusy s)) ht
      (peerOf_signOfLife (s := completeOwn kindPose (lineBusy s)) ht s.own)
    have hkept := lineKept_signOfLife s.own (completeOwn kindPose (lineBusy s))
    have htab : (finish (signOfLife s.own (completeOwn kindPose (lineBusy s)))).table = _ :=
      congrArg Outer.table (outer_finish _)
    refine ⟨_, hexec, by rw [htab]; exact hout, fun j => (peerOf_of_table htab j).trans (hpeers j),
      (places_own hkept).2.2, fun hq => ?_⟩
    have hquiet : Quiet (signOfLife s.own (completeOwn kindPose (lineBusy s))) :=
      quiet_of_eq (s := s) (mode_signOfLife s.own _) hq
    have hline := line_signOfLife s.own (completeOwn kindPose (lineBusy s))
    have hin := finish_quiet hquiet
    exact ⟨(congrArg Inner.posePending hin).trans (congrArg Line.posePending hline),
      (congrArg Inner.poseAgain hin).trans (congrArg Line.poseAgain hline)⟩
  · have hexec := exec_ownPose hown hp hm
    have hact : deliver f.station.toNat (takePose f.station.toNat m)
        (completeOwn kindPose (lineBusy s)) = completeOwn kindPose (lineBusy s) := if_pos (.inr hb)
    rw [hact] at hexec
    have hquiet : Quiet (completeOwn kindPose (lineBusy s)) :=
      quiet_of_eq (s := s) rfl ⟨by simp [hb], by simp [hb]⟩
    have hin := finish_quiet hquiet
    refine ⟨_, hexec, outer_finish _, ?_, ?_, fun k hk => ?_⟩
    · rw [hin]; rfl
    · rw [fault_finish (k := .line) nofun nofun, fault_completeOwn, if_pos rfl]; rfl
    · rw [hin]; exact inner_faults_of_fault (by rw [fault_completeOwn, if_neg hk]; rfl)
  · have hexec : exec .posePeriodExpiry s = .next (finish (requestPose
        { s with line := { s.line with posePeriod := none } })) := if_pos hd
    rw [requestPose_outside (s := { s with line := { s.line with posePeriod := none } }) hm] at hexec
    exact ⟨_, hexec, outer_finish _, fun hc => finish_calm (calm_of_eq (s := s) rfl rfl hc)⟩

/-! ## The reset state and a write that completes (O2, O57) -/

namespace Sys2Proof.Machine

theorem motionSafe_reset : MotionSafe State.reset where
  drive := rfl
  source := rfl
  jogMode := fun h => absurd rfl h
  jogRest := fun h => absurd rfl h
  runMode := nofun
  runPawl := nofun
  jogPawl := nofun
  strokeShape := fun _ h => h.elim nofun nofun
  claimSlot := ⟨nofun, fun h => absurd rfl h⟩
  claimMode := nofun
  offerShape := nofun

/-- Every kind's record is clear at a start (R180). -/
theorem fault_replicate_clear {s : State} (h : s.faults = Vector.replicate 16 FaultRec.clear)
    (k : FaultKind) : s.fault k = FaultRec.clear := by
  unfold State.fault; rw [h]; exact Vector.getElem_replicate _

theorem bounded_reset : Bounded State.reset where
  travel := Nat.zero_le _
  restRef := Nat.zero_le _
  present := Nat.zero_le _
  staged := nofun
  restored := nofun
  candidates := ⟨List.pairwise_singleton _ _, by decide⟩
  candidateNumbers := fun _ c hc => by rw [List.mem_singleton.mp hc]; decide
  remaining := nofun
  orderQueue := Nat.zero_le _
  planQueue := Nat.zero_le _
  failures := Nat.zero_le _
  badFrames := Nat.zero_le _
  discarded := Nat.zero_le _
  discards := Nat.zero_le _
  withdrawals := Nat.zero_le _
  counts := fun k => by
    rw [fault_replicate_clear (s := State.reset) rfl]; exact ⟨Nat.zero_le _, Nat.zero_le _⟩
  flash := by decide
  staging := ⟨Nat.zero_le _, nofun⟩
  active := ⟨Nat.zero_le _, nofun⟩
  retained := ⟨contentFits_blank, contentFits_blank, nofun⟩

theorem tableExists_reset : TableExists State.reset := ⟨nofun, fun h => absurd rfl h.1⟩

theorem tableOwn_reset : TableOwn State.reset := nofun

theorem settled_reset : Settled State.reset := ⟨rfl, rfl, rfl, fun _ _ => rfl⟩

end Sys2Proof.Machine

open Sys2Proof Sys2Proof.Machine in
/-- Settles O2: the reset state's blocks meet each bound, and no table, motor, claim or notice is there. -/
theorem resetMeetsInvariants : Obligations.ResetMeetsInvariants :=
  ⟨motionSafe_reset, bounded_reset, tableExists_reset, tableOwn_reset, settled_reset⟩

open Sys2Proof Sys2Proof.Machine in
/-- Settles O57: the record takes what the write began with, and an owed rewrite begins with the present content. -/
theorem writeCompletes : Obligations.WriteCompletes := by
  intro s c hw
  have hexec : exec .writeCompletion s = .next (finish (completeWrite c s)) := by
    show execWriteCompletion s = _
    unfold execWriteCompletion; simp only [hw]
  have heq : completeWrite c s = { s with retained := { s.retained with
      record := c, marker := !s.retained.rewriteOwed
      writing := if s.retained.rewriteOwed then some s.retained.content else none
      rewriteOwed := false } } := by
    unfold completeWrite
    cases h : s.retained.rewriteOwed <;> simp [beginWrite]
  rw [heq] at hexec
  exact ⟨_, hexec, outer_finish _, fun hc => finish_calm (calm_of_eq (s := s) rfl rfl hc)⟩

/-! ## What a start finds (O11, O12) -/

namespace Sys2Proof.Machine

/-! ### The state that a start gives (R22, R29, R34) -/

/-- The state that START ends its own part with: the window open, or BARRED for an invalid strap. -/
def started (i : StartInputs) (s : State) : State :=
  let u := startTests i.encoder (startState i s)
  if 48 ≤ u.own then enterBarred u else openWindow u

theorem exec_start (i : StartInputs) (s : State) :
    exec (.start i) s = .next (finish (started i s)) := rfl

theorem started_valid {i : StartInputs} (s : State) (h : i.straps.number.val < 48) :
    ∃ u, FaultsOnly (startState i s) u ∧ started i s = openWindow u := by
  have htests := faultsOnly_startTests i.encoder (s := startState i s) rfl
  refine ⟨_, htests, if_neg ?_⟩
  rw [htests.own, own_startState]; exact Nat.not_le.mpr h

theorem started_invalid {i : StartInputs} (s : State) (h : 48 ≤ i.straps.number.val) :
    ∃ u, FaultsOnly (startState i s) u ∧ started i s = enterBarred u := by
  have htests := faultsOnly_startTests i.encoder (s := startState i s) rfl
  refine ⟨_, htests, if_pos ?_⟩
  rw [htests.own, own_startState]; exact h

/-- Neither the window nor BARRED changes the settings found (R24 to R26). -/
theorem settings_finish_started (i : StartInputs) (s : State) :
    (finish (started i s)).settings = startSettings s.settings.stored (i.straps.share = 0) := by
  refine (congrArg Outer.settings (outer_finish _)).trans ?_
  show (started i s).outer.settings = _
  by_cases h : i.straps.number.val < 48
  · obtain ⟨u, hu, he⟩ := started_valid s h
    rw [he, (openWindow_started hu).1]; rfl
  · obtain ⟨u, hu, he⟩ := started_invalid s (Nat.le_of_not_lt h)
    rw [he, (enterBarred_started hu).1]; rfl

/-! ### The values in force (R24 to R26) -/

/-- The ranges are no narrower than one value, and hold their defaults (R23). -/
theorem paramRow_ordered (k : Fin 20) :
    (paramRow k.val).low ≤ (paramRow k.val).dflt ∧ (paramRow k.val).dflt ≤ (paramRow k.val).high := by
  revert k; decide

/-- The range clamp takes the nearest value of the range, and the default for a spoilt copy (R24). -/
theorem clampParam_eq (k : Fin 20) (p : StoredParam) :
    clampParam (paramRow k.val) p =
      if p.ok then
        if p.value < (paramRow k.val).low then (paramRow k.val).low
        else if (paramRow k.val).high < p.value then (paramRow k.val).high
        else p.value
      else (paramRow k.val).dflt := by
  obtain ⟨h₁, h₂⟩ := paramRow_ordered k
  unfold clampParam
  split
  · split <;> [skip; split] <;> omega
  · rfl

/-- A value lies within its range after the range clamp (R24). -/
theorem clampParam_range (k : Fin 20) (p : StoredParam) :
    (paramRow k.val).low ≤ clampParam (paramRow k.val) p ∧
      clampParam (paramRow k.val) p ≤ (paramRow k.val).high := by
  obtain ⟨h₁, h₂⟩ := paramRow_ordered k
  unfold clampParam
  split <;> omega

/-- The settings-adjusted flag compares place by place (R24). -/
theorem differsFromStored_iff (stored : Vector StoredParam 20) (v : Settings) :
    differsFromStored stored v = true ↔
      ∃ k : Fin 20, stored[k].value ≠ (settingsList v).getD k.val 0 := by
  have hlen : (stored.toList.map (·.value)).length = (settingsList v).length := by simp [settingsList]
  have hget : ∀ k : Fin 20, (stored.toList.map (·.value)).getD k.val 0 = stored[k].value := by
    intro k; simp [List.getD_eq_getElem?_getD]
  rw [differsFromStored, bne_iff_ne, ← not_iff_not, not_not]
  push Not
  refine ⟨fun h k => by rw [← h, hget], fun h => List.ext_getElem hlen fun n h₁ h₂ => ?_⟩
  have hn : n < 20 := by simpa using h₁
  have := h ⟨n, hn⟩
  rw [← hget, List.getD_eq_getElem _ _ h₁, List.getD_eq_getElem _ _ h₂] at this
  exact this

/-- The config tag is the sum of the values, each times its number (R26). -/
theorem configTag_eq (v : Settings) :
    configTag v =
      (1 * v.m + 2 * v.cl + 3 * v.sl + 4 * v.l + 5 * v.a + 6 * v.n + 7 * v.d + 8 * v.gl + 9 * v.gs +
        10 * v.p + 11 * v.s + 12 * v.tst + 13 * v.tpw + 14 * v.trev + 15 * v.wc + 16 * v.wr +
        17 * v.b + 18 * v.wmin + 19 * v.rq + 20 * v.rmax) % 65536 := by
  unfold configTag settingsList
  simp only [List.mapIdx_cons, List.mapIdx_nil, List.sum_cons, List.sum_nil]
  refine congrArg (· % 65536) ?_
  omega

/-- The cross-clamps bring L, CL, SL, A, N and the gaps into order, from values within their ranges (R25). -/
theorem crossClamped_ordered {v : Settings} (hcl : 20 ≤ v.cl ∧ v.cl ≤ 2000) (hsl : v.sl ≤ 8000)
    (hl : 20 ≤ v.l) (ha : 1 ≤ v.a) (hn : 10 ≤ v.n) :
    let w := crossClamped v
    20 ≤ w.l ∧ w.l ≤ w.cl ∧ w.cl ≤ w.sl ∧ w.sl ≤ 8000 ∧ 1 ≤ w.a ∧ w.a < w.l / 2 ∧ 10 ≤ w.n ∧
      w.n ≤ w.cl ∧ w.gs ≤ w.gl := by
  simp only [crossClamped]
  omega

/-- The values in force are in order (R24, R25). -/
theorem inForce_ordered (stored : Vector StoredParam 20) :
    let w := crossClamped (rangeClamped stored)
    20 ≤ w.l ∧ w.l ≤ w.cl ∧ w.cl ≤ w.sl ∧ w.sl ≤ 8000 ∧ 1 ≤ w.a ∧ w.a < w.l / 2 ∧ 10 ≤ w.n ∧
      w.n ≤ w.cl ∧ w.gs ≤ w.gl :=
  crossClamped_ordered (clampParam_range 1 stored[1]) (clampParam_range 2 stored[2]).2
    (clampParam_range 3 stored[3]).1 (clampParam_range 4 stored[4]).1 (clampParam_range 5 stored[5]).1

/-- The five cross-clamps, value by value (R25). -/
theorem crossClamped_eq (v : Settings) :
    crossClamped v =
      { v with
        sl := if v.sl < v.cl then v.cl else v.sl
        l := if v.cl < v.l then v.cl else v.l
        a := if (if v.cl < v.l then v.cl else v.l) / 2 - 1 < v.a then
            (if v.cl < v.l then v.cl else v.l) / 2 - 1 else v.a
        n := if v.cl < v.n then v.cl else v.n
        gs := if v.gl < v.gs then v.gl else v.gs } := by
  have hmin : ∀ a b : Nat, min a b = if b < a then b else a := fun a b => by split <;> omega
  have hmax : ∀ a b : Nat, max a b = if a < b then b else a := fun a b => by split <;> omega
  simp only [crossClamped, hmin, hmax]

end Sys2Proof.Machine

open Sys2Proof Sys2Proof.Machine in
/-- Settles O11: neither the window nor BARRED changes the settings that `startSettings` makes of the stored copies. -/
theorem startFindsSettings : Obligations.StartFindsSettings := by
  intro i s v
  refine ⟨_, exec_start i s, ?_⟩
  have hset := settings_finish_started i s
  generalize finish (started i s) = t at hset
  have hcfg : t.cfg = crossClamped (rangeClamped s.settings.stored) :=
    congrArg SettingsMem.inForce hset
  have hord := inForce_ordered s.settings.stored
  have hchop : t.settings.chop = t.cfg.l / 2 := by rw [hcfg, hset]; rfl
  have htag : t.settings.tag = configTag t.cfg := by rw [hcfg, hset]; rfl
  have hadj : t.settings.adjusted = true ↔
      i.straps.share = 0 ∨
        ∃ k : Fin 20, s.settings.stored[k].value ≠ (settingsList t.cfg).getD k.val 0 := by
    rw [← differsFromStored_iff, hcfg, hset]
    simp [startSettings, or_comm]
  rw [← hcfg] at hord
  have hv : ∀ k : Fin 20, clampParam (paramRow k.val) s.settings.stored[k] = v k :=
    fun k => clampParam_eq k _
  simp only [rangeClamped, hv, crossClamped_eq] at hcfg
  have hl := congrArg Settings.l hcfg
  have ha : t.cfg.a = if t.cfg.l / 2 - 1 < v 4 then t.cfg.l / 2 - 1 else v 4 := by
    rw [hl]; exact congrArg Settings.a hcfg
  obtain ⟨h₁, h₂, h₃, h₄, h₅, h₆, h₇, h₈, h₉⟩ := hord
  exact ⟨(congrArg SettingsMem.stored hset).trans rfl, congrArg Settings.m hcfg, congrArg Settings.cl hcfg,
    congrArg Settings.d hcfg, congrArg Settings.gl hcfg, congrArg Settings.p hcfg,
    congrArg Settings.s hcfg, congrArg Settings.tst hcfg, congrArg Settings.tpw hcfg,
    congrArg Settings.trev hcfg, congrArg Settings.wc hcfg, congrArg Settings.wr hcfg,
    congrArg Settings.b hcfg, congrArg Settings.wmin hcfg, congrArg Settings.rq hcfg,
    congrArg Settings.rmax hcfg, congrArg Settings.sl hcfg, hl, ha, congrArg Settings.n hcfg,
    congrArg Settings.gs hcfg, hchop, htag.trans (configTag_eq t.cfg), hadj, h₁, h₂, h₃, h₄, h₅,
    hchop ▸ h₆, h₇, h₈, h₉⟩

namespace Sys2Proof.Machine

/-! ### The retained record (R42, R44) -/

/-- The record's stage lies beyond its own plan (R42). -/
theorem stageOutOfPlan_iff (c : RetContent) :
    stageOutOfPlan c = true ↔ ∃ z k, c.staged = some ⟨z, .stage k⟩ ∧ c.plan.length < k := by
  unfold stageOutOfPlan
  rcases c.staged with _ | ⟨z, k | _⟩ <;> simp

/-- What a start with a valid strap makes of settings memory, the plan and stage control (R42, R44). -/
theorem blocks_finish_started {i : StartInputs} (s : State) (h : i.straps.number.val < 48) :
    (finish (started i s)).retained = (startState i s).retained ∧
      (finish (started i s)).plan = (startState i s).plan ∧
      (finish (started i s)).stage = (startState i s).stage := by
  obtain ⟨u, hu, he⟩ := started_valid s h
  obtain ⟨hout, hmode, hret, -, -⟩ := openWindow_started hu
  have hstage : (openWindow u).stage = (startState i s).stage := by
    obtain ⟨_, _, _, rfl⟩ := hu; rfl
  have hin := finish_quiet (s := openWindow u) ⟨by simp [hmode], by simp [hmode]⟩
  rw [he]
  exact ⟨(congrArg Inner.retained hin).trans hret,
    (congrArg Outer.plan (outer_finish _)).trans (congrArg Outer.plan hout),
    (congrArg Inner.stage hin).trans hstage⟩

/-- A record read as valid is taken as the retained content, any other is left for a blank one (R42). -/
theorem content_startState (i : StartInputs) (s : State) :
    (startState i s).retained.content =
      if readsValid s.retained then s.retained.record else RetContent.blank := rfl

/-- The active bank comes from the retained content (R42). -/
theorem plan_startState {i : StartInputs} {s : State} {c : RetContent}
    (h : (startState i s).retained.content = c) :
    (startState i s).plan = ⟨[], false, c.plan, planTag c.plan⟩ := by
  rw [← h]; rfl

/-- Staged content is held without a lift until freeze (R42). -/
theorem stage_startState {i : StartInputs} {s : State} {c : RetContent}
    (h : (startState i s).retained.content = c) :
    (startState i s).stage = ⟨c.staged.elim .unstaged .restored, c.dir, false⟩ := by
  subst h
  unfold startState
  simp only []
  cases (startRetained s.retained).content.staged <;> rfl

end Sys2Proof.Machine

open Sys2Proof Sys2Proof.Machine in
/-- Settles O12: opening the window leaves settings memory, the plan and stage control as the start found them. -/
theorem startReadsRetained : Obligations.StartReadsRetained := by
  intro i s hi outOfPlan
  obtain ⟨hret, hplan, hstage⟩ := blocks_finish_started s hi
  have hvalid : readsValid s.retained = true ↔ s.retained.marker = true ∧ ¬ outOfPlan := by
    rw [readsValid, Bool.and_eq_true, Bool.not_eq_true', ← Bool.not_eq_true, stageOutOfPlan_iff]
  refine ⟨_, exec_start i s, congrArg Retained.writing hret, congrArg Retained.rewriteOwed hret,
    (congrArg Retained.marker hret).trans rfl, (congrArg Retained.record hret).trans rfl,
    fun hv => ?_, fun hv => ?_⟩
  · have hc := (content_startState i s).trans (if_pos (hvalid.mpr hv))
    rw [hret, hplan, hstage, hc, plan_startState hc, stage_startState hc]
    exact ⟨rfl, rfl, rfl, fun r hr => by rw [hr]; rfl, fun hn => by rw [hn]; rfl⟩
  · have hinvalid : ¬ readsValid s.retained = true := by
      rw [hvalid]
      rcases hv with hv | hv
      · simp [hv]
      · exact fun h => h.2 hv
    have hc := (content_startState i s).trans (if_neg hinvalid)
    rw [hret, hplan, hstage, hc, plan_startState hc, stage_startState hc]
    exact ⟨rfl, rfl, rfl⟩

/-! ## ROLL answers outside ROLLCALL (O24) -/

namespace Sys2Proof.Machine

/-! ### A ROLL received (R13, R17) -/

/-- A frame's reception at the line touches the line controller and the condition of LINE alone (R13, R15). -/
theorem frameArrives_eq (w : WireFrame) (s : State) :
    ∃ line faults, frameArrives w s = { s with line := line, faults := faults } := by
  unfold frameArrives
  split
  · exact ⟨_, _, rfl⟩
  · exact ⟨_, s.faults, rfl⟩

/-- A ROLL is received and goes where the mode has it go (R17). -/
theorem exec_rollFrame {f : RxFrame} {m : RollMsg} (s : State) (hp : f.prec = 0)
    (hm : readRoll f.payload = some m) :
    exec (.rollFrame f) s =
      .next (finish (takeRoll f.station.toNat m (frameArrives (wire kindRoll f) s))) := by
  show receive _ _ s = _
  rw [receive_content (contentOf_roll hp hm)]; rfl

/-! ### Answers (R38) -/

theorem takeRoll_barred {s : State} (h : s.mode = .barred) (n : Nat) (m : RollMsg) :
    takeRoll n m s = rollInBarred n m s := by unfold takeRoll; rw [h]

/-- A barred station recognises its candidates, or with an invalid strap every valid number (R38). -/
theorem recognisedBarred_iff (s : State) (n : Nat) :
    recognisedBarred s n = true ↔
      if 48 ≤ s.own then n < 48 else (candidate s n).isSome = true := by
  unfold recognisedBarred candidate
  split
  · simp
  · rw [List.find?_isSome, List.any_eq_true]

/-- An answer marks the ROLL slot or the roll-call unit, and nothing else (R38). -/
theorem answerRoll_inner (s : State) :
    (answerRoll s).inner = s.inner ∧ (answerRoll s).mode = s.mode := by
  unfold answerRoll
  cases s.roll.pacing with
  | none => rw [requestRoll_eq]; exact ⟨rfl, rfl⟩
  | some _ => exact ⟨rfl, rfl⟩

end Sys2Proof.Machine

open Sys2Proof Sys2Proof.Machine in
/-- Settles O24: what is owed is sent at the pacing expiry, and BARRED answers as `answerRoll` does. -/
theorem rollAnswersPaced : Obligations.RollAnswersPaced := by
  constructor
  · intro s hm hd
    by_cases ho : s.roll.answerOwed = true
    · have hexec : exec .rollPacingExpiry s = .next (finish (armPacing (requestRoll
          { s with roll := { s.roll with pacing := none, answerOwed := false } }))) :=
        (if_pos hd).trans (congrArg (fun x => Host.Outcome.next (finish x))
          ((if_neg hm).trans (if_pos ho)))
      rw [requestRoll_eq] at hexec
      refine ⟨_, hexec, fun hc => finish_calm (calm_of_eq (s := s) rfl rfl hc), ?_⟩
      rw [if_pos ho, outer_finish]; rfl
    · have hexec : exec .rollPacingExpiry s =
          .next (finish { s with roll := { s.roll with pacing := none } }) :=
        (if_pos hd).trans (congrArg (fun x => Host.Outcome.next (finish x))
          ((if_neg hm).trans (if_neg ho)))
      refine ⟨_, hexec, fun hc => finish_calm (calm_of_eq (s := s) rfl rfl hc), ?_⟩
      rw [if_neg ho, outer_finish]; rfl
  · intro s f m hb hp hm n u
    obtain ⟨line, faults, hu⟩ := frameArrives_eq (wire kindRoll f) s
    have hmode : u.mode = .barred := by rw [show u = _ from hu]; exact hb
    have hroll : u.roll = s.roll := by rw [show u = _ from hu]
    have htime : u.timeBase = s.timeBase := by rw [show u = _ from hu]
    have hown : u.own = s.own := by rw [show u = _ from hu]; rfl
    have hexec : exec (.rollFrame f) s = .next (finish (rollInBarred n m u)) := by
      rw [exec_rollFrame s hp hm, takeRoll_barred hmode]
    have hcand : candidate u n = candidate s n := by unfold candidate; rw [hroll]
    have hcond : (n ≠ u.own ∧ m.mode = .rollcall ∧ recognisedBarred u n = true) ↔
        (n ≠ s.own ∧ m.mode = .rollcall ∧
          if 48 ≤ s.own then n < 48 else (candidate s n).isSome = true) := by
      rw [recognisedBarred_iff, hown, hcand]
    have hquiet : Quiet u := ⟨by simp [hmode], by simp [hmode]⟩
    refine ⟨_, hexec, ?_, ?_⟩
    · unfold rollInBarred
      split
      · obtain ⟨hin, hm'⟩ := answerRoll_inner u
        rw [finish_quiet (quiet_of_eq hm' hquiet), hin]
      · exact finish_quiet hquiet
    · rw [outer_finish]
      unfold rollInBarred
      by_cases h : n ≠ u.own ∧ m.mode = .rollcall ∧ recognisedBarred u n = true
      · rw [if_pos h, if_pos (hcond.mp h), outer_answerRoll, hroll, htime]
      · rw [if_neg h, if_neg (fun e => h (hcond.mpr e))]

/-! ## The roll window (O20, O21)

The entry to BARRED, and what it and an occurrence in ROLLCALL leave as it stands. -/

namespace Sys2Proof.Machine

/-! ### What stopping motion leaves alone (R132, R134, R140, R144) -/

/-- What the ends of strokes, jogs and claims and a set command keep: stage, retained content, mode control, the
ceiling unit's outcome and offer, and a pending POSE. -/
structure MotionOnly (s t : State) : Prop where
  stage : t.stage = s.stage
  retained : t.retained = s.retained
  modeCtl : t.modeCtl = s.modeCtl
  outcome : t.ceiling.outcome = s.ceiling.outcome
  offer : t.spacing.offer = s.spacing.offer
  pose : s.line.posePending = true → t.line.posePending = true

theorem MotionOnly.refl (s : State) : MotionOnly s s := ⟨rfl, rfl, rfl, rfl, rfl, id⟩

section
variable {s t : State}

theorem motionOnly_notify (h : MotionOnly s t) : MotionOnly s (notify t) := { h with }

theorem motionOnly_requestPose (h : MotionOnly s t) : MotionOnly s (requestPose t) := by
  unfold requestPose
  split
  · exact h
  · split
    · exact { h with }
    · exact { h with pose := fun _ => rfl }

theorem motionOnly_stopRun (d : Direction) (h : MotionOnly s t) : MotionOnly s (stopRun d t) := by
  unfold stopRun
  exact motionOnly_requestPose (motionOnly_notify { h with })

theorem motionOnly_abortStroke (h : MotionOnly s t) : MotionOnly s (abortStroke t) := by
  unfold abortStroke
  split
  · exact motionOnly_stopRun _ h
  · exact h

theorem motionOnly_cutStroke (h : MotionOnly s t) : MotionOnly s (cutStroke t) := by
  unfold cutStroke
  split
  · split
    · exact motionOnly_stopRun _ h
    · exact h
  · exact h

theorem motionOnly_shortStop (h : MotionOnly s t) : MotionOnly s (shortStop t) := by
  unfold shortStop
  split
  · exact motionOnly_requestPose (motionOnly_notify { h with })
  · exact h

theorem motionOnly_causeOfWithdrawal (h : MotionOnly s t) : MotionOnly s (causeOfWithdrawal t) := by
  unfold causeOfWithdrawal requestWithdrawal
  split
  · split
    · exact h
    all_goals exact { h with }
  · exact h

theorem motionOnly_setPawl (w : Pawl) (h : MotionOnly s t) : MotionOnly s { t with pawl := w } :=
  { h with }

theorem motionOnly_dropJog (h : MotionOnly s t) : MotionOnly s (dropJog t) := { h with }

theorem motionOnly_engineOnPawl (p : PawlState) (h : MotionOnly s t) :
    MotionOnly s (engineOnPawl p t) := by
  unfold engineOnPawl
  split
  · split
    · exact { h with }
    · exact h
  · simp only []
    split
    · exact motionOnly_dropJog (motionOnly_setPawl _ (motionOnly_cutStroke h))
    · exact motionOnly_cutStroke h

theorem motionOnly_reportPawl (p : PawlState) (h : MotionOnly s t) :
    MotionOnly s (reportPawl p t) := by
  have h' := motionOnly_engineOnPawl p (motionOnly_causeOfWithdrawal (motionOnly_requestPose
    (motionOnly_notify (motionOnly_setPawl { t.pawl with state := p } h))))
  unfold reportPawl
  simp only []
  split
  · exact { h' with }
  · exact h'

theorem motionOnly_pawlSet (h : MotionOnly s t) : MotionOnly s (pawlSet t) := by
  have h' := motionOnly_setPawl { t.pawl with pendingWithdraw := false } h
  have hset := motionOnly_reportPawl .setting (motionOnly_setPawl
    { t.pawl with
      pendingWithdraw := false, commanded := .set, limit := armed t.timeBase (10 * t.cfg.tpw) } h)
  unfold pawlSet
  simp only []
  split
  · exact h'
  · exact h'
  · split
    · exact motionOnly_reportPawl _ (motionOnly_setPawl _ hset)
    · exact hset
  · exact hset
  · exact motionOnly_setPawl _ h'

theorem motionOnly_endJog (h : MotionOnly s t) : MotionOnly s (endJog t) := by
  unfold endJog
  split
  · exact h
  · split
    · exact motionOnly_pawlSet (motionOnly_dropJog h)
    · exact motionOnly_dropJog h

end

/-! ### Settling with the ceiling unit IDLE (R86) -/

/-- The ceiling unit is IDLE with no offer. -/
def CeilingIdle (s : State) : Prop := s.ceiling.outcome = .idle ∧ s.spacing.offer = none

/-- Outside MOVING and SETTLED an idle ceiling unit stays idle. -/
theorem ceilingIdle_finish {s : State} (hq : Quiet s) (h : CeilingIdle s) : CeilingIdle (finish s) := by
  have hreaders : ∀ t : State, Quiet t → CeilingIdle (readers t) := by
    intro t ht
    have hmode : (shareEval t).mode = t.mode := congrArg Inner.mode (inner_shareEval ht).1
    have hq' : Quiet (shareEval t) := quiet_of_eq hmode ht
    unfold readers evaluate
    rw [awaitTest_quiet hq', restTest_quiet hq', if_neg hq'.1]
    exact ⟨rfl, rfl⟩
  have hsettle : ∀ (n : Nat) (t : State), Quiet t → CeilingIdle t → CeilingIdle (settle n t) := by
    intro n
    induction n with
    | zero => exact fun _ _ h => h
    | succ n ih =>
      intro t ht hi
      unfold settle
      split
      · have hmode := congrArg Inner.mode (readers_quiet (s := { t with notice := false }) ht).1
        exact ih _ (quiet_of_eq (s := t) hmode ht) (hreaders _ ht)
      · exact hi
  have hs := hsettle settleRounds s hq h
  unfold finish armBusy
  split <;> exact hs

/-! ### Entry to BARRED (R34) -/

theorem record_enterBarred (s : State) : (enterBarred s).record = s.record := by
  unfold enterBarred
  simp only [record_pawlSet, record_ceilingIdle]
  exact record_setMode _ _

/-- A set command to a pawl that is SET or SETTING ends a pending withdraw and moves nothing (R144). -/
theorem pawlSet_still {s : State} (h : s.pawl.state = .set ∨ s.pawl.state = .setting) :
    (pawlSet s).pawl = { s.pawl with pendingWithdraw := false } ∧ (pawlSet s).engine = s.engine := by
  unfold pawlSet
  rcases h with h | h <;> simp [h]

/-- The state before the set command of an entry to BARRED. -/
def barredBeforePawl (s : State) : State :=
  ceilingIdle (beginPose (setMode .barred
    { closeWindow s with
      table := none, stage := { record := .unstaged, dir := .none, awaitingSet := false } }))

theorem enterBarred_eq (s : State) : enterBarred s = pawlSet (barredBeforePawl s) := rfl

/-- A change of mode writes the mode, stage control's wait, the POSE marks and the notice (R82, R166). -/
theorem setMode_eq (m : Mode) (s : State) :
    ∃ a b, setMode m s =
      { s with
        modeCtl := { s.modeCtl with mode := m }
        stage := { s.stage with awaitingSet := false }
        line := { s.line with posePending := a, poseAgain := b }
        notice := true } := by
  obtain ⟨a, b, h⟩ := requestPose_eq (notify { s with
    modeCtl := { s.modeCtl with mode := m }
    stage := { s.stage with awaitingSet := false } })
  exact ⟨a, b, h⟩

theorem barredBeforePawl_eq (s : State) :
    ∃ b, barredBeforePawl s = ceilingIdle
      { s with
        roll := { s.roll with quiet := none, limit := none }
        table := none
        stage := ⟨.unstaged, .none, false⟩
        modeCtl := { s.modeCtl with mode := .barred }
        line := { s.line with
          posePending := true, poseAgain := b, posePeriod := armed s.timeBase (10 * s.cfg.p) }
        notice := true } := by
  obtain ⟨a, b, h⟩ := setMode_eq .barred { closeWindow s with
    table := none, stage := { record := .unstaged, dir := .none, awaitingSet := false } }
  exact ⟨b, by unfold barredBeforePawl; rw [h]; rfl⟩

theorem entersBarred_enterBarred (s : State) : EntersBarred s (enterBarred s) := by
  have hkept := motionOnly_pawlSet (.refl (barredBeforePawl s))
  have hmodeCtl := hkept.modeCtl
  have hpawl := pawlSet_still (s := barredBeforePawl s)
  have hrecord := record_enterBarred s
  rw [enterBarred_eq] at hrecord ⊢
  obtain ⟨b, hb⟩ := barredBeforePawl_eq s
  rw [hb] at hkept hmodeCtl hpawl hrecord ⊢
  exact
    { mode := congrArg ModeCtl.mode hmodeCtl
      stage := hkept.stage
      retained := hkept.retained
      pose := hkept.pose rfl
      ceiling := hkept.outcome
      offer := hkept.offer
      haltSlot := haltSlot_of_record hrecord
      lastStop := (congrArg ModeCtl.lastStop hmodeCtl).trans rfl
      pawl := hpawl }

/-- An entry to BARRED is one from any state with the same retained content, HALT slot, stop record, pawl and
engine. -/
theorem EntersBarred.of_blocks {s w t : State} (h : EntersBarred w t)
    (hretained : w.retained = s.retained) (hslot : w.line.haltSlot = s.line.haltSlot)
    (hstop : w.modeCtl.lastStop = s.modeCtl.lastStop) (hpawl : w.pawl = s.pawl)
    (hengine : w.engine = s.engine) :
    EntersBarred s t where
  mode := h.mode
  stage := h.stage
  retained := h.retained.trans hretained
  pose := h.pose
  ceiling := h.ceiling
  offer := h.offer
  haltSlot := h.haltSlot.trans hslot
  lastStop := h.lastStop.trans hstop
  pawl hs := hpawl ▸ hengine ▸ h.pawl (hpawl.symm ▸ hs)

/-- The outer part of a state as an entry to BARRED leaves it (R12, R34). -/
def barredOuter (s : State) : Outer :=
  { s.outer with
    roll := { s.roll with quiet := none, limit := none }
    table := none
    posePeriod := armed s.timeBase (10 * s.cfg.p) }

theorem outer_enterBarred (s : State) : (enterBarred s).outer = barredOuter s := by
  obtain ⟨b, hb⟩ := barredBeforePawl_eq s
  rw [enterBarred_eq, outer_pawlSet, hb]; rfl

/-- A command that ends in an entry to BARRED ends with what the entry brought about. -/
theorem finish_enterBarred (s : State) :
    EntersBarred s (finish (enterBarred s)) ∧ (finish (enterBarred s)).outer = barredOuter s ∧
      FaultsKept s (finish (enterBarred s)) := by
  have h := entersBarred_enterBarred s
  have hq : Quiet (enterBarred s) := ⟨by simp [h.mode], by simp [h.mode]⟩
  have hin := finish_quiet hq
  obtain ⟨hceiling, hoffer⟩ := ceilingIdle_finish hq ⟨h.ceiling, h.offer⟩
  refine ⟨?_, (outer_finish _).trans (outer_enterBarred s), ?_⟩
  · exact
      { mode := (congrArg Inner.mode hin).trans h.mode
        stage := (congrArg Inner.stage hin).trans h.stage
        retained := (congrArg Inner.retained hin).trans h.retained
        pose := (congrArg Inner.posePending hin).trans h.pose
        ceiling := hceiling
        offer := hoffer
        haltSlot := (congrArg Inner.haltSlot hin).trans h.haltSlot
        lastStop := (congrArg Inner.lastStop hin).trans h.lastStop
        pawl := fun hp =>
          ⟨(congrArg Inner.pawl hin).trans (h.pawl hp).1,
            (congrArg Inner.engine hin).trans (h.pawl hp).2⟩ }
  · funext k
    rw [hin]; exact inner_faults_of_fault (fault_of_record (record_enterBarred s) k)

/-! ### Occurrences of the roll class in ROLLCALL (R181) -/

/-- In ROLLCALL an occurrence that is not of the halt class writes the fault record and the notice alone. -/
theorem report_rollcall {k : FaultKind} (hk : haltClass k = false) (n : Option Nat) {s : State}
    (hm : s.mode = .rollcall) :
    ∃ faults notice, report k n s = { s with faults := faults, notice := notice } := by
  obtain ⟨faults, slot, notice, h⟩ := faultsOnly_report k n hm
  have hslot := haltSlot_otherReport hk n s
  rw [h] at hslot
  have : slot = s.line.haltSlot := hslot
  subst this
  exact ⟨faults, notice, h⟩

theorem haltClass_of_rollClass {k : FaultKind} (h : rollClass k = true) :
    haltClass k = false ∧ k ≠ .loadShare ∧ k ≠ .travelLimit := by
  revert h; cases k <;> decide

/-- The record that an occurrence in a state writes (R181). -/
theorem fault_report_same (k : FaultKind) (n : Option Nat) (s : State) :
    (report k n s).fault k = recordAfter s k (s.active k) n := by
  rw [fault_report, if_pos rfl, occurred_eq, placeNow_eq]; rfl

/-- A command that ends in a roll-class occurrence in ROLLCALL changes the record of that kind alone. -/
theorem finish_report_rollcall {k : FaultKind} (hk : rollClass k = true) (n : Option Nat) {s : State}
    (hm : s.mode = .rollcall) :
    (finish (report k n s)).outer = s.outer ∧
      (finish (report k n s)).inner =
        { s.inner with faults := (finish (report k n s)).inner.faults } ∧
      (finish (report k n s)).fault k = recordAfter s k (s.active k) n ∧
      OtherFaultsKept s (finish (report k n s)) k := by
  obtain ⟨hhalt, hk₁, hk₂⟩ := haltClass_of_rollClass hk
  have hf := fault_report_same k n s
  have hother : ∀ j, j ≠ k → (report k n s).fault j = s.fault j :=
    fun j hj => by rw [fault_report, if_neg hj]
  obtain ⟨faults, notice, h⟩ := report_rollcall hhalt n hm
  have hin := finish_quiet (s := report k n s) (by
    rw [h]; exact quiet_of_eq (s := s) rfl ⟨by simp [hm], by simp [hm]⟩)
  refine ⟨(outer_finish _).trans (outer_report k n s), ?_, (fault_finish hk₁ hk₂ _).trans hf, ?_⟩
  · rw [hin, h]; rfl
  · intro j hj
    rw [hin]; exact inner_faults_of_fault (hother j hj)

/-- A command that ends in BARRED by a roll-class occurrence in ROLLCALL (R34). -/
theorem finish_barredBy {k : FaultKind} (hk : rollClass k = true) (n : Option Nat) {s : State}
    (hm : s.mode = .rollcall) :
    EntersBarred s (finish (enterBarred (report k n s))) ∧
      (finish (enterBarred (report k n s))).outer = barredOuter s ∧
      (finish (enterBarred (report k n s))).fault k = recordAfter s k (s.active k) n ∧
      OtherFaultsKept s (finish (enterBarred (report k n s))) k := by
  obtain ⟨hhalt, hk₁, hk₂⟩ := haltClass_of_rollClass hk
  have hf := fault_report_same k n s
  have hother : ∀ j, j ≠ k → (report k n s).fault j = s.fault j :=
    fun j hj => by rw [fault_report, if_neg hj]
  obtain ⟨hbar, hout, hfaults⟩ := finish_enterBarred (report k n s)
  have hrec : (finish (enterBarred (report k n s))).fault k = (report k n s).fault k := by
    rw [fault_finish hk₁ hk₂]; exact fault_of_record (record_enterBarred _) k
  refine ⟨?_, ?_, hrec.trans hf, fun j hj => ?_⟩
  · obtain ⟨faults, notice, h⟩ := report_rollcall hhalt n hm
    rw [h] at hbar ⊢
    exact hbar.of_blocks rfl rfl rfl rfl rfl
  · rw [hout]
    obtain ⟨faults, notice, h⟩ := report_rollcall hhalt n hm
    rw [h]; rfl
  · rw [congrFun hfaults j]; exact inner_faults_of_fault (hother j hj)

end Sys2Proof.Machine

namespace Sys2Proof.Machine

/-! ### The cases of R31 -/

/-- A number or a tag that cannot be is CONFIG_MISMATCH. -/
theorem rollInWindow_mismatch {n : Nat} {m : RollMsg} {s : State}
    (h : 48 ≤ n ∨ m.tag ≠ s.settings.tag) :
    rollInWindow n m s = report .configMismatch (some n) s := by
  unfold rollInWindow
  by_cases hn : 48 ≤ n
  · exact if_pos hn
  · rw [if_neg hn, if_pos (h.resolve_left hn)]

/-- A known number with another serial is DUPLICATE. -/
theorem rollInWindow_duplicate {n : Nat} {m : RollMsg} {s : State} {c : Candidate} (hn : n < 48)
    (ht : m.tag = s.settings.tag) (hc : candidate s n = some c) (hs : c.serial ≠ m.serial) :
    rollInWindow n m s = report .duplicate (some n) s := by
  unfold rollInWindow
  rw [if_neg (Nat.not_le.mpr hn), if_neg (not_not.mpr ht), hc]
  exact if_neg hs

/-- The state with a candidate put in its place. -/
def withCandidate (n : Nat) (m : RollMsg) (s : State) : State :=
  setCandidates (insertCandidate (candidateOf s.timeBase n m) s.roll.candidates) s

theorem length_insertCandidate {c : Candidate} {cs : List Candidate}
    (h : cs.find? (fun d => d.number == c.number) = none) :
    (insertCandidate c cs).length = cs.length + 1 := by
  induction cs with
  | nil => rfl
  | cons d ds ih =>
    have hd : c.number ≠ d.number := fun e => by
      simpa [e] using List.find?_eq_none.mp h d List.mem_cons_self
    have hds : ds.find? (fun d => d.number == c.number) = none :=
      List.find?_eq_none.mpr fun x hx => List.find?_eq_none.mp h x (List.mem_cons_of_mem _ hx)
    unfold insertCandidate
    rw [if_neg hd]
    split
    · rfl
    · rw [List.length_cons, ih hds, List.length_cons]

/-- A new number joins the candidates and arms the quiet compare anew; one above M is MEMBER_COUNT and bars the
station. -/
theorem rollInWindow_new {n : Nat} {m : RollMsg} {s : State} (hn : n < 48)
    (ht : m.tag = s.settings.tag) (hc : candidate s n = none) :
    rollInWindow n m s =
      if s.cfg.m < s.roll.candidates.length + 1 then
        enterBarred (report .memberCount none (armQuiet (withCandidate n m s)))
      else armQuiet (withCandidate n m s) := by
  have hlen : (insertCandidate (candidateOf s.timeBase n m) s.roll.candidates).length =
      s.roll.candidates.length + 1 := length_insertCandidate hc
  unfold rollInWindow
  rw [if_neg (Nat.not_le.mpr hn), if_neg (not_not.mpr ht), hc, ← hlen]
  rfl

/-- The candidates after a ROLL in ROLLCALL: as they were, or with the sender's entry in its place. -/
theorem candidates_rollInWindow (n : Nat) (m : RollMsg) (s : State) :
    (rollInWindow n m s).roll.candidates = s.roll.candidates ∨
      (rollInWindow n m s).roll.candidates =
        insertCandidate (candidateOf s.timeBase n m) s.roll.candidates := by
  have reported : ∀ (k : FaultKind) (q : Option Nat) (t : State), (report k q t).roll = t.roll :=
    fun k q t => congrArg Outer.roll (outer_report k q t)
  by_cases h : 48 ≤ n ∨ m.tag ≠ s.settings.tag
  · rw [rollInWindow_mismatch h, reported]; exact .inl rfl
  · obtain ⟨hn, ht⟩ := not_or.mp h
    have hn := Nat.lt_of_not_le hn
    have ht := not_not.mp ht
    cases hc : candidate s n with
    | none =>
      rw [rollInWindow_new hn ht hc]
      split
      · refine .inr ((congrArg (·.roll.candidates) (outer_enterBarred _)).trans ?_)
        show (report _ _ _).roll.candidates = _
        rw [reported]; rfl
      · exact .inr rfl
    | some c =>
      by_cases hs : c.serial = m.serial
      · rw [rollInWindow_known hn ht hc hs]; exact .inr rfl
      · rw [rollInWindow_duplicate hn ht hc hs, reported]; exact .inl rfl

/-- A sender's entry in its place is seen under its number alone. -/
theorem candidate_inserted {s t : State} {n : Nat} {m : RollMsg} {now : Time}
    (h : t.roll.candidates = insertCandidate (candidateOf now n m) s.roll.candidates) :
    candidate t n = some (candidateOf now n m) ∧ ∀ j, j ≠ n → candidate t j = candidate s j := by
  unfold candidate
  rw [h]
  exact ⟨find_insertCandidate_same (candidateOf now n m) _,
    fun j hj => find_insertCandidate_other (c := candidateOf now n m) hj _⟩

/-! ### The record of an occurrence after a frame's reception (R13, R181) -/

theorem fault_frameArrives {k : FaultKind} (hk : k ≠ .line) (w : WireFrame) (s : State) :
    (frameArrives w s).fault k = s.fault k := by
  unfold frameArrives
  split
  · rw [fault_completeOwn, if_neg hk]; rfl
  · rfl

theorem recordAfter_frameArrives {k : FaultKind} (hk : k ≠ .line) (w : WireFrame) (s : State)
    (n : Option Nat) :
    recordAfter (frameArrives w s) k ((frameArrives w s).active k) n =
      recordAfter s k (s.active k) n := by
  have hf := fault_frameArrives hk w s
  obtain ⟨line, faults, hu⟩ := frameArrives_eq w s
  have hplace : columnPlace (frameArrives w s) = columnPlace s := by rw [hu]; rfl
  have htime : (frameArrives w s).timeBase = s.timeBase := by rw [hu]
  unfold recordAfter recordAfterAt
  rw [active_of_fault hf, hf, hplace, htime]

end Sys2Proof.Machine

open Sys2Proof Sys2Proof.Machine in
/-- Settles O20, case by case of R31: what `rollInWindow` makes of the state with the frame received. -/
theorem rollInWindow : Obligations.RollInWindow := by
  intro s f m hm hp hread n u entry
  obtain ⟨line, faults, hu⟩ := frameArrives_eq (wire kindRoll f) s
  have hmode : u.mode = .rollcall := by rw [show u = _ from hu]; exact hm
  have hroll : u.roll = s.roll := by rw [show u = _ from hu]
  have htime : u.timeBase = s.timeBase := by rw [show u = _ from hu]
  have hsettings : u.settings = s.settings := by rw [show u = _ from hu]
  have hcand : candidate u n = candidate s n := by unfold candidate; rw [hroll]
  have hcfg : u.cfg = s.cfg := by unfold State.cfg; rw [hsettings]
  have hquiet : Quiet u := ⟨by simp [hmode], by simp [hmode]⟩
  have hexec : exec (.rollFrame f) s = .next (finish (Machine.rollInWindow n m u)) := by
    rw [exec_rollFrame s hp hread, takeRoll_rollcall hmode]
  have hcands : (finish (Machine.rollInWindow n m u)).roll.candidates =
      (Machine.rollInWindow n m u).roll.candidates := congrArg (·.roll.candidates) (outer_finish _)
  refine ⟨_, hexec, fun j hj => ?_, fun h => ?_, fun c hn ht hc hs => ?_, fun c hn ht hc hs => ?_,
    fun hn ht hc => ?_⟩
  · rcases candidates_rollInWindow n m u with h | h
    · unfold candidate; rw [hcands, h, hroll]
    · exact (candidate_inserted (s := s) ((hcands.trans h).trans (by rw [hroll]))).2 j hj
  · rw [rollInWindow_mismatch (hsettings ▸ h)]
    obtain ⟨hout, hin, hfault, hother⟩ :=
      finish_report_rollcall (k := .configMismatch) rfl (some n) hmode
    exact ⟨hout, hin, hfault.trans (recordAfter_frameArrives (k := .configMismatch) nofun _ s _), hother⟩
  · rw [rollInWindow_duplicate hn (hsettings ▸ ht) (hcand.trans hc) hs]
    obtain ⟨hout, hin, hfault, hother⟩ := finish_report_rollcall (k := .duplicate) rfl (some n) hmode
    exact ⟨hout, hin, hfault.trans (recordAfter_frameArrives (k := .duplicate) nofun _ s _), hother⟩
  · rw [rollInWindow_known hn (hsettings ▸ ht) (hcand.trans hc) hs] at hcands ⊢
    have hins : (finish (withCandidate n m u)).roll.candidates =
        insertCandidate (candidateOf s.timeBase n m) s.roll.candidates :=
      hcands.trans (by rw [htime, hroll]; rfl)
    refine ⟨(candidate_inserted hins).1, ?_, finish_quiet (s := withCandidate n m u) hquiet⟩
    rw [hcands, outer_finish, ← hroll]; rfl
  · rw [rollInWindow_new hn (hsettings ▸ ht) (hcand.trans hc), hcfg, hroll] at hcands ⊢
    let w := armQuiet (withCandidate n m u)
    have hw : w.roll.candidates = insertCandidate (candidateOf s.timeBase n m) s.roll.candidates := by
      rw [← htime, ← hroll]; rfl
    by_cases hM : s.cfg.m < s.roll.candidates.length + 1
    · rw [if_pos hM] at hcands ⊢
      obtain ⟨hbar, hout, hfault, hother⟩ :=
        finish_barredBy (k := .memberCount) rfl none (s := w) hmode
      have ht : (finish (enterBarred (report .memberCount none w))).roll.candidates =
          w.roll.candidates := congrArg (·.roll.candidates) hout
      refine ⟨(candidate_inserted (ht.trans hw)).1, ?_, fun h => absurd hM (Nat.not_lt.mpr h),
        fun _ => ⟨?_, ?_, ?_, hother⟩⟩
      · rw [ht, hw]; exact length_insertCandidate hc
      · exact hbar.of_blocks rfl rfl rfl rfl rfl
      · rw [ht, hout, ← hroll, ← htime, ← hcfg]; rfl
      · exact hfault.trans (recordAfter_frameArrives (k := .memberCount) nofun _ s _)
    · rw [if_neg hM] at hcands ⊢
      have ht := hcands.trans hw
      refine ⟨(candidate_inserted ht).1, ?_, fun _ => ⟨?_, ?_⟩, fun h => absurd h hM⟩
      · rw [ht]; exact length_insertCandidate hc
      · exact finish_quiet (s := w) hquiet
      · rw [hcands, outer_finish, ← hroll, ← htime, ← hcfg]; rfl

open Sys2Proof Sys2Proof.Machine in
/-- Settles O21: short of M the quiet expiry leaves the window as it is, and else both expiries enter BARRED. -/
theorem rollWindowCloses : Obligations.RollWindowCloses := by
  intro s hm barred
  refine ⟨fun hd => ?_, fun hd => ?_⟩
  · let w : State := { s with roll := { s.roll with quiet := none } }
    have hexec : exec .rollQuietExpiry s = .next (finish
        (if w.mode = .rollcall ∧ w.roll.candidates.length = w.cfg.m then
          if rollFaultLatched w then enterBarred w else freeze w
        else w)) := if_pos hd
    refine ⟨_, hexec, fun hlt => ?_, fun heq hl => ?_⟩
    · rw [if_neg (fun h => (Nat.ne_of_lt hlt) h.2)]
      exact ⟨outer_finish _, finish_quiet (quiet_of_eq (s := s) rfl ⟨by simp [hm], by simp [hm]⟩)⟩
    · have hlatched : rollFaultLatched w = true := by
        obtain ⟨k, hk, hs⟩ : ∃ k, rollClass k = true ∧ s.latched k = true := by
          rcases hl with h | h | h | h <;> exact ⟨_, rfl, h⟩
        exact List.any_eq_true.mpr ⟨k, mem_allKinds k, by rw [hk]; exact hs⟩
      rw [if_pos ⟨hm, heq⟩, if_pos hlatched]
      obtain ⟨hbar, hout, hfaults⟩ := finish_enterBarred w
      exact ⟨hbar.of_blocks rfl rfl rfl rfl rfl, hout, hfaults⟩
  · let w : State := { s with roll := { s.roll with limit := none } }
    have hexec : exec .rollLimitExpiry s =
        .next (finish (enterBarred (report .memberCount none w))) :=
      (if_pos hd).trans (congrArg (fun x => Host.Outcome.next (finish x)) (if_pos hm))
    obtain ⟨hbar, hout, hfault, hother⟩ :=
      finish_barredBy (k := .memberCount) rfl none (s := w) hm
    exact ⟨_, hexec, hbar.of_blocks rfl rfl rfl rfl rfl, hout, hfault, hother⟩

/-! ## Freeze (O22) -/

namespace Sys2Proof.Machine

/-! ### Entries to HOLD, HALTED and UNSTAGED (R166) -/

/-- What an entry to HOLD or HALTED makes of mode control, stage control and the retained content. -/
structure Entered (m : Mode) (s t : State) : Prop where
  modeCtl : t.modeCtl = { s.modeCtl with mode := m }
  stage : t.stage = { s.stage with awaitingSet := false }
  retained : t.retained = s.retained

/-- What stops motion after a change of mode changes none of them. -/
theorem entered_of_motion {m : Mode} {s t : State} (h : MotionOnly (setMode m s) t) :
    Entered m s (pawlSet (ceilingIdle t)) := by
  have hpawl := motionOnly_pawlSet (.refl (ceilingIdle t))
  obtain ⟨a, b, hm⟩ := setMode_eq m s
  exact
    { modeCtl := hpawl.modeCtl.trans (h.modeCtl.trans (by rw [hm]))
      stage := hpawl.stage.trans (h.stage.trans (by rw [hm]))
      retained := hpawl.retained.trans (h.retained.trans (by rw [hm])) }

theorem entered_enterHold (s : State) : Entered .hold s (enterHold s) :=
  entered_of_motion (motionOnly_causeOfWithdrawal (motionOnly_shortStop (.refl _)))

theorem entered_enterHalted (s : State) : Entered .halted s (enterHalted s) :=
  entered_of_motion (motionOnly_causeOfWithdrawal (motionOnly_abortStroke (motionOnly_endJog (.refl _))))

/-- New content handed over writes settings memory alone (R41). -/
theorem handRetained_eq (s : State) : ∃ r, handRetained s = { s with retained := r } := by
  unfold handRetained
  simp only []
  split
  · exact ⟨_, rfl⟩
  · exact ⟨_, rfl⟩

/-- An entry to UNSTAGED leaves no direction (R78). -/
theorem enterUnstaged_stage (s : State) :
    (enterUnstaged s).modeCtl = { s.modeCtl with mode := .unstaged } ∧
      (enterUnstaged s).stage = ⟨s.stage.record, .none, false⟩ := by
  obtain ⟨a, b, hm⟩ := setMode_eq .unstaged s
  obtain ⟨r, hr⟩ := handRetained_eq { setMode .unstaged s with
    stage := { (setMode .unstaged s).stage with dir := .none } }
  unfold enterUnstaged
  simp only []
  have last : ∀ t : State, (pawlSet (ceilingIdle t)).modeCtl = t.modeCtl ∧
      (pawlSet (ceilingIdle t)).stage = t.stage := fun t =>
    have h := motionOnly_pawlSet (.refl (ceilingIdle t))
    ⟨h.modeCtl, h.stage⟩
  split
  · rename_i hd
    obtain ⟨h₁, h₂⟩ := last { setMode .unstaged s with
      ceiling := { (setMode .unstaged s).ceiling with nudgeDue := false, release := false } }
    refine ⟨h₁.trans (by rw [hm]), h₂.trans ?_⟩
    rw [hm] at hd ⊢
    exact congrArg (StageCtl.mk s.stage.record · false) hd
  · obtain ⟨h₁, h₂⟩ := last { handRetained _ with ceiling := _ }
    refine ⟨h₁.trans ?_, h₂.trans ?_⟩
    · rw [hr, hm]
    · rw [hr, hm]

/-! ### Leaving ROLLCALL (R35, R167) -/

/-- The halt-class kind of the lowest code is the first (R167). -/
theorem firstHaltKind_eq_some {s : State} {k : FaultKind} (hk : haltClass k = true)
    (hl : s.latched k = true)
    (hlow : ∀ j, haltClass j = true → (faultCode j).val < (faultCode k).val → s.latched j = false) :
    firstHaltKind s = some k := by
  have hget : ∀ k : FaultKind, ∃ h : (faultCode k).val < allKinds.length,
      allKinds[(faultCode k).val] = k := by
    intro k; cases k <;> exact ⟨by decide, rfl⟩
  have hcode : ∀ i (h : i < allKinds.length), (faultCode allKinds[i]).val = i := by decide
  obtain ⟨hi, hki⟩ := hget k
  refine List.find?_eq_some_iff_getElem.mpr ⟨by simp [hk, hl], _, hi, hki, fun j hj => ?_⟩
  cases hc : haltClass allKinds[j] with
  | false => rfl
  | true => simp [hlow _ hc ((hcode j (hj.trans hi)).trans_lt hj)]

theorem firstHaltKind_eq_none {s : State} :
    firstHaltKind s = none ↔ ¬ ∃ k, haltClass k = true ∧ s.latched k = true := by
  unfold firstHaltKind
  simp [List.find?_eq_none, mem_allKinds]

/-- The entry that leaves ROLLCALL: to HALTED with a halt-class kind latched, else the one given (R167). -/
def leftBy (enter : State → State) (s : State) : State :=
  match firstHaltKind s with
  | some k => recordStop .halted .fault (some k) none (enterHalted s)
  | none => enter s

theorem leaveRollcall_eq (enter : State → State) (s : State) :
    leaveRollcall enter s = beginPose (leftBy enter s) := rfl

theorem leftBy_none {enter : State → State} {s : State} (h : firstHaltKind s = none) :
    leftBy enter s = enter s := by unfold leftBy; rw [h]

/-- A latched halt-class kind takes the station to HALTED, with its stop record and no HALT frame (R167). -/
theorem leftBy_some {enter : State → State} {s : State} {k : FaultKind}
    (h : firstHaltKind s = some k) :
    (leftBy enter s).modeCtl =
        { s.modeCtl with
          mode := .halted
          lastStop := some ⟨.halted, .fault, some k, none, ⟨s.timeBase, false⟩⟩ } ∧
      (leftBy enter s).stage = { s.stage with awaitingSet := false } ∧
      (leftBy enter s).retained = s.retained ∧ (leftBy enter s).outer = s.outer ∧
      (leftBy enter s).record = s.record := by
  obtain ⟨hmode, hstage, hretained⟩ := entered_enterHalted s
  have hout := outer_enterHalted s
  have heq : leftBy enter s = recordStop .halted .fault (some k) none (enterHalted s) := by
    unfold leftBy; rw [h]
  have htime : (enterHalted s).timeBase = s.timeBase := timeBase_of_outer hout
  rw [heq]
  refine ⟨?_, hstage, hretained, hout, record_enterHalted s⟩
  show { (enterHalted s).modeCtl with
    lastStop := some ⟨.halted, .fault, some k, none, Stamp.written (enterHalted s).timeBase⟩ } = _
  rw [hmode, htime]; rfl

/-- How a state stands that has left ROLLCALL with a table (R12, R35): `x` is the state entered. -/
structure LeftRollcall (s x t : State) : Prop where
  outer : t.outer = { s.outer with posePeriod := armed s.timeBase (10 * s.cfg.p) }
  inner : t.inner = { x.inner with posePending := true }
  haltSlot : t.line.haltSlot = s.line.haltSlot
  faults : FaultsKept s t

/-- A command that ends with POSE sending begun, after an entry to a mode in which nothing settles. -/
theorem leftRollcall_finish {s x : State} (hout : x.outer = s.outer) (hrecord : x.record = s.record)
    (hquiet : Quiet x) : LeftRollcall s x (finish (beginPose x)) := by
  have hin : (finish (beginPose x)).inner = { x.inner with posePending := true } :=
    finish_quiet (s := beginPose x) hquiet
  have htime := timeBase_of_outer hout
  have hcfg : x.cfg = s.cfg := congrArg (·.settings.inForce) hout
  exact
    { outer := by
        rw [outer_finish, ← hout, ← htime, ← hcfg]; rfl
      inner := hin
      haltSlot := (congrArg Inner.haltSlot hin).trans (haltSlot_of_record hrecord)
      faults := by
        funext k; rw [hin]; exact inner_faults_of_fault (fault_of_record hrecord k) }

theorem finish_leaveRollcall {enter : State → State} {s : State} (hout : (enter s).outer = s.outer)
    (hrecord : (enter s).record = s.record) (hquiet : Quiet (enter s)) :
    LeftRollcall s (leftBy enter s) (finish (leaveRollcall enter s)) := by
  rw [leaveRollcall_eq]
  cases hk : firstHaltKind s with
  | none =>
    rw [leftBy_none hk]
    exact leftRollcall_finish hout hrecord hquiet
  | some k =>
    obtain ⟨hmode, -, -, hout', hrecord'⟩ := leftBy_some (enter := enter) hk
    have hmode : (leftBy enter s).mode = .halted := congrArg ModeCtl.mode hmode
    exact leftRollcall_finish hout' hrecord' ⟨by simp [hmode], by simp [hmode]⟩

/-! ### The retained decision (R36, R37) -/

/-- The state in which the retained decision is made (R35). -/
def frozen (s : State) : State :=
  { s with
    table := some (tableAtFreeze (closeWindow s))
    roll := { s.roll with
      members := s.roll.candidates.map (·.number), quiet := none, limit := none } }

theorem freeze_eq (s : State) : freeze s = retainedDecision (frozen s) := rfl

/-- The rejoin check asks for the stage and the plan tag of every other candidate that is staged (R37). -/
theorem rejoinAgrees_iff (s : State) (r : RetStage) :
    rejoinAgrees s r = true ↔ ∀ c ∈ s.roll.candidates, c.number ≠ s.own →
      c.summary = none ∨ c.summary = some (r.stage, s.plan.tag) := by
  unfold rejoinAgrees
  rw [List.all_eq_true]
  refine forall₂_congr fun c _ => ?_
  rcases hs : c.summary with _ | ⟨k, tag⟩
  · simp
  · simp [or_iff_not_imp_left]

/-- The quiet expiry with M candidates and no roll-class fault freezes the station. -/
theorem exec_freeze {s : State} (hm : s.mode = .rollcall) (hd : due s.timeBase s.roll.quiet = true)
    (hM : s.roll.candidates.length = s.cfg.m) (hr : rollFaultLatched s = false) :
    exec .rollQuietExpiry s = .next (finish (retainedDecision (frozen s))) := by
  have hr' : ¬ rollFaultLatched { s with roll := { s.roll with quiet := none } } = true := by
    show ¬ rollFaultLatched s = true
    rw [hr]; exact Bool.false_ne_true
  refine (if_pos hd).trans (congrArg (fun x => Host.Outcome.next (finish x)) ?_)
  exact ((if_pos ⟨hm, hM⟩).trans (if_neg hr')).trans (freeze_eq _)

/-- A station that is not staged takes up work with a valid record, or with an unloaded column (R36). -/
theorem retainedDecision_unstaged {s : State} (hst : s.stage.record = .unstaged)
    (h : s.retained.validAtStart = true ∨ s.loadMon.present < s.cfg.wc) :
    retainedDecision s = leaveRollcall enterUnstaged s := by
  unfold retainedDecision
  by_cases hv : s.retained.validAtStart = true
  · rw [if_pos hv, hst]
  · rw [if_neg hv, if_pos (h.resolve_left hv)]

/-- A valid staged record that agrees with the others' is taken up again (R36, R37). -/
theorem retainedDecision_rejoin {s : State} {r : RetStage} (hv : s.retained.validAtStart = true)
    (hst : s.stage.record = .restored r) (ha : rejoinAgrees s r = true) :
    retainedDecision s = rejoin r s := by
  unfold retainedDecision
  rw [if_pos hv, hst]
  exact if_pos ha

/-- A staged record that does not agree, or none under load, is lost (R36). -/
theorem retainedDecision_lost {s : State}
    (h : (∃ r, s.retained.validAtStart = true ∧ s.stage.record = .restored r ∧
          ¬ rejoinAgrees s r = true) ∨
        s.retained.validAtStart = false ∧ s.cfg.wc ≤ s.loadMon.present) :
    retainedDecision s = retainedLost s := by
  unfold retainedDecision
  rcases h with ⟨r, hv, hst, ha⟩ | ⟨hv, hw⟩
  · rw [if_pos hv, hst]
    exact if_neg ha
  · rw [hv, if_neg Bool.false_ne_true, if_neg (Nat.not_lt.mpr hw)]

/-- A halt-class kind is latched (R167). -/
def HaltLatched (s : State) : Prop := ∃ k, haltClass k = true ∧ s.latched k = true

/-- What every freeze brings about (R12, R35, R45, R167). -/
structure Froze (s t : State) : Prop where
  roll : t.roll = { s.roll with
    members := s.roll.candidates.map (·.number), quiet := none, limit := none }
  pose : t.line.posePending = true
  posePeriod : t.line.posePeriod = some (s.timeBase + BitVec.ofNat 32 (10 * s.cfg.p))
  haltSlot : t.line.haltSlot = s.line.haltSlot
  plan : t.plan = s.plan
  travel : t.engine.travel = s.engine.travel
  faults : t.mode ≠ .barred → FaultsKept s t
  lastStop : t.mode ≠ .barred → ¬ HaltLatched s → t.modeCtl.lastStop = s.modeCtl.lastStop
  halted : t.mode ≠ .barred → ∀ k, haltClass k = true → s.latched k = true →
    (∀ j, haltClass j = true → (faultCode j).val < (faultCode k).val → s.latched j = false) →
    t.mode = .halted ∧
      t.modeCtl.lastStop = some ⟨.halted, .fault, some k, none, ⟨s.timeBase, false⟩⟩

/-- The state frozen with a stage and rejoined flag decided. -/
def decided (s : State) (stage : StageCtl) (rejoined : Bool) : State :=
  { frozen s with stage := stage, modeCtl := { s.modeCtl with rejoined := rejoined } }

/-- What leaving ROLLCALL with a table brings about, by an entry that leaves the stop record (R35, R167). -/
theorem froze_of_left {s t : State} {stage : StageCtl} {rejoined : Bool} {enter : State → State}
    (h : LeftRollcall (decided s stage rejoined) (leftBy enter (decided s stage rejoined)) t)
    (hstop : (enter (decided s stage rejoined)).modeCtl.lastStop = s.modeCtl.lastStop) :
    Froze s t where
  roll := congrArg Outer.roll h.outer
  pose := congrArg Inner.posePending h.inner
  posePeriod := congrArg Outer.posePeriod h.outer
  haltSlot := h.haltSlot
  plan := congrArg Outer.plan h.outer
  travel := congrArg Outer.travel h.outer
  faults _ := h.faults
  lastStop _ hn := by
    have hk : firstHaltKind (decided s stage rejoined) = none := firstHaltKind_eq_none.mpr hn
    refine (congrArg Inner.lastStop h.inner).trans ?_
    rw [leftBy_none hk]; exact hstop
  halted _ k hk hl hlow := by
    have hk : firstHaltKind (decided s stage rejoined) = some k := firstHaltKind_eq_some hk hl hlow
    obtain ⟨hmode, -⟩ := leftBy_some (enter := enter) hk
    exact ⟨(congrArg Inner.mode h.inner).trans (congrArg ModeCtl.mode hmode),
      (congrArg Inner.lastStop h.inner).trans (congrArg ModeCtl.lastStop hmode)⟩

/-- A freeze of a station that is not staged (R36). -/
theorem froze_unstaged {s t : State}
    (ht : t = finish (leaveRollcall enterUnstaged (decided s s.stage s.modeCtl.rejoined))) :
    Froze s t ∧ t.modeCtl.rejoined = s.modeCtl.rejoined ∧ t.stage.record = s.stage.record ∧
      (¬ HaltLatched s → t.mode = .unstaged ∧ t.stage.dir = .none) ∧
      (HaltLatched s → t.stage.dir = s.stage.dir) := by
  obtain ⟨hmode, hstage⟩ := enterUnstaged_stage (decided s s.stage s.modeCtl.rejoined)
  have h := finish_leaveRollcall (outer_enterUnstaged (decided s s.stage s.modeCtl.rejoined))
    (record_enterUnstaged _) ⟨by simp, by simp⟩
  rw [← ht] at h
  have hfree : ¬ HaltLatched s → t.mode = .unstaged ∧ t.stage = ⟨s.stage.record, .none, false⟩ := by
    intro hn
    have hk : firstHaltKind (decided s s.stage s.modeCtl.rejoined) = none :=
      firstHaltKind_eq_none.mpr hn
    have hin := h.inner
    rw [leftBy_none hk] at hin
    exact ⟨(congrArg Inner.mode hin).trans (congrArg ModeCtl.mode hmode),
      (congrArg Inner.stage hin).trans hstage⟩
  have hhalt : HaltLatched s → t.stage = { s.stage with awaitingSet := false } := by
    intro hl
    obtain ⟨k, hk⟩ : ∃ k, firstHaltKind (decided s s.stage s.modeCtl.rejoined) = some k :=
      Option.ne_none_iff_exists'.mp fun e => firstHaltKind_eq_none.mp e hl
    obtain ⟨-, hst, -⟩ := leftBy_some (enter := enterUnstaged) hk
    exact (congrArg Inner.stage h.inner).trans hst
  refine ⟨froze_of_left h ((congrArg ModeCtl.lastStop hmode).trans rfl),
    congrArg Outer.rejoined h.outer, ?_,
    fun hn => ⟨(hfree hn).1, by rw [(hfree hn).2]⟩, fun hl => by rw [hhalt hl]⟩
  by_cases hl : HaltLatched s
  · rw [hhalt hl]
  · rw [(hfree hl).2]

/-- A freeze of a station that rejoins at its retained stage (R37, R73). -/
theorem froze_rejoin {s t : State} {r : RetStage} (ht : t = finish (rejoin r (frozen s))) :
    Froze s t ∧
      t.stage = ⟨.staged (stagedAt s r.contactZero r.stage), s.stage.dir, false⟩ ∧
      t.modeCtl.rejoined = true ∧ t.retained = s.retained ∧
      (¬ HaltLatched s → t.mode = .hold) := by
  let v := decided s { s.stage with record := .staged (stagedAt s r.contactZero r.stage) } true
  obtain ⟨hmode, hstage, hret⟩ := entered_enterHold v
  have h := finish_leaveRollcall (outer_enterHold v) (record_enterHold v) ⟨by simp, by simp⟩
  have ht' : t = finish (leaveRollcall enterHold v) := ht
  rw [← ht'] at h
  have hleft : (leftBy enterHold v).stage = { v.stage with awaitingSet := false } ∧
      (leftBy enterHold v).retained = s.retained := by
    cases hk : firstHaltKind v with
    | none => rw [leftBy_none hk]; exact ⟨hstage, hret⟩
    | some k =>
      obtain ⟨-, hst, hre, -⟩ := leftBy_some (enter := enterHold) hk
      exact ⟨hst, hre⟩
  refine ⟨froze_of_left h ((congrArg ModeCtl.lastStop hmode).trans rfl),
    (congrArg Inner.stage h.inner).trans hleft.1,
    congrArg Outer.rejoined h.outer, (congrArg Inner.retained h.inner).trans hleft.2, fun hn => ?_⟩
  have hk : firstHaltKind v = none := firstHaltKind_eq_none.mpr hn
  refine (congrArg Inner.mode h.inner).trans ?_
  rw [leftBy_none hk]; exact congrArg ModeCtl.mode hmode

/-- A freeze that ends in BARRED with RETAINED_LOST (R34, R36). -/
theorem froze_lost {s t : State} (hm : s.mode = .rollcall)
    (ht : t = finish (retainedLost (frozen s))) :
    Froze s t ∧ EntersBarred s t ∧ t.table = none ∧
      t.fault .retainedLost = recordAfter s .retainedLost (s.active .retainedLost) none ∧
      OtherFaultsKept s t .retainedLost := by
  obtain ⟨hbar, hout, hfault, hother⟩ :=
    finish_barredBy (k := .retainedLost) rfl none (s := frozen s) hm
  have ht' : t = finish (enterBarred (report .retainedLost none (frozen s))) := ht
  rw [← ht'] at hbar hout hfault hother
  have hbar := hbar.of_blocks (s := s) rfl rfl rfl rfl rfl
  refine ⟨?_, hbar, congrArg Outer.table hout, hfault, hother⟩
  exact
    { roll := congrArg Outer.roll hout
      pose := hbar.pose
      posePeriod := congrArg Outer.posePeriod hout
      haltSlot := hbar.haltSlot
      plan := congrArg Outer.plan hout
      travel := congrArg Outer.travel hout
      faults := fun h => absurd hbar.mode h
      lastStop := fun h => absurd hbar.mode h
      halted := fun h => absurd hbar.mode h }

/-- A station that has rejoined has a lift again: its travel from the retained contact zero (R37, R75). -/
theorem lift_of_rejoined {s t : State} {q : StagedRec} {dir : Direction}
    (h : t.stage = ⟨.staged q, dir, false⟩) (ht : t.engine.travel = s.engine.travel) :
    t.lift = some ((s.engine.travel : Int) - q.contactZero) := by
  unfold State.lift State.stagedRec
  rw [h, ht]; rfl

end Sys2Proof.Machine

open Sys2Proof Sys2Proof.Machine in
/-- Settles O22, by the branches of the retained decision on the state frozen. -/
theorem freezeDecides : Obligations.FreezeDecides := by
  intro s hm hd hM hr hstaged hrec agrees halted lost
  rw [exec_freeze hm hd hM hr]
  have hagrees : ∀ r, rejoinAgrees (frozen s) r = true ↔ agrees r := fun r =>
    rejoinAgrees_iff (frozen s) r
  by_cases hu : s.stage.record = .unstaged ∧
      (s.retained.validAtStart = true ∨ s.loadMon.present < s.cfg.wc)
  · obtain ⟨hst, hv⟩ := hu
    rw [retainedDecision_unstaged (s := frozen s) hst hv]
    obtain ⟨h, hrejoined, hrecord, hfree, hhalt⟩ := froze_unstaged (s := s) rfl
    refine ⟨_, rfl, h.roll, h.pose, h.posePeriod, h.haltSlot, h.plan,
      fun hb => ⟨h.faults hb, h.lastStop hb, h.halted hb⟩,
      fun _ _ => ⟨hrecord.trans hst, hrejoined, hfree, hhalt⟩,
      fun r _ hr => absurd (hst.symm.trans hr) nofun,
      fun r _ hr => absurd (hst.symm.trans hr) nofun, fun hn hw => ?_⟩
    exact absurd (hv.resolve_left (by rw [hn]; exact Bool.false_ne_true)) (Nat.not_lt.mpr hw)
  by_cases hj : ∃ r, s.retained.validAtStart = true ∧ s.stage.record = .restored r ∧ agrees r
  · obtain ⟨r, hv, hst, ha⟩ := hj
    rw [retainedDecision_rejoin (s := frozen s) hv hst ((hagrees r).mpr ha)]
    obtain ⟨h, hstage, hrejoined, hret, hfree⟩ := froze_rejoin (s := s) (r := r) rfl
    have hr : ∀ q, s.stage.record = .restored q → q = r := fun q hq =>
      StageState.restored.inj (hq.symm.trans hst)
    refine ⟨_, rfl, h.roll, h.pose, h.posePeriod, h.haltSlot, h.plan,
      fun hb => ⟨h.faults hb, h.lastStop hb, h.halted hb⟩,
      fun hn => absurd (hst.symm.trans hn) nofun, fun q _ hq _ => ?_, fun q _ hq hn => ?_,
      fun hn => absurd (hv.symm.trans hn) nofun⟩
    · rw [hr q hq]
      exact ⟨by rw [hstage]; rfl, by rw [hstage], lift_of_rejoined hstage h.travel, hrejoined, hret,
        hfree⟩
    · exact absurd (hr q hq ▸ ha) hn
  · have hlost : (∃ r, s.retained.validAtStart = true ∧ s.stage.record = .restored r ∧
          ¬ rejoinAgrees (frozen s) r = true) ∨
        s.retained.validAtStart = false ∧ s.cfg.wc ≤ s.loadMon.present := by
      cases hv : s.retained.validAtStart with
      | false =>
        exact .inr ⟨rfl, Nat.le_of_not_lt fun h => hu ⟨hrec hv, .inr h⟩⟩
      | true =>
        cases hst : s.stage.record with
        | staged r => exact absurd hst (hstaged r)
        | unstaged => exact absurd ⟨hst, .inl hv⟩ hu
        | restored r =>
          exact .inl ⟨r, rfl, rfl, fun e => hj ⟨r, hv, hst, (hagrees r).mp e⟩⟩
    rw [retainedDecision_lost (s := frozen s) hlost]
    obtain ⟨h, hlost⟩ := froze_lost (s := s) hm rfl
    exact ⟨_, rfl, h.roll, h.pose, h.posePeriod, h.haltSlot, h.plan,
      fun hb => ⟨h.faults hb, h.lastStop hb, h.halted hb⟩, fun hst hv => absurd ⟨hst, hv⟩ hu,
      fun r hv hst ha => absurd ⟨r, hv, hst, ha⟩ hj, fun _ _ _ _ => hlost, fun _ _ => hlost⟩

/-! ## The service port (O60) -/

namespace Sys2Proof.Machine

/-! ### Whole records and parts of records at the receiver (R186, R187) -/

/-- The bytes of a record after its start byte (R186). -/
def recordTail (kind : Byte) (payload : List Byte) (sum : Byte) : List Byte :=
  kind :: BitVec.ofNat 8 payload.length :: (payload ++ [sum])

theorem length_recordTail (kind : Byte) (payload : List Byte) (sum : Byte) :
    (recordTail kind payload sum).length = payload.length + 3 := by simp [recordTail]

/-- A record is complete at its last byte and not before (R187). -/
theorem recordComplete_take (kind : Byte) {payload : List Byte} (sum : Byte)
    (h : payload.length < 256) (k : Nat) :
    recordComplete ((recordTail kind payload sum).take k) = true ↔ payload.length + 3 ≤ k := by
  have hlen : (BitVec.ofNat 8 payload.length).toNat = payload.length := by
    rw [BitVec.toNat_ofNat]; exact Nat.mod_eq_of_lt h
  rcases k with _ | _ | k
  · simp [recordTail, recordComplete]
  · simp [recordTail, recordComplete]
  · simp only [recordTail, List.take_succ_cons, recordComplete, hlen, beq_iff_eq, List.length_take,
      List.length_append, List.length_singleton]
    omega

theorem collect_collect (bs cs : List Byte) (s : State) : collect bs (collect cs s) = collect bs s := rfl

theorem hunt_collect (bs : List Byte) (s : State) : hunt (collect bs s) = hunt s := rfl

/-- A byte that does not complete a record is collected (R187). -/
theorem feedByte_incomplete {bs : List Byte} {b : Byte} (s : State)
    (h : recordComplete (bs ++ [b]) = false) : feedByte (collect bs s) b = collect (bs ++ [b]) s := by
  show (if recordComplete (bs ++ [b]) = true then _ else _) = _
  rw [h, if_neg Bool.false_ne_true, collect_collect]

/-- The byte that completes a record hands over the request, if it is one, and the receiver hunts (R187). -/
theorem feedByte_complete {bs : List Byte} {b : Byte} (s : State)
    (h : recordComplete (bs ++ [b]) = true) :
    feedByte (collect bs s) b =
      (requestOf (bs ++ [b])).elim (hunt s) (acceptRequest · (hunt s)) := by
  show (if recordComplete (bs ++ [b]) = true then
    (match requestOf (bs ++ [b]) with
      | some r => acceptRequest r (hunt (collect bs s))
      | none => hunt (collect bs s)) else _) = _
  rw [if_pos h, hunt_collect]
  cases requestOf (bs ++ [b]) <;> rfl

/-- Bytes that complete no record are collected one after another. -/
theorem foldl_feedByte_incomplete (s : State) (cs : List Byte) :
    ∀ bs : List Byte, (∀ k, k < cs.length → recordComplete (bs ++ cs.take (k + 1)) = false) →
      cs.foldl feedByte (collect bs s) = collect (bs ++ cs) s := by
  induction cs with
  | nil => intro bs _; rw [List.append_nil]; rfl
  | cons c cs ih =>
    intro bs h
    have hc : recordComplete (bs ++ [c]) = false := h 0 (Nat.succ_pos _)
    rw [List.foldl_cons, feedByte_incomplete s hc, ih]
    · rw [List.append_assoc]; rfl
    · intro k hk
      rw [List.append_assoc]
      exact h (k + 1) (Nat.succ_lt_succ hk)

/-- The port hunts, with no gap timed (R187). -/
def Hunting (s : State) : Prop := s.service.collecting = none ∧ s.service.gap = none

theorem Hunting.hunt_eq {s : State} (h : Hunting s) : hunt s = s := by
  obtain ⟨hc, hg⟩ := h
  have : s.service = { s.service with collecting := none, gap := none } := by rw [← hc, ← hg]
  show { s with service := { s.service with collecting := none, gap := none } } = s
  rw [← this]

theorem Hunting.breakOff_eq {s : State} (h : Hunting s) : breakOff s = s :=
  if_neg (by rw [h.2]; exact Bool.false_ne_true)

theorem Hunting.feedByte_start {s : State} (h : Hunting s) : feedByte s 126 = collect [] s := by
  unfold feedByte; simp only [h.1]; rfl

/-- The bytes of a record but its last are collected. -/
theorem foldl_recordTail_take (s : State) (kind : Byte) {payload : List Byte} (sum : Byte)
    (hlen : payload.length < 256) {k : Nat} (hk : k < payload.length + 3) :
    ((recordTail kind payload sum).take k).foldl feedByte (collect [] s) =
      collect ((recordTail kind payload sum).take k) s := by
  refine foldl_feedByte_incomplete s _ [] fun j hj => ?_
  rw [List.length_take] at hj
  rw [List.nil_append, List.take_take, Bool.eq_false_iff, Ne, recordComplete_take kind sum hlen]
  omega

/-- A part of a record that has its start byte is collected (R187). -/
theorem feed_part {s : State} (h : Hunting s) (kind : Byte) {payload : List Byte} (sum : Byte)
    (hlen : payload.length < 256) {k : Nat} (hk : k < payload.length + 3) :
    feed (126 :: (recordTail kind payload sum).take k) s =
      .next (finish (collect ((recordTail kind payload sum).take k) s)) := by
  unfold feed
  rw [h.breakOff_eq, List.foldl_cons, h.feedByte_start, foldl_recordTail_take s kind sum hlen hk]

/-- A whole record hands over the request that it is, if it is one (R187). -/
theorem feed_whole {s : State} (h : Hunting s) (kind : Byte) {payload : List Byte} (sum : Byte)
    (hlen : payload.length < 256) :
    feed (126 :: recordTail kind payload sum) s =
      .next (finish ((requestOf (recordTail kind payload sum)).elim s (acceptRequest · s))) := by
  have hsplit : recordTail kind payload sum =
      (recordTail kind payload sum).take (payload.length + 2) ++ [sum] := by
    simp [recordTail]
  have hcomplete : recordComplete
      ((recordTail kind payload sum).take (payload.length + 2) ++ [sum]) = true := by
    rw [← hsplit, ← List.take_length (l := recordTail kind payload sum),
      recordComplete_take kind sum hlen, length_recordTail]
  have hpart := foldl_recordTail_take s kind sum hlen (Nat.lt_succ_self (payload.length + 2))
  unfold feed
  rw [h.breakOff_eq, List.foldl_cons, h.feedByte_start, hsplit, List.foldl_append, hpart]
  show Host.Outcome.next (finish (feedByte (collect _ s) sum)) = _
  rw [feedByte_complete s hcomplete, h.hunt_eq]

/-! ### Which records are requests (R186 to R188) -/

/-- A record is a request when its bytes add up to 0 and its length is the one its kind calls for (R187). -/
theorem requestOf_recordTail (kind : Byte) (payload : List Byte) (sum : Byte) :
    requestOf (recordTail kind payload sum) =
      if sum = -((kind :: BitVec.ofNat 8 payload.length :: payload).foldl (· + ·) 0) ∧
          lengthFits kind.toNat payload = true then
        some ⟨kind.toNat, payload⟩
      else none := by
  have hsum : (recordTail kind payload sum).foldl (· + ·) 0 = 0 ↔
      sum = -((kind :: BitVec.ofNat 8 payload.length :: payload).foldl (· + ·) 0) := by
    have : (recordTail kind payload sum).foldl (· + ·) 0 =
        (kind :: BitVec.ofNat 8 payload.length :: payload).foldl (· + ·) 0 + sum := by
      simp [recordTail]
    rw [this]
    generalize List.foldl (· + ·) 0 (kind :: BitVec.ofNat 8 payload.length :: payload) = total
    constructor
    · intro h; bv_omega
    · intro h; bv_omega
  show (if (recordTail kind payload sum).foldl (· + ·) 0 = 0 ∧
      lengthFits kind.toNat (payload ++ [sum]).dropLast = true then _ else _) = _
  rw [List.dropLast_concat]
  exact if_congr (and_congr_left' hsum) rfl rfl

/-- No length is right for a kind that is not listed, and a listed kind's record is short (R188). -/
theorem lengthFits_bounds {kind : Nat} {payload : List Byte} (h : lengthFits kind payload = true) :
    1 ≤ kind ∧ kind ≤ 10 ∧ payload.length < 256 := by
  have hbit : ∀ (b : Byte) (k : Nat), field b k 1 ≤ 1 := fun b k => by
    unfold field; omega
  unfold lengthFits at h
  split at h
  case h_11 => cases h
  case h_9 =>
    split at h
    · cases h
    · rename_i b _
      have h₀ := hbit b 0
      have h₁ := hbit b 1
      rw [beq_iff_eq] at h
      omega
  all_goals
    rw [beq_iff_eq] at h
    omega

/-! ### The request that a command brings (R186) -/

/-- The command that brings a request's record feeds it to the receiver. -/
theorem exec_askedBy (r : Request) (s : State) :
    exec (askedBy r) s = feed (recordOf r.kind r.payload) s := by
  unfold askedBy
  simp only []
  split <;> rfl

/-- A request's record is the start byte and its tail. -/
theorem recordOf_eq (kind : Nat) (payload : List Byte) :
    recordOf kind payload = 126 :: recordTail (BitVec.ofNat 8 kind) payload
      (-((BitVec.ofNat 8 kind :: BitVec.ofNat 8 payload.length :: payload).foldl (· + ·) 0)) := rfl

/-- A request's whole record is accepted (R187). -/
theorem feed_request {s : State} (h : Hunting s) {r : Request}
    (hr : lengthFits r.kind r.payload = true) :
    feed (recordOf r.kind r.payload) s = .next (finish (acceptRequest r s)) := by
  obtain ⟨-, hkind, hlen⟩ := lengthFits_bounds hr
  have hk : (BitVec.ofNat 8 r.kind).toNat = r.kind := by
    rw [BitVec.toNat_ofNat]; omega
  rw [recordOf_eq, feed_whole h _ _ hlen, requestOf_recordTail, hk, if_pos ⟨rfl, hr⟩]
  rfl

/-! ### Taking and keeping waiting (R187) -/

theorem acceptRequest_idle {s : State} (h : s.service.sending = none) (r : Request) :
    acceptRequest r s = takeRequest r s := by
  unfold acceptRequest; rw [h]

theorem acceptRequest_waits {s : State} {sent : List Byte} (h : s.service.sending = some sent)
    (hw : s.service.waiting = none) (r : Request) :
    acceptRequest r s = { s with service := { s.service with waiting := some r } } := by
  unfold acceptRequest; rw [h, hw]

theorem acceptRequest_dropped {s : State} {sent : List Byte} (h : s.service.sending = some sent)
    (hw : s.service.waiting.isSome = true) (r : Request) : acceptRequest r s = s := by
  obtain ⟨q, hq⟩ := Option.isSome_iff_exists.mp hw
  unfold acceptRequest; rw [h, hq]

/-! ### Acknowledgement (R183) -/

/-- The latched flags for which `p` holds are cleared, and nothing else of the fault record (R171, R183). -/
theorem fault_unlatch (p : FaultKind → Bool) (s : State) (k : FaultKind) :
    (unlatch p s).fault k =
      if p k then { s.fault k with latched := false } else s.fault k := by
  have one : ∀ (j : FaultKind) (t : State),
      (if p j then setFault j { t.fault j with latched := false } t else t).fault k =
        if j = k ∧ p k = true then { t.fault k with latched := false } else t.fault k := by
    intro j t
    by_cases hj : j = k
    · subst hj
      by_cases hp : p j = true
      · rw [if_pos hp, fault_setFault_same, if_pos ⟨rfl, hp⟩]
      · rw [if_neg hp, if_neg fun h => hp h.2]
    · rw [if_neg (c := j = k ∧ p k = true) fun h => hj h.1]
      split
      · exact fault_setFault_other (Ne.symm hj) _ t
      · rfl
  have fold : ∀ (ks : List FaultKind) (t : State), (ks.foldl
      (fun acc j => if p j then setFault j { acc.fault j with latched := false } acc else acc) t).fault k =
        if k ∈ ks ∧ p k = true then { t.fault k with latched := false } else t.fault k := by
    intro ks
    induction ks with
    | nil => intro t; rfl
    | cons j ks ih =>
      intro t
      rw [List.foldl_cons, ih, one]
      by_cases hp : p k = true
      · by_cases hj : k = j
        · subst hj; simp [hp]
        · simp [hp, hj, Ne.symm hj]
      · simp [hp]
  unfold unlatch
  simp only []
  split
  · rw [fold]; simp [mem_allKinds]
  · rw [fault_requestPose]
    exact (fold allKinds s).trans (by simp [mem_allKinds])

/-- An acknowledgement writes the fault record, the POSE marks and a notice (R183). -/
theorem unlatch_eq (p : FaultKind → Bool) (s : State) :
    ∃ faults a b notice, unlatch p s =
      { s with
        faults := faults
        line := { s.line with posePending := a, poseAgain := b }
        notice := notice } := by
  have fold : ∀ (ks : List FaultKind) (t : State), ∃ faults, ks.foldl
      (fun acc j => if p j then setFault j { acc.fault j with latched := false } acc else acc) t =
        { t with faults := faults } := by
    intro ks
    induction ks with
    | nil => exact fun t => ⟨t.faults, rfl⟩
    | cons j ks ih =>
      intro t
      rw [List.foldl_cons]
      split
      · obtain ⟨faults, h⟩ := ih (setFault j { t.fault j with latched := false } t)
        exact ⟨faults, h⟩
      · exact ih t
  obtain ⟨faults, h⟩ := fold allKinds s
  unfold unlatch
  simp only []
  rw [h]
  split
  · exact ⟨faults, s.line.posePending, s.line.poseAgain, s.notice, rfl⟩
  · obtain ⟨a, b, hp⟩ := requestPose_eq (notify { s with faults := faults })
    exact ⟨faults, a, b, true, hp⟩

/-- The set that two bytes spell (R183). -/
theorem ofNat_beNat_two (a b : Byte) : BitVec.ofNat 16 (beNat [a, b]) = a ++ b := by
  refine BitVec.eq_of_toNat_eq ?_
  have hnat : beNat [a, b] = a.toNat <<< 8 + b.toNat := by
    simp only [beNat, List.foldl_cons, List.foldl_nil, Nat.shiftLeft_eq]
    omega
  rw [BitVec.toNat_append, BitVec.toNat_ofNat, ← Nat.shiftLeft_add_eq_or_of_lt b.isLt, hnat]
  have ha := a.isLt
  have hb := b.isLt
  rw [Nat.shiftLeft_eq]
  omega

/-- The state with an ACK of the kinds given taken, its reply being sent (R183). -/
def acknowledged (clears : FaultKind → Bool) (s : State) : State :=
  { unlatch clears s with
    service :=
      { (unlatch clears s).service with
        sending := some (recordOf (4 + 128) (0 :: be16 (setOf clears).toNat)) } }

/-- An ACK clears the latched flags of its kinds, and outside MOVING and SETTLED nothing acts on that (R183). -/
theorem finish_acknowledged (clears : FaultKind → Bool) (s : State) :
    (finish (acknowledged clears s)).outer =
        { s.outer with
          service :=
            { s.service with
              sending := some (recordOf (4 + 128) (0 :: be16 (setOf clears).toNat)) } } ∧
      (Quiet s →
        (∀ k, (finish (acknowledged clears s)).latched k = (s.latched k && !clears k)) ∧
          (finish (acknowledged clears s)).mode = s.mode ∧
          (finish (acknowledged clears s)).inner =
            { s.inner with
              faults := (finish (acknowledged clears s)).inner.faults
              posePending := (finish (acknowledged clears s)).line.posePending
              poseAgain := (finish (acknowledged clears s)).line.poseAgain }) := by
  have hlatched : ∀ k, (acknowledged clears s).latched k = (s.latched k && !clears k) := by
    intro k
    show ((unlatch clears s).fault k).latched = _
    rw [fault_unlatch]
    split
    · simp [*]
    · simp [*, State.latched]
  obtain ⟨faults, a, b, notice, h⟩ := unlatch_eq clears s
  refine ⟨?_, fun hq => ?_⟩
  · rw [outer_finish]
    unfold acknowledged
    rw [h]; rfl
  · have hmode : (acknowledged clears s).mode = s.mode := mode_unlatch clears s
    have hin := finish_quiet (quiet_of_eq hmode hq)
    have hflags : ∀ k, (finish (acknowledged clears s)).latched k = (acknowledged clears s).latched k :=
      fun k => congrArg Prod.fst (congrFun (congrArg Inner.faults hin) k)
    have hpending : (finish (acknowledged clears s)).line.posePending =
        (acknowledged clears s).line.posePending := congrArg Inner.posePending hin
    have hagain : (finish (acknowledged clears s)).line.poseAgain =
        (acknowledged clears s).line.poseAgain := congrArg Inner.poseAgain hin
    refine ⟨fun k => (hflags k).trans (hlatched k), (congrArg Inner.mode hin).trans hmode, ?_⟩
    rw [hpending, hagain, hin]
    unfold acknowledged
    rw [h]; rfl

/-! ### SETTING WRITE (R27) -/

theorem beNat_two (a b : Byte) : beNat [a, b] = a.toNat * 256 + b.toNat := by
  simp [beNat]

/-- A write is allowed of a listed parameter within its range (R27). -/
theorem writeAllowed_iff (number value : Nat) :
    writeAllowed number value = true ↔
      1 ≤ number ∧ number ≤ 20 ∧ (paramTable.getD (number - 1) ⟨0, 0, 0⟩).low ≤ value ∧
        value ≤ (paramTable.getD (number - 1) ⟨0, 0, 0⟩).high := by
  simp [writeAllowed, paramRow, and_assoc]

/-- A write that is allowed is stored, and the values in force stay until the next start (R27). -/
theorem takeRequest_written {n a b : Byte} (s : State)
    (h : writeAllowed n.toNat (beNat [a, b]) = true) :
    takeRequest ⟨10, [n, a, b]⟩ s =
      { storeSetting n.toNat (beNat [a, b]) s with
        service := { s.service with sending := some (recordOf (10 + 128) [0]) } } := by
  have hanswer : answer ⟨10, [n, a, b]⟩ s = (.done [], storeSetting n.toNat (beNat [a, b]) s) := if_pos h
  unfold takeRequest
  rw [hanswer]; rfl

/-- One that is not allowed is BAD and stores nothing (R27). -/
theorem takeRequest_unwritten {n a b : Byte} (s : State)
    (h : ¬ writeAllowed n.toNat (beNat [a, b]) = true) :
    takeRequest ⟨10, [n, a, b]⟩ s =
      { s with service := { s.service with sending := some (recordOf (10 + 128) [2]) } } := by
  have hanswer : answer ⟨10, [n, a, b]⟩ s = (.bad, s) := if_neg h
  unfold takeRequest
  rw [hanswer]; rfl

/-! ### A reply that is out (R187) -/

theorem execReplySent_waiting {s : State} {sent : List Byte} {r : Request}
    (hs : s.service.sending = some sent) (hw : s.service.waiting = some r) :
    exec .replySent s = .next (finish (takeRequest r
      { s with service := { s.service with sending := none, waiting := none } })) := by
  show execReplySent s = _
  unfold execReplySent
  rw [hs]
  simp only [hw]

theorem execReplySent_none {s : State} {sent : List Byte} (hs : s.service.sending = some sent)
    (hw : s.service.waiting = none) :
    exec .replySent s =
      .next (finish { s with service := { s.service with sending := none } }) := by
  show execReplySent s = _
  unfold execReplySent
  rw [hs]
  simp only [hw]

/-! ### PLAN requests (R190) -/

/-- A PLAN request's outcome: REFUSED without a table, BUSY with a full queue, else one more PLAN frame (R190). -/
theorem finish_takeRequest_plan {r : Request} {payload : List Byte} {s : State}
    (h : answer r s = askPlanFrame payload s) :
    (Calm s → (finish (takeRequest r s)).inner = s.inner) ∧
      (finish (takeRequest r s)).outer =
        if s.mode = .rollcall ∨ s.mode = .barred then
          { s.outer with service := { s.service with sending := some (recordOf (r.kind + 128) [3]) } }
        else if 4 ≤ s.line.planQueue.length then
          { s.outer with service := { s.service with sending := some (recordOf (r.kind + 128) [1]) } }
        else
          { s.outer with
            service := { s.service with sending := some (recordOf (r.kind + 128) [0]) }
            planQueue := s.line.planQueue ++ [⟨kindPlan, 0, BitVec.ofNat 6 s.own, payload⟩] } := by
  rw [outer_finish]
  unfold takeRequest
  simp only []
  rw [h]
  unfold askPlanFrame
  split
  · exact ⟨fun hc => finish_calm (calm_of_eq (s := s) rfl rfl hc), rfl⟩
  · split
    · exact ⟨fun hc => finish_calm (calm_of_eq (s := s) rfl rfl hc), rfl⟩
    · exact ⟨fun hc => finish_calm (calm_of_eq (s := s) rfl rfl hc), rfl⟩

end Sys2Proof.Machine

open Sys2Proof Sys2Proof.Machine in
/-- Settles O60: a whole record is accepted as the request it is, and what `answer` makes of a request is all it does. -/
theorem serviceWrites : Obligations.ServiceWrites := by
  refine ⟨?_, fun s hd => ?_⟩
  swap
  · have hexec : exec .serviceByteGap s = .next (finish (hunt s)) := if_pos hd
    exact ⟨_, hexec, fun hc => finish_calm (calm_of_eq (s := s) rfl rfl hc), outer_finish _⟩
  intro s hcol hgap reply queues
  have hunting : Hunting s := ⟨hcol, hgap⟩
  have taken : ∀ r : Request, lengthFits r.kind r.payload = true → s.service.sending = none →
      exec (askedBy r) s = .next (finish (takeRequest r s)) := fun r hr hs => by
    rw [exec_askedBy, feed_request hunting hr, acceptRequest_idle hs]
  refine ⟨fun hs => ⟨?_, ?_, ?_, ?_, ?_⟩, ?_, ?_, ?_⟩
  · intro a b clears
    have hclears : ackClears (BitVec.ofNat 16 (beNat [a, b])) s = clears := by
      rw [ofNat_beNat_two]; rfl
    have htake : takeRequest ⟨4, [a, b]⟩ s = acknowledged clears s := by
      rw [← hclears]; rfl
    have hexec := taken ⟨4, [a, b]⟩ rfl hs
    rw [htake] at hexec
    obtain ⟨hout, hq⟩ := finish_acknowledged clears s
    exact ⟨_, hexec, hout, hq⟩
  · intro b rest hfits
    obtain ⟨hin, hout⟩ := finish_takeRequest_plan (r := ⟨6, b :: rest⟩) (s := s)
      (payload := (b &&& 3) :: rest) rfl
    exact ⟨_, taken ⟨6, b :: rest⟩ hfits hs, hin, hout⟩
  · obtain ⟨hin, hout⟩ := finish_takeRequest_plan (r := ⟨7, []⟩) (s := s) (payload := [64]) rfl
    exact ⟨_, taken ⟨7, []⟩ rfl hs, hin, hout⟩
  · obtain ⟨hin, hout⟩ := finish_takeRequest_plan (r := ⟨8, []⟩) (s := s) (payload := [128]) rfl
    exact ⟨_, taken ⟨8, []⟩ rfl hs, hin, hout⟩
  · intro n a b value allowed
    have hallowed : writeAllowed n.toNat (beNat [a, b]) = true ↔ allowed := by
      rw [writeAllowed_iff, beNat_two]
    have hexec := taken ⟨10, [n, a, b]⟩ rfl hs
    by_cases ha : allowed
    · rw [takeRequest_written s (hallowed.mpr ha)] at hexec
      refine ⟨_, hexec, fun hc => finish_calm (calm_of_eq (s := s) rfl rfl hc), fun hn => absurd ha hn,
        fun _ => ?_⟩
      rw [outer_finish, beNat_two]; rfl
    · rw [takeRequest_unwritten s fun h => ha (hallowed.mp h)] at hexec
      exact ⟨_, hexec, fun hc => finish_calm (calm_of_eq (s := s) rfl rfl hc),
        fun _ => outer_finish _, fun h => absurd h ha⟩
  · intro kind sum payload hlen body hbad
    have hnone : requestOf (recordTail kind payload sum) = none := by
      rw [requestOf_recordTail]
      refine if_neg fun h => ?_
      obtain ⟨h₁, h₂, -⟩ := lengthFits_bounds h.2
      rcases hbad with hb | hb | hb | hb
      · exact hb h.1
      · omega
      · omega
      · rw [hb] at h; exact Bool.false_ne_true h.2
    have hexec := feed_whole hunting kind sum hlen
    rw [hnone] at hexec
    exact ⟨_, hexec, fun hc => finish_calm hc, outer_finish _⟩
  · intro r _ _ hr
    obtain ⟨-, -, hlen⟩ := lengthFits_bounds hr
    have accepted : exec (askedBy r) s = .next (finish (acceptRequest r s)) := by
      rw [exec_askedBy, feed_request hunting hr]
    refine ⟨fun sent hs => ⟨fun hw => ?_, fun hw => ?_, fun hw => ?_⟩, fun n hn => ?_⟩
    · rw [acceptRequest_waits hs hw] at accepted
      exact ⟨_, accepted, fun hc => finish_calm (calm_of_eq (s := s) rfl rfl hc), outer_finish _⟩
    · rw [acceptRequest_dropped hs hw] at accepted
      exact ⟨_, accepted, fun hc => finish_calm hc, outer_finish _⟩
    · have hclear : ({ s.service with sending := none, waiting := none } : Service) =
          ⟨none, none, none, none⟩ := by rw [← hcol, ← hgap]
      have hsent : exec .replySent s = .next (finish (takeRequest r
          { s with service := ⟨none, none, none, none⟩ })) := by
        rw [← hclear]
        exact execReplySent_waiting hs hw
      refine ⟨_, hsent, ?_⟩
      rw [exec_askedBy, feed_request ⟨rfl, rfl⟩ hr, acceptRequest_idle rfl]
    · have hlen' : (recordOf r.kind r.payload).length - 1 = r.payload.length + 3 := by
        rw [recordOf_eq, List.length_cons, length_recordTail]; rfl
      refine ⟨_, feed_part hunting (BitVec.ofNat 8 r.kind) _ hlen (hlen' ▸ hn),
        fun hc => finish_calm (calm_of_eq (s := s) rfl rfl hc), outer_finish _⟩
  · intro sent hs hw
    have hclear : ({ s.service with sending := none } : Service) = ⟨none, none, none, none⟩ := by
      rw [← hcol, ← hgap, ← hw]
    refine ⟨_, execReplySent_none hs hw,
      fun hc => finish_calm (calm_of_eq (s := s) rfl rfl hc), ?_⟩
    rw [outer_finish, ← hclear]; rfl

/-! ## Leads and offers (O51) -/

namespace Sys2Proof.Machine

/-! ### Effective leads (R88) -/

/-- A value held between two bounds in order lies between them (R88). -/
theorem heldIn_range {lo hi : Nat} (h : lo ≤ hi) (v : Nat) : lo ≤ heldIn lo hi v ∧ heldIn lo hi v ≤ hi := by
  unfold heldIn; split <;> [omega; (split <;> omega)]

/-- Toward a plan stage both leads are those of its entry, held in range (R88). -/
theorem leads_of_entry {s : State} {k : StageIx} {e : PlanEntry} (h : stageEntryOf s k = some e) :
    setLeadEff s k = e.setLead.elim s.cfg.sl (heldIn s.cfg.l 8000) ∧
      carLeadEff s k = heldIn s.cfg.l (setLeadEff s k) (e.carLead.getD s.cfg.cl) := by
  unfold carLeadEff setLeadEff
  simp only [h, and_true]
  cases e.setLead <;> rfl

/-- Toward a stage with no plan entry the leads are SL and CL (R88). -/
theorem leads_of_no_entry {s : State} {k : StageIx} (h : stageEntryOf s k = none) :
    setLeadEff s k = s.cfg.sl ∧ carLeadEff s k = s.cfg.cl := by
  unfold carLeadEff setLeadEff; rw [h]; exact ⟨rfl, rfl⟩

/-- With L, CL and SL in order, and L at most 8000, the effective leads keep that order (R25, R88). -/
theorem leads_ordered {s : State} (k : StageIx)
    (h : s.cfg.l ≤ s.cfg.cl ∧ s.cfg.cl ≤ s.cfg.sl ∧ s.cfg.l ≤ 8000) :
    s.cfg.l ≤ carLeadEff s k ∧ carLeadEff s k ≤ setLeadEff s k := by
  obtain ⟨hcl, hsl, hl⟩ := h
  cases he : stageEntryOf s k with
  | none =>
    obtain ⟨hset, hcar⟩ := leads_of_no_entry he
    rw [hset, hcar]; exact ⟨hcl, hsl⟩
  | some e =>
    obtain ⟨hset, hcar⟩ := leads_of_entry he
    have hle : s.cfg.l ≤ setLeadEff s k := by
      rw [hset]
      cases e.setLead with
      | none => exact hcl.trans hsl
      | some v => exact (heldIn_range hl v).1
    rw [hcar]; exact heldIn_range hle _

/-! ### Floors over the LIVE staged peers (R63, R89) -/

/-- A lift enters a floor exactly when a LIVE staged peer, of the own car group where asked, shows it (R63). -/
theorem mem_peerLifts (s : State) (carOnly : Bool) (x : Int) :
    x ∈ peerLifts s carOnly ↔
      ∃ q ∈ peerRows s, q.marks.live = .live ∧ q.report.lift = some x ∧
        (carOnly = true → q.fixed.car = s.straps.car.val) := by
  simp only [peerLifts, List.mem_filterMap, List.mem_filter, Row.isLive, Bool.and_eq_true,
    Bool.or_eq_true, Bool.not_eq_true', beq_iff_eq]
  refine exists_congr fun q => ?_
  cases carOnly <;> simp <;> tauto

/-- A term of the least of some lifts bounds a lift exactly when the term of each does. -/
theorem le_min?_term (xs : List Int) (lead : Nat) (z : Int) :
    (∀ m, xs.min? = some m → z ≤ m + lead) ↔ ∀ x ∈ xs, z ≤ x + lead := by
  cases hm : xs.min? with
  | none => rw [List.min?_eq_none_iff.mp hm]; simp
  | some m =>
    have h := List.le_min?_iff hm (x := z - lead)
    simpa [sub_le_iff_le_add] using h

/-- A term of the greatest of some lifts bounds a lift exactly when the term of each does. -/
theorem max?_term_le (xs : List Int) (lead : Nat) (z : Int) :
    (∀ m, xs.max? = some m → m - lead ≤ z) ↔ ∀ x ∈ xs, x - lead ≤ z := by
  cases hm : xs.max? with
  | none => rw [List.max?_eq_none_iff.mp hm]; simp
  | some m =>
    have h := List.max?_le_iff hm (x := z + lead)
    simpa [sub_le_iff_le_add] using h

/-- The lead ceiling is the effective target with a term over each LIVE staged peer (R89). -/
theorem le_leadCeiling (s : State) (r : StagedRec) (z : Int) :
    z ≤ leadCeiling s r ↔
      z ≤ r.effTarget ∧ (∀ x ∈ peerLifts s true, z ≤ x + carLeadEff s r.stage) ∧
        ∀ x ∈ peerLifts s false, z ≤ x + setLeadEff s r.stage := by
  simp only [leadCeiling, le_minTerm, carMin, setMin, le_min?_term, and_assoc]

/-- The floor is the effective target with a term over each LIVE staged peer (R89). -/
theorem leadFloor_le (s : State) (r : StagedRec) (z : Int) :
    leadFloor s r ≤ z ↔
      r.effTarget ≤ z ∧ (∀ x ∈ peerLifts s true, x - carLeadEff s r.stage ≤ z) ∧
        ∀ x ∈ peerLifts s false, x - setLeadEff s r.stage ≤ z := by
  simp only [leadFloor, maxTerm_le, carMax, setMax, max?_term_le, and_assoc]

/-- A nudge's room is a term over each LIVE staged peer (R99). -/
theorem nudgeFits_iff (s : State) (z : Int) :
    nudgeFits s z = true ↔
      (∀ x ∈ peerLifts s true, z ≤ x + s.cfg.cl) ∧ ∀ x ∈ peerLifts s false, z ≤ x + s.cfg.sl := by
  simp only [nudgeFits, Bool.and_eq_true, underTerm_iff, carMin, setMin, le_min?_term]

/-! ### What an evaluation offers (R90, R92, R99, R102) -/

/-- A stroke that an evaluation may offer from a lift: it ends beyond it in its direction, and within the lead terms
of its class (R89, R92, R99). -/
structure StrokeFits (s : State) (r : StagedRec) (h : Int) (o : Stroke) : Prop where
  start : o.start = h
  raises : ∀ z, o.stop = some z → o.kind ≠ .nudge → o.dir = .raise → h < z ∧ z ≤ leadCeiling s r
  lowers : ∀ z, o.stop = some z → o.dir = .lower → z < h ∧ leadFloor s r ≤ z
  nudges : ∀ z, o.stop = some z → o.kind = .nudge → nudgeFits s z = true
  nudgeDir : o.kind = .nudge → o.dir = .raise

/-- A chosen stroke goes toward the target by a length above 0 that the room leaves (R92). -/
theorem chooseStroke_cases {s : State} {r : StagedRec} {h d g : Int} {dir : Direction} {o : Stroke}
    (ho : chooseStroke s r h d g dir = some o) (hd : 0 < d) (hl : 0 < s.cfg.l)
    (hc : 0 < s.settings.chop) :
    ∃ kind, ∃ len : Nat, kind ≠ .nudge ∧ 0 < len ∧ (len : Int) ≤ g ∧
      o = towardTarget s r h kind dir len := by
  unfold chooseStroke at ho
  split at ho
  · exact ⟨.tail, d.toNat, nofun, by omega, by omega, (Option.some.inj ho).symm⟩
  · split at ho
    · exact ⟨.full, _, nofun, hl, by omega, (Option.some.inj ho).symm⟩
    · split at ho
      · exact ⟨.chop, _, nofun, hc, by omega, (Option.some.inj ho).symm⟩
      · cases ho

theorem strokeFits_raise {s : State} {r : StagedRec} {h d : Int} {o : Stroke}
    (ho : chooseStroke s r h d (leadCeiling s r - h) .raise = some o) (hd : 0 < d) (hl : 0 < s.cfg.l)
    (hc : 0 < s.settings.chop) : StrokeFits s r h o := by
  obtain ⟨kind, len, hk, h0, hg, rfl⟩ := chooseStroke_cases ho hd hl hc
  refine ⟨rfl, fun z hz _ _ => ?_, fun _ _ hdir => (nomatch hdir), fun _ _ h => absurd h hk,
    fun h => absurd h hk⟩
  obtain rfl : h + len = z := Option.some.inj hz
  omega

theorem strokeFits_lower {s : State} {r : StagedRec} {h d : Int} {o : Stroke}
    (ho : chooseStroke s r h d (h - leadFloor s r) .lower = some o) (hd : 0 < d) (hl : 0 < s.cfg.l)
    (hc : 0 < s.settings.chop) : StrokeFits s r h o := by
  obtain ⟨kind, len, hk, h0, hg, rfl⟩ := chooseStroke_cases ho hd hl hc
  refine ⟨rfl, fun _ _ _ hdir => (nomatch hdir), fun z hz _ => ?_, fun _ _ h => absurd h hk,
    fun h => absurd h hk⟩
  obtain rfl : h - len = z := Option.some.inj hz
  omega

theorem strokeFits_nudge {s : State} (r : StagedRec) {h : Int}
    (hf : nudgeFits s (h + nudgeLength s) = true) : StrokeFits s r h (nudgeStroke s r h) :=
  ⟨rfl, fun _ _ hk => absurd rfl hk, fun _ _ hdir => (nomatch hdir),
    fun _ hz _ => Option.some.inj hz ▸ hf, fun _ => rfl⟩

@[simp] theorem offer_tryQueue (s : State) : (tryQueue s).spacing.offer = s.spacing.offer := by
  unfold tryQueue
  split
  · rfl
  · split
    · split <;> rfl
    · rfl

@[simp] theorem offer_handOffer (o : Option Stroke) (s : State) :
    (handOffer o s).spacing.offer = o := by
  cases o with
  | none => rfl
  | some r => exact offer_tryQueue _

@[simp] theorem offer_giveOffer (r : Stroke) (s : State) : (giveOffer r s).spacing.offer = some r :=
  offer_handOffer _ _

@[simp] theorem offer_giveWait (w : WaitReason) (s : State) : (giveWait w s).spacing.offer = none := rfl

@[simp] theorem offer_giveArrived (s : State) : (giveArrived s).spacing.offer = none := rfl

@[simp] theorem offer_offerOrLead (o : Option Stroke) (s : State) :
    (offerOrLead o s).spacing.offer = o := by
  cases o with
  | none => rfl
  | some r => exact offer_giveOffer r s

/-- A withdraw command leaves the offer as it is (R143). -/
@[simp] theorem offer_pawlWithdraw (s : State) : (pawlWithdraw s).spacing.offer = s.spacing.offer := by
  unfold pawlWithdraw
  split
  · split
    · exact (motionOnly_reportPawl .withdrawing (motionOnly_setPawl _ (.refl s))).offer
    · rfl
    · rfl
  · rfl

theorem offer_evalRaise {r : StagedRec} {h : Int} {s : State} {o : Stroke}
    (ho : (evalRaise r h s).spacing.offer = some o) :
    chooseStroke s r h (distance s r h) (leadCeiling s r - h) .raise = some o := by
  unfold evalRaise at ho
  split at ho
  · rwa [offer_offerOrLead] at ho
  · exact nomatch ho

theorem offer_evalLower {r : StagedRec} {h : Int} {s : State} {o : Stroke}
    (ho : (evalLower r h s).spacing.offer = some o) :
    chooseStroke s r h (distance s r h) (h - leadFloor s r) .lower = some o := by
  unfold evalLower at ho
  simp only [apply_ite State.spacing, apply_ite Spacing.offer, offer_pawlWithdraw, ite_self] at ho
  split at ho
  · rwa [offer_offerOrLead] at ho
  · exact nomatch ho

/-- The floors, the leads and the offered strokes are found in the outer part of a state (R63, R88, R89). -/
theorem strokeFits_of_outer {s t : State} {r : StagedRec} {h : Int} {o : Stroke}
    (ho : t.outer = s.outer) (hf : StrokeFits t r h o) : StrokeFits s r h o := by
  have htable : t.table = s.table := congrArg Outer.table ho
  have hstraps : t.straps = s.straps := congrArg Outer.straps ho
  have hsettings : t.settings = s.settings := congrArg Outer.settings ho
  have hplan : t.plan = s.plan := congrArg Outer.plan ho
  have hlifts : peerLifts t = peerLifts s := by
    unfold peerLifts peerRows; rw [htable, hstraps]
  have hcfg : t.cfg = s.cfg := congrArg SettingsMem.inForce hsettings
  have hentry : stageEntryOf t = stageEntryOf s := by
    funext k; unfold stageEntryOf; rw [hplan]
  have hset : setLeadEff t = setLeadEff s := by
    funext k; unfold setLeadEff; rw [hentry, hcfg]
  have hcar : carLeadEff t = carLeadEff s := by
    funext k; unfold carLeadEff; rw [hentry, hset, hcfg]
  have hceiling : ∀ z, z ≤ leadCeiling t r ↔ z ≤ leadCeiling s r := fun z => by
    rw [le_leadCeiling, le_leadCeiling, hlifts, hset, hcar]
  have hfloor : ∀ z, leadFloor t r ≤ z ↔ leadFloor s r ≤ z := fun z => by
    rw [leadFloor_le, leadFloor_le, hlifts, hset, hcar]
  have hnudge : ∀ z, nudgeFits t z = true ↔ nudgeFits s z = true := fun z => by
    rw [nudgeFits_iff, nudgeFits_iff, hlifts, hcfg]
  exact
    { start := hf.start
      raises := fun z hz hk hd => (hf.raises z hz hk hd).imp_right (hceiling z).mp
      lowers := fun z hz hd => (hf.lowers z hz hd).imp_right (hfloor z).mp
      nudges := fun z hz hk => (hnudge z).mp (hf.nudges z hz hk)
      nudgeDir := hf.nudgeDir }

theorem strokeFits_evalLower {r : StagedRec} {h : Int} {s : State} {o : Stroke}
    (ho : (evalLower r h s).spacing.offer = some o) (hd : 0 < distance s r h) (hl : 0 < s.cfg.l)
    (hc : 0 < s.settings.chop) : StrokeFits s r h o :=
  strokeFits_lower (offer_evalLower ho) hd hl hc

theorem strokeFits_evalNudge {r : StagedRec} {h : Int} {s : State} {o : Stroke}
    (ho : (evalNudge r h s).spacing.offer = some o) (hd : 0 < distance s r h) (hl : 0 < s.cfg.l)
    (hc : 0 < s.settings.chop) : StrokeFits s r h o := by
  unfold evalNudge at ho
  split at ho
  · split at ho
    · generalize hu : notify { s with ceiling := { s.ceiling with nudgeDue := false } } = u at ho
      have hout : (markRelease u).outer = s.outer := (outer_markRelease u).trans (by rw [← hu]; rfl)
      have hsettings : (markRelease u).settings = s.settings := congrArg Outer.settings hout
      have hdist : distance (markRelease u) r h = distance s r h := by
        have : (markRelease u).stage = s.stage := by
          unfold markRelease; rw [← hu]; split <;> rfl
        unfold distance; rw [this]
      refine strokeFits_of_outer hout (strokeFits_evalLower ho (hdist ▸ hd) ?_ (hsettings ▸ hc))
      unfold State.cfg at hl ⊢; rw [hsettings]; exact hl
    · split at ho
      · rw [offer_giveOffer] at ho
        obtain rfl := Option.some.inj ho
        exact strokeFits_nudge r ‹_›
      · exact nomatch ho
  · exact nomatch ho

/-- What a staged station at REST is offered fits its leads (R89, R90, R92, R99). -/
theorem strokeFits_evalAtRest {s : State} {r : StagedRec} {h : Int} {o : Stroke}
    (hr : s.stagedRec = some r) (hh : s.lift = some h)
    (ho : (evalAtRest s).spacing.offer = some o) (hl : 0 < s.cfg.l) (hc : 0 < s.settings.chop) :
    StrokeFits s r h o := by
  unfold evalAtRest at ho
  rw [hr, hh] at ho
  simp only [] at ho
  have hout := outer_markRelease s
  have hsettings : (markRelease s).settings = s.settings := congrArg Outer.settings hout
  have hl' : 0 < (markRelease s).cfg.l := by unfold State.cfg at hl ⊢; rw [hsettings]; exact hl
  have hc' : 0 < (markRelease s).settings.chop := hsettings ▸ hc
  refine strokeFits_of_outer hout ?_
  generalize markRelease s = u at ho hl' hc'
  split at ho
  · exact nomatch ho
  · have hd : 0 < distance u r h := by
      rename_i harr
      simp only [countsArrived, Bool.or_eq_true, decide_eq_true_eq, not_or] at harr
      omega
    split at ho
    · split at ho
      · exact strokeFits_evalNudge ho hd hl' hc'
      · exact strokeFits_evalLower ho hd hl' hc'
    · exact strokeFits_raise (offer_evalRaise ho) hd hl' hc'

theorem lift_of_staged {s : State} {r : StagedRec} (h : s.stage.record = .staged r) :
    s.lift = some ((s.engine.travel : Int) - r.contactZero) := by
  unfold State.lift; rw [(stagedRec_eq_some s r).mpr h]; rfl

end Sys2Proof.Machine

open Sys2Proof Sys2Proof.Machine in
/-- Settles O51, by what each lead term says of each LIVE staged peer, and what each class of stroke is offered. -/
theorem offerWithinLeads : Obligations.OfferWithinLeads := by
  refine ⟨fun s k => ⟨fun j e hk he => ?_, fun hk => ?_⟩, fun s r z => ?_,
    fun s r o z hm hst hr ho hz hl hc => ?_⟩
  · obtain ⟨hset, hcar⟩ := leads_of_entry (s := s) (k := k) (e := e) (by rw [hk]; exact he)
    refine ⟨?_, ?_⟩
    · rw [hset]; cases e.setLead <;> rfl
    · rw [hcar]; cases e.carLead <;> rfl
  · exact leads_of_no_entry (by rcases hk with rfl | rfl <;> rfl)
  · simp only [le_leadCeiling, leadFloor_le, nudgeFits_iff, mem_peerLifts, and_self]
  · have hfit : StrokeFits s r ((s.engine.travel : Int) - r.contactZero) o := by
      refine strokeFits_evalAtRest ((stagedRec_eq_some s r).mpr hr) (lift_of_staged hr) ?_ hl hc
      unfold evaluate at ho
      rwa [if_pos hm, hst] at ho
    refine ⟨leads_ordered r.stage, fun hk hd => ?_, fun hd => ?_, fun q hq x hlive hx => ?_⟩
    · obtain ⟨h₁, h₂⟩ := hfit.raises z hz hk hd
      exact ⟨hfit.start ▸ h₁, ((le_leadCeiling s r z).mp h₂).1⟩
    · obtain ⟨h₁, h₂⟩ := hfit.lowers z hz hd
      exact ⟨hfit.start ▸ h₁, ((leadFloor_le s r z).mp h₂).1⟩
    · have hset : x ∈ peerLifts s false := (mem_peerLifts s false x).mpr ⟨q, hq, hlive, hx, nofun⟩
      have hcar : q.fixed.car = s.straps.car.val → x ∈ peerLifts s true := fun hcar =>
        (mem_peerLifts s true x).mpr ⟨q, hq, hlive, hx, fun _ => hcar⟩
      by_cases hk : o.kind = .nudge
      · have hfits := (nudgeFits_iff s z).mp (hfit.nudges z hz hk)
        have hraise := hfit.nudgeDir hk
        simp only [hk, hraise, if_true, reduceCtorEq, false_implies, true_implies, and_true]
        exact ⟨hfits.2 x hset, trivial, fun hc => hfits.1 x (hcar hc)⟩
      · have hup : o.dir = .raise → z ≤ leadCeiling s r := fun hd => (hfit.raises z hz hk hd).2
        have hdown : o.dir = .lower → leadFloor s r ≤ z := fun hd => (hfit.lowers z hz hd).2
        simp only [le_leadCeiling, leadFloor_le] at hup hdown
        simp only [hk, if_false]
        exact ⟨fun hd => (hup hd).2.2 x hset, fun hd => (hdown hd).2.2 x hset, fun hc =>
          ⟨fun hd => (hup hd).2.1 x (hcar hc), fun hd => (hdown hd).2.1 x (hcar hc)⟩⟩

/-! ## The peer table and the mode (O5)

What every operation but freeze, the entry to BARRED, a start and the writing of rows keeps of the table. -/

namespace Sys2Proof.Machine

/-! ### Modes that have a table (R45) -/

/-- The station is in a mode that has a peer table (R45). -/
def HasTable (s : State) : Prop := s.mode ≠ .rollcall ∧ s.mode ≠ .barred

theorem hasTable_of_mode {s t : State} (h : t.mode = s.mode) : HasTable t ↔ HasTable s := by
  unfold HasTable; rw [h]

/-- The invariant of the table: it stands in just the modes that have one, with the own self row (R35, R45, R48). -/
def Tabled (s : State) : Prop := TableExists s ∧ TableOwn s

/-- The table, the straps, whether the mode has a table, and the condition of PEER_SILENT stand as they stood. -/
structure PeersKept (s t : State) : Prop where
  table : t.table = s.table
  straps : t.straps = s.straps
  mode : HasTable t ↔ HasTable s
  silent : t.active .peerSilent = s.active .peerSilent

theorem PeersKept.refl (s : State) : PeersKept s s := ⟨rfl, rfl, .rfl, rfl⟩

theorem PeersKept.trans {s t u : State} (h₁ : PeersKept s t) (h₂ : PeersKept t u) : PeersKept s u :=
  ⟨h₂.table.trans h₁.table, h₂.straps.trans h₁.straps, h₂.mode.trans h₁.mode,
    h₂.silent.trans h₁.silent⟩

/-- An update of blocks that neither the table nor the mode is in may go before. -/
theorem PeersKept.after {s t u : State} (h : PeersKept t u) (ht : t.table = s.table)
    (hs : t.straps = s.straps) (hm : t.modeCtl = s.modeCtl) (hf : t.faults = s.faults) :
    PeersKept s u :=
  PeersKept.trans ⟨ht, hs, hasTable_of_mode (congrArg ModeCtl.mode hm),
    active_of_fault (congrArg (·[faultCode .peerSilent]) hf)⟩ h

theorem PeersKept.own {s t : State} (h : PeersKept s t) : t.own = s.own := by
  unfold State.own; rw [h.straps]

theorem PeersKept.hasTable {s t : State} (h : PeersKept s t) (hs : HasTable s) : HasTable t :=
  h.mode.mpr hs

theorem tableOwn_of_blocks {s t : State} (ht : t.table = s.table) (hs : t.straps = s.straps)
    (h : TableOwn s) : TableOwn t := by
  unfold TableOwn State.own at h ⊢; rw [ht, hs]; exact h

theorem tabled_of_blocks {s t : State} (ht : t.table = s.table) (hs : t.straps = s.straps)
    (hm : HasTable t ↔ HasTable s) (h : Tabled s) : Tabled t :=
  ⟨Iff.trans (by rw [ht]) (h.1.trans hm.symm), tableOwn_of_blocks ht hs h.2⟩

theorem tabled_of_kept {s t : State} (hk : PeersKept s t) (h : Tabled s) : Tabled t :=
  tabled_of_blocks hk.table hk.straps hk.mode h

/-- The Laws' views decide it, for an operation that changes no mode. -/
theorem peersKept_of_views {s t : State} (ho : t.outer = s.outer) (hr : t.record = s.record)
    (hm : t.mode = s.mode) : PeersKept s t :=
  ⟨congrArg Outer.table ho, congrArg Outer.straps ho, hasTable_of_mode hm,
    active_of_fault (fault_of_record hr _)⟩

/-- The Laws' views decide it, for an entry from one mode that has a table to another. -/
theorem peersKept_enter {s t : State} (hs : HasTable s) (ho : t.outer = s.outer)
    (hr : t.record = s.record) (ht : HasTable t) : PeersKept s t :=
  ⟨congrArg Outer.table ho, congrArg Outer.straps ho, ⟨fun _ => hs, fun _ => ht⟩,
    active_of_fault (fault_of_record hr _)⟩

theorem hasTable_of_eq {s : State} {m : Mode} (h : s.mode = m) (h₁ : m ≠ .rollcall)
    (h₂ : m ≠ .barred) : HasTable s := ⟨h ▸ h₁, h ▸ h₂⟩

/-! ### Mode entries and occurrences (R166, R167, R175, R177) -/

theorem peersKept_enterUnstaged {s : State} (h : HasTable s) : PeersKept s (enterUnstaged s) :=
  peersKept_enter h (by simp) (by simp) (hasTable_of_eq (mode_enterUnstaged s) nofun nofun)

theorem peersKept_enterSettled {s : State} (h : HasTable s) : PeersKept s (enterSettled s) :=
  peersKept_enter h (by simp) (by simp) (hasTable_of_eq (mode_enterSettled s) nofun nofun)

theorem peersKept_enterHold {s : State} (h : HasTable s) : PeersKept s (enterHold s) :=
  peersKept_enter h (by simp) (by simp) (hasTable_of_eq (mode_enterHold s) nofun nofun)

theorem peersKept_enterHalted {s : State} (h : HasTable s) : PeersKept s (enterHalted s) :=
  peersKept_enter h (by simp) (by simp) (hasTable_of_eq (mode_enterHalted s) nofun nofun)

theorem peersKept_recordStop (m : Mode) (o : StopOrigin) (k : Option FaultKind) (n : Option Nat)
    (s : State) : PeersKept s (recordStop m o k n s) := ⟨rfl, rfl, .rfl, rfl⟩

theorem peersKept_requestPose (s : State) : PeersKept s (requestPose s) :=
  peersKept_of_views (by simp) (by simp) (by simp)

theorem peersKept_handRetained (s : State) : PeersKept s (handRetained s) :=
  peersKept_of_views (by simp) (by simp) (by simp)

theorem peersKept_pawlSet (s : State) : PeersKept s (pawlSet s) :=
  peersKept_of_views (by simp) (by simp) (by simp)

theorem peersKept_setFault {k : FaultKind} {r : FaultRec} {s : State}
    (hr : r.active = s.active k) : PeersKept s (setFault k r s) := by
  refine ⟨rfl, rfl, .rfl, ?_⟩
  by_cases hk : .peerSilent = k
  · subst hk; exact (congrArg FaultRec.active (fault_setFault_same _ r s)).trans hr
  · exact congrArg FaultRec.active (fault_setFault_other hk r s)

theorem peersKept_setActive {k : FaultKind} (hk : k ≠ .peerSilent) (on : Bool) (s : State) :
    PeersKept s (setActive k on s) :=
  ⟨rfl, rfl, .rfl, active_of_fault (fault_setFault_other hk.symm _ s)⟩

theorem peersKept_latchAt (p : Place) (n : Option Nat) (k : FaultKind) (s : State) :
    PeersKept s (latchAt p n k s) := by
  have h : PeersKept s (setFault k (occurred s.timeBase p n (s.fault k)) s) := peersKept_setFault rfl
  unfold latchAt
  simp only []
  split
  · exact h
  · exact h.trans ((peersKept_requestPose _).after rfl rfl rfl rfl)

theorem peersKept_placeHalt (k : FaultKind) (s : State) : PeersKept s (placeHalt k s) := by
  unfold placeHalt
  split
  · exact .refl s
  · split
    · exact .refl s
    · exact ⟨rfl, rfl, .rfl, rfl⟩

/-- An occurrence takes a station with a table to HOLD or HALTED at most, and no other station anywhere (R167). -/
theorem peersKept_modeOnFault (k : FaultKind) (s : State) : PeersKept s (modeOnFault k s) := by
  by_cases hk : haltClass k = true
  · rw [modeOnFault_halt hk]
    split
    · exact peersKept_placeHalt k s
    · rename_i hm
      simp only [not_or] at hm
      exact (peersKept_enterHalted ⟨hm.1, hm.2.1⟩).trans
        ((peersKept_recordStop ..).trans (peersKept_placeHalt k _))
  · unfold modeOnFault
    rw [if_neg hk]
    split
    · rename_i hm
      simp only [Bool.and_eq_true, beq_iff_eq] at hm
      exact (peersKept_enterHold (hasTable_of_eq hm.2 nofun nofun)).trans (peersKept_recordStop ..)
    · exact .refl s

theorem peersKept_reportAt (p : Place) (k : FaultKind) (n : Option Nat) (s : State) :
    PeersKept s (reportAt p k n s) :=
  (peersKept_latchAt p n k s).trans (peersKept_modeOnFault k _)

theorem peersKept_report (k : FaultKind) (n : Option Nat) (s : State) :
    PeersKept s (report k n s) := peersKept_reportAt _ k n s

theorem peersKept_pawlStuck (s : State) : PeersKept s (pawlStuck s) :=
  (peersKept_of_views (by simp; rfl) (by simp; rfl) (by simp; rfl)).trans (peersKept_report _ _ _)

theorem peersKept_shareEval (s : State) : PeersKept s (shareEval s) := by
  have hw : PeersKept s (writeShare s) := ⟨rfl, rfl, .rfl, rfl⟩
  have ha : ∀ on, PeersKept s (setActive .loadShare on (writeShare s)) := fun on =>
    hw.trans (peersKept_setActive (k := .loadShare) nofun on _)
  unfold shareEval
  simp only []
  split
  · exact (ha true).trans (peersKept_report _ _ _)
  · split
    · exact ha false
    · exact hw

/-! ### Arrival, entry to MOVING, stroke ends and contact (R77, R80 to R84, R129 to R131) -/

theorem peersKept_endStaging {s : State} (h : HasTable s) : PeersKept s (endStaging s) :=
  peersKept_enter h (by simp) (by simp) (hasTable_of_eq (mode_endStaging s) nofun nofun)

theorem peersKept_handOverArrival {s : State} (h : HasTable s) : PeersKept s (handOverArrival s) := by
  unfold handOverArrival
  split
  · exact peersKept_endStaging h
  · exact peersKept_enterSettled h
  · exact .refl s

theorem peersKept_arrive {s : State} (h : HasTable s) : PeersKept s (arrive s) := by
  have hw : PeersKept s { s with stage := { s.stage with awaitingSet := true } } :=
    ⟨rfl, rfl, .rfl, rfl⟩
  unfold arrive
  split
  · exact peersKept_handOverArrival h
  · simp only []
    split
    · exact hw
    · exact hw.trans (peersKept_pawlSet _)

theorem mode_markLimitReported (s : State) : (markLimitReported s).mode = s.mode := by
  unfold markLimitReported; split <;> rfl

theorem peersKept_arrivalTest (s : State) : PeersKept s (arrivalTest s) := by
  unfold arrivalTest
  split
  · split
    · rename_i hm
      simp only []
      split
      · split
        · exact (peersKept_of_views (by simp) (by simp) (mode_markLimitReported s)).trans
            (peersKept_report _ _ _)
        · exact peersKept_arrive (hasTable_of_eq hm nofun nofun)
      · split
        · exact .refl s
        · exact peersKept_report _ _ _
    · exact .refl s
  · exact .refl s

theorem peersKept_enterMoving {s : State} (h : HasTable s) : PeersKept s (enterMoving s) := by
  have hm : PeersKept s (setMode .moving (endJog s)) :=
    peersKept_enter h (by simp) (by simp) (hasTable_of_eq (mode_setMode _ _) nofun nofun)
  unfold enterMoving
  refine PeersKept.trans ?_ ((peersKept_shareEval _).trans (peersKept_arrivalTest _))
  split
  · exact hm.trans ⟨rfl, rfl, .rfl, rfl⟩
  · exact hm

theorem peersKept_takeUp {s : State} (h : HasTable s) : PeersKept s (takeUp s) :=
  have hr : PeersKept s (handRetained (notify { s with stage := { s.stage with dir := .raise } })) :=
    (peersKept_handRetained _).after rfl rfl rfl rfl
  hr.trans (peersKept_enterMoving (hr.hasTable h))

theorem peersKept_moveTo (k : StageIx) {s : State} (h : HasTable s) : PeersKept s (moveTo k s) :=
  have hs : PeersKept s (stageEntry k s) := peersKept_of_views (by simp) (by simp) (by simp)
  hs.trans (peersKept_enterMoving (hs.hasTable h))

theorem peersKept_stopRun (d : Direction) (s : State) : PeersKept s (stopRun d s) :=
  peersKept_of_views (by simp) (by simp) (by simp)

theorem peersKept_strokeEnd (r : Stroke) (s : State) : PeersKept s (strokeEnd r s) := by
  have hs := peersKept_stopRun r.dir s
  unfold strokeEnd
  simp only []
  split
  · refine (hs.trans ?_).trans (peersKept_arrivalTest _)
    have hn : ∀ u : State, PeersKept u
        (if r.kind = .nudge then { u with ceiling := { u.ceiling with nudgeDue := false } } else u) := by
      intro u; split
      · exact ⟨rfl, rfl, .rfl, rfl⟩
      · exact .refl u
    split
    · exact (hn _).trans (peersKept_pawlSet _)
    · exact hn _
  · exact hs

theorem peersKept_captureContact (s : State) : PeersKept s (captureContact s) :=
  (peersKept_stopRun .raise s).trans
    (((peersKept_handRetained _).trans (peersKept_arrivalTest _)).after rfl rfl rfl rfl)

theorem peersKept_contactTest (s : State) : PeersKept s (contactTest s) := by
  unfold contactTest
  split
  · have hr : ∀ u : State, PeersKept u (contactReport u) := fun u => by
      unfold contactReport
      split
      · split
        · exact peersKept_captureContact u
        · exact .refl u
      · exact .refl u
    exact (hr _).after rfl rfl rfl rfl
  · exact .refl s

theorem peersKept_topOfTravel (s : State) : PeersKept s (topOfTravel s) :=
  (peersKept_stopRun .raise s).trans (peersKept_report _ _ _)

/-! ### The ceiling unit and the settling of a command (R58, R86, R87) -/

@[simp] theorem mode_tryQueue (s : State) : (tryQueue s).mode = s.mode := by
  unfold tryQueue
  split
  · rfl
  · split
    · split <;> rfl
    · rfl

@[simp] theorem mode_handOffer (o : Option Stroke) (s : State) : (handOffer o s).mode = s.mode := by
  cases o with
  | none => rfl
  | some r => exact mode_tryQueue _

@[simp] theorem mode_giveOffer (r : Stroke) (s : State) : (giveOffer r s).mode = s.mode :=
  mode_handOffer _ _

@[simp] theorem mode_giveWait (w : WaitReason) (s : State) : (giveWait w s).mode = s.mode := rfl

@[simp] theorem mode_giveArrived (s : State) : (giveArrived s).mode = s.mode := rfl

@[simp] theorem mode_offerOrLead (o : Option Stroke) (s : State) : (offerOrLead o s).mode = s.mode := by
  cases o with
  | none => rfl
  | some r => exact mode_giveOffer r s

@[simp] theorem mode_markRelease (s : State) : (markRelease s).mode = s.mode := by
  unfold markRelease; split <;> rfl

@[simp] theorem mode_evalRaise (r : StagedRec) (h : Int) (s : State) :
    (evalRaise r h s).mode = s.mode := by
  unfold evalRaise; split <;> simp

@[simp] theorem mode_evalLower (r : StagedRec) (h : Int) (s : State) :
    (evalLower r h s).mode = s.mode := by
  unfold evalLower
  simp only []
  split <;> (split <;> simp)

@[simp] theorem mode_evalNudge (r : StagedRec) (h : Int) (s : State) :
    (evalNudge r h s).mode = s.mode := by
  unfold evalNudge
  split
  · split
    · exact (mode_evalLower _ _ _).trans (mode_markRelease _)
    · split <;> simp
  · simp

theorem peersKept_evalAtRest (s : State) : PeersKept s (evalAtRest s) := by
  have hm := peersKept_of_views (outer_markRelease s) (record_markRelease s) (mode_markRelease s)
  unfold evalAtRest
  split
  · simp only []
    refine hm.trans ?_
    split
    · exact peersKept_of_views (by simp) (by simp) (by simp)
    · split
      · split <;> exact peersKept_of_views (by simp) (by simp) (by simp)
      · exact peersKept_of_views (by simp) (by simp) (by simp)
  · unfold evalTakeUp
    have hw : ∀ w, PeersKept s (giveWait w s) := fun w =>
      peersKept_of_views (by simp) (by simp) (by simp)
    split
    · exact (hw _).trans (peersKept_report _ _ _)
    · split
      · exact peersKept_of_views (by simp) (by simp) (by simp)
      · exact hw _

theorem peersKept_evaluate (s : State) : PeersKept s (evaluate s) := by
  have hi : PeersKept s (ceilingIdle s) := ⟨rfl, rfl, .rfl, rfl⟩
  unfold evaluate
  split
  · split
    · exact hi
    · simp only []
      split
      · exact ⟨rfl, rfl, .rfl, rfl⟩
      · have hw : ∀ u : State, PeersKept u (requestWithdrawal u) := fun u =>
          peersKept_of_views (by simp) (by simp) (by simp)
        exact (hw _).after rfl rfl rfl rfl
    · exact peersKept_evalAtRest s
  · exact hi

theorem peersKept_awaitTest (s : State) : PeersKept s (awaitTest s) := by
  unfold awaitTest
  split
  · rename_i h
    have hw : HasTable { s with stage := { s.stage with awaitingSet := false } } :=
      hasTable_of_eq h.2.1 nofun nofun
    exact (peersKept_handOverArrival hw).after rfl rfl rfl rfl
  · exact .refl s

theorem peersKept_restTest (s : State) : PeersKept s (restTest s) := by
  unfold restTest
  split
  · split
    · rename_i h
      exact peersKept_enter (hasTable_of_eq h.1 nofun nofun) (by simp) (by simp)
        (hasTable_of_eq (mode_enterIdle s) nofun nofun)
    · exact .refl s
  · exact .refl s

theorem peersKept_readers (s : State) : PeersKept s (readers s) :=
  (peersKept_shareEval s).trans ((peersKept_awaitTest _).trans
    ((peersKept_restTest _).trans (peersKept_evaluate _)))

theorem peersKept_settle (n : Nat) (s : State) : PeersKept s (settle n s) := by
  induction n generalizing s with
  | zero => exact .refl s
  | succ n ih =>
    unfold settle
    split
    · exact ((peersKept_readers _).trans (ih _)).after rfl rfl rfl rfl
    · exact .refl s

/-- What ends a command keeps the table, and the modes on their side of R45. -/
theorem peersKept_finish (s : State) : PeersKept s (finish s) := by
  have hb : ∀ u : State, PeersKept u (armBusy u) := fun u => by
    unfold armBusy
    split
    · exact ⟨rfl, rfl, .rfl, rfl⟩
    · exact .refl u
  have hc : ∀ u : State, PeersKept u (refreshLamps (armBusy (clearNotice u))) := fun u =>
    PeersKept.trans ((hb (clearNotice u)).after rfl rfl rfl rfl) ⟨rfl, rfl, .rfl, rfl⟩
  exact (peersKept_settle settleRounds s).trans (hc _)

/-! ### Orders, HALT, POSE and PLAN at mode control and the plan store (R66 to R70, R169 to R178) -/

theorem peersKept_refuse (kind : RefusedKind) (why : Reason) (n : Nat) (s : State) :
    PeersKept s (refuse kind why n s) := ⟨rfl, rfl, .rfl, rfl⟩

theorem peersKept_refuseOrder (kind : RefusedKind) (why : Reason) (n : Nat) (s : State) :
    PeersKept s (refuseOrder kind why n s) := by
  unfold refuseOrder
  simp only []
  split
  · exact (peersKept_refuse kind why n s).trans (peersKept_report _ _ _)
  · exact peersKept_refuse kind why n s

theorem peersKept_takeAdvance (n : Nat) {s : State} (h : HasTable s) :
    PeersKept s (takeAdvance n s) := by
  unfold takeAdvance
  split
  · split
    · exact peersKept_refuseOrder ..
    · split
      · exact peersKept_refuseOrder ..
      · exact peersKept_takeUp h
  · split
    · exact peersKept_refuseOrder ..
    · split
      · exact peersKept_refuseOrder ..
      · exact peersKept_moveTo _ h
  · exact peersKept_refuseOrder ..

theorem peersKept_takeRetreat (n : Nat) {s : State} (h : HasTable s) :
    PeersKept s (takeRetreat n s) := by
  unfold takeRetreat
  split
  · split
    · exact peersKept_refuseOrder ..
    · split
      · exact peersKept_moveTo _ h
      · exact peersKept_refuseOrder ..
  · exact peersKept_refuseOrder ..

theorem peersKept_takeStop (n : Nat) {s : State} (h : HasTable s) : PeersKept s (takeStop n s) := by
  unfold takeStop
  split
  · exact (peersKept_enterHold h).trans (peersKept_recordStop ..)
  · exact .refl s

/-- An acknowledgement clears latched flags, and ends no condition (R171). -/
theorem peersKept_unlatch (p : FaultKind → Bool) (s : State) : PeersKept s (unlatch p s) := by
  have hf := fault_unlatch p s .peerSilent
  obtain ⟨faults, a, b, notice, he⟩ := unlatch_eq p s
  refine ⟨by rw [he], by rw [he], hasTable_of_mode (by rw [he]; rfl), ?_⟩
  unfold State.active
  rw [hf]
  split <;> rfl

theorem peersKept_resumeMode (n : Nat) {s : State} (h : HasTable s) :
    PeersKept s (resumeMode n s) := by
  unfold resumeMode
  split
  · split
    · exact peersKept_refuseOrder ..
    · split
      · exact peersKept_refuseOrder ..
      · split
        · exact peersKept_refuseOrder ..
        · exact peersKept_enterMoving h
  · split
    · exact peersKept_refuseOrder ..
    · split
      · exact peersKept_refuseOrder ..
      · unfold leaveHalted
        split
        · exact peersKept_enterUnstaged h
        · split
          · exact peersKept_enterSettled h
          · exact peersKept_enterHold h
  · exact .refl s

theorem record_pawlOnResume (s : State) : (pawlOnResume s).record = s.record := by
  unfold pawlOnResume pawlFoundWithdrawn
  split
  · split <;> simp
  · rfl

theorem peersKept_takeResume (n : Nat) {s : State} (h : HasTable s) :
    PeersKept s (takeResume n s) :=
  have hp := (peersKept_of_views (outer_pawlOnResume s) (record_pawlOnResume s)
    (mode_pawlOnResume s)).trans (peersKept_unlatch _ _)
  hp.trans (peersKept_resumeMode n (hp.hasTable h))

theorem peersKept_takeHalt (n : Nat) (k : FaultKind) {s : State} (h : HasTable s) :
    PeersKept s (takeHalt n k s) := by
  unfold takeHalt
  split
  · exact (peersKept_enterHalted h).trans (peersKept_recordStop ..)
  · exact .refl s

theorem peersKept_catchUp (m : PoseMsg) {s : State} (h : HasTable s) : PeersKept s (catchUp m s) := by
  unfold catchUp
  split
  · split
    · exact peersKept_takeUp h
    · exact .refl s
  · split
    · exact peersKept_moveTo _ h
    · exact .refl s
  · split
    · exact peersKept_moveTo _ h
    · exact .refl s
  · exact .refl s

theorem peersKept_modeOnPose (n : Nat) (m : PoseMsg) {s : State} (h : HasTable s) :
    PeersKept s (modeOnPose n m s) := by
  unfold modeOnPose
  split
  · exact (peersKept_enterHalted h).trans (peersKept_recordStop ..)
  · split
    · exact (peersKept_enterHold h).trans (peersKept_recordStop ..)
    · exact peersKept_catchUp m h

theorem peersKept_takePlan (n : Nat) (op : PlanOp) (s : State) : PeersKept s (takePlan n op s) := by
  cases op with
  | load target car set =>
    show PeersKept s (takeLoad _ s)
    unfold takeLoad
    split <;> exact ⟨rfl, rfl, .rfl, rfl⟩
  | clear => exact ⟨rfl, rfl, .rfl, rfl⟩
  | adopt =>
    show PeersKept s (takeAdopt n s)
    unfold takeAdopt
    split
    · exact peersKept_refuse ..
    · exact ((peersKept_handRetained _).trans (peersKept_requestPose _)).after rfl rfl rfl rfl

end Sys2Proof.Machine

namespace Sys2Proof.Machine

/-! ### Commands that leave the table alone -/

/-- Whatever state an outcome gives, it keeps the table and the side of R45 that the mode is on. -/
def KeepsPeers (s : State) (o : Host.Outcome State Fault Refusal) : Prop :=
  ∀ t, o = .next t → PeersKept s t

theorem keepsPeers_still (s : State) : KeepsPeers s (.next s) := by
  rintro _ ⟨⟩; exact .refl s

theorem keepsPeers_finish {s t : State} (h : PeersKept s t) : KeepsPeers s (.next (finish t)) := by
  rintro _ ⟨⟩; exact h.trans (peersKept_finish t)

/-! #### The line -/

theorem peersKept_of_claimMoved {s t : State} (h : ClaimMoved s t) : PeersKept s t := by
  obtain ⟨_, _, _, _, _, _, rfl⟩ := h
  exact ⟨rfl, rfl, .rfl, rfl⟩

theorem peersKept_countFailure (s : State) : PeersKept s (countFailure s) := by
  by_cases h : s.line.failures = 15
  · rw [countFailure_reaches h]
    exact ((peersKept_setActive (k := .line) nofun true _).trans (peersKept_report _ _ _)).after
      rfl rfl rfl rfl
  · rw [countFailure_counts h]
    exact ⟨rfl, rfl, .rfl, rfl⟩

theorem peersKept_failAttempt (s : State) : PeersKept s (failAttempt s) := by
  have hoff := (peersKept_of_claimMoved (claimMoved_offLine s)).after (s := s) rfl rfl rfl rfl
  exact hoff.trans (peersKept_countFailure _)

/-- A frame that completes reaches the table through its content alone (R13, R16). -/
theorem peersKept_frameArrives (w : WireFrame) (s : State) : PeersKept s (frameArrives w s) := by
  obtain ⟨line, faults, he⟩ := frameArrives_eq w s
  refine ⟨by rw [he], by rw [he], hasTable_of_mode (by rw [he]; rfl), ?_⟩
  exact active_of_fault (fault_frameArrives (k := .peerSilent) nofun w s)

theorem keepsPeers_lineIdleStartBit (peer : Bool) (s : State) :
    KeepsPeers s (execLineIdleStartBit peer s) := by
  unfold execLineIdleStartBit
  split
  · exact keepsPeers_still s
  · exact keepsPeers_finish ⟨rfl, rfl, .rfl, rfl⟩

theorem keepsPeers_lostArbitration (s : State) : KeepsPeers s (execLostArbitration s) := by
  unfold execLostArbitration
  split
  · exact keepsPeers_still s
  · exact keepsPeers_finish
      ((peersKept_of_claimMoved (claimMoved_claimOffLine (dropAttempt s))).after rfl rfl rfl rfl)

theorem keepsPeers_wonArbitration (s : State) : KeepsPeers s (execWonArbitration s) := by
  unfold execWonArbitration
  split
  · exact keepsPeers_finish ⟨rfl, rfl, .rfl, rfl⟩
  · exact keepsPeers_still s

theorem keepsPeers_bitError (s : State) : KeepsPeers s (execBitError s) := by
  unfold execBitError
  split
  · exact keepsPeers_still s
  · exact keepsPeers_finish (peersKept_failAttempt s)

theorem keepsPeers_lineBusyLimitExpiry (s : State) : KeepsPeers s (execLineBusyLimitExpiry s) := by
  unfold execLineBusyLimitExpiry
  split
  · exact keepsPeers_finish ((peersKept_countFailure _).after rfl rfl rfl rfl)
  · exact keepsPeers_still s

theorem keepsPeers_badFrame (levels : List Level) (s : State) :
    KeepsPeers s (execBadFrame levels s) := by
  unfold execBadFrame
  split
  · exact keepsPeers_still s
  · exact keepsPeers_finish ⟨rfl, rfl, .rfl, rfl⟩

theorem keepsPeers_malformedFrame (w : WireFrame) (s : State) :
    KeepsPeers s (execMalformedFrame w s) := by
  unfold execMalformedFrame
  split
  · exact keepsPeers_finish ⟨rfl, rfl, .rfl, rfl⟩
  · exact keepsPeers_still s

theorem keepsPeers_posePeriodExpiry (s : State) : KeepsPeers s (execPosePeriodExpiry s) := by
  unfold execPosePeriodExpiry
  split
  · exact keepsPeers_finish ((peersKept_requestPose _).after rfl rfl rfl rfl)
  · exact keepsPeers_still s

theorem peersKept_requestRoll (s : State) : PeersKept s (requestRoll s) := by
  rw [requestRoll_eq]; exact ⟨rfl, rfl, .rfl, rfl⟩

theorem peersKept_armPacing (s : State) : PeersKept s (armPacing s) := ⟨rfl, rfl, .rfl, rfl⟩

theorem keepsPeers_rollPacingExpiry (s : State) : KeepsPeers s (execRollPacingExpiry s) := by
  have asks : ∀ u : State, PeersKept u (armPacing (requestRoll u)) := fun u =>
    (peersKept_requestRoll u).trans (peersKept_armPacing _)
  unfold execRollPacingExpiry
  split
  · refine keepsPeers_finish ?_
    split
    · exact (asks _).after rfl rfl rfl rfl
    · split
      · exact (asks _).after rfl rfl rfl rfl
      · exact ⟨rfl, rfl, .rfl, rfl⟩
  · exact keepsPeers_still s

theorem peersKept_answerRoll (s : State) : PeersKept s (answerRoll s) := by
  unfold answerRoll
  split
  · exact (peersKept_requestRoll s).trans (peersKept_armPacing _)
  · exact ⟨rfl, rfl, .rfl, rfl⟩

/-! #### Spacing, strokes and the column -/

theorem keepsPeers_spacingInstantExpiry (s : State) : KeepsPeers s (execSpacingInstantExpiry s) := by
  have htry : ∀ u : State, PeersKept u (tryQueue u) := fun u =>
    peersKept_of_views (by simp) (by simp) (by simp)
  unfold execSpacingInstantExpiry
  split
  · exact keepsPeers_finish ((htry _).after rfl rfl rfl rfl)
  · exact keepsPeers_still s

theorem keepsPeers_strokeTimeLimitExpiry (s : State) :
    KeepsPeers s (execStrokeTimeLimitExpiry s) := by
  unfold execStrokeTimeLimitExpiry
  split
  · refine keepsPeers_finish ?_
    split
    · exact ((peersKept_stopRun _ _).trans (peersKept_report _ _ _)).after rfl rfl rfl rfl
    · exact ⟨rfl, rfl, .rfl, rfl⟩
  · exact keepsPeers_still s

theorem keepsPeers_reversalDwellExpiry (s : State) : KeepsPeers s (execReversalDwellExpiry s) := by
  unfold execReversalDwellExpiry
  split
  · exact keepsPeers_finish ⟨rfl, rfl, .rfl, rfl⟩
  · exact keepsPeers_still s

theorem peersKept_endJog (s : State) : PeersKept s (endJog s) :=
  peersKept_of_views (by simp) (by simp) (by simp)

theorem peersKept_countRunning (up : Bool) (r : Stroke) (n : Nat) (s : State) :
    PeersKept s (countRunning up r n s) := by
  unfold countRunning
  split
  · exact peersKept_topOfTravel s
  · split
    · split
      · exact peersKept_strokeEnd r s
      · exact ⟨rfl, rfl, .rfl, rfl⟩
    · split
      · exact (peersKept_stopRun _ s).trans (peersKept_report _ _ _)
      · exact ⟨rfl, rfl, .rfl, rfl⟩

theorem peersKept_afterCount (up : Bool) (s : State) : PeersKept s (afterCount up s) := by
  unfold afterCount
  split
  · exact peersKept_countRunning up _ _ s
  · split
    · unfold creepTest
      simp only []
      split
      · exact (peersKept_report _ _ s).trans ⟨rfl, rfl, .rfl, rfl⟩
      · exact .refl s
    · unfold jogTravelTest
      split
      · split
        · exact peersKept_endJog s
        · exact .refl s
      · split
        · exact peersKept_endJog s
        · exact .refl s
      · exact .refl s

theorem keepsPeers_countEvent (up : Bool) (s : State) : KeepsPeers s (execCountEvent up s) := by
  refine keepsPeers_finish ?_
  split
  · exact peersKept_reportAt _ _ _ s
  · refine (peersKept_afterCount up _).after ?_ ?_ ?_ ?_ <;> (split <;> rfl)

theorem peersKept_overloadTest (s : State) : PeersKept s (overloadTest s) := by
  have ha : ∀ (on : Bool) (u : State), PeersKept u (setActive .overload on u) := fun on u =>
    peersKept_setActive (k := .overload) nofun on u
  unfold overloadTest
  simp only []
  split
  · exact ((ha true _).trans (peersKept_report _ _ _)).after rfl rfl rfl rfl
  · split
    · exact (ha false _).after rfl rfl rfl rfl
    · exact ⟨rfl, rfl, .rfl, rfl⟩

theorem peersKept_loadTests (s : State) : PeersKept s (loadTests s) := by
  unfold loadTests
  split
  · simp only []
    split
    · exact ((peersKept_contactTest _).trans (peersKept_overloadTest _)).after rfl rfl rfl rfl
    · exact ((peersKept_overloadTest _).trans (peersKept_contactTest _)).after rfl rfl rfl rfl
  · exact (peersKept_overloadTest s).trans (peersKept_contactTest _)

theorem peersKept_jogLoadTest (s : State) : PeersKept s (jogLoadTest s) := by
  unfold jogLoadTest
  split
  · exact peersKept_endJog s
  · exact .refl s

theorem keepsPeers_loadReading (v : Fin 4096) (s : State) : KeepsPeers s (execLoadReading v s) := by
  refine keepsPeers_finish (((peersKept_loadTests _).trans ((peersKept_jogLoadTest _).trans
    (peersKept_shareEval _))).after ?_ ?_ ?_ ?_)
  all_goals unfold takeReading; simp only []; split <;> rfl

theorem peersKept_reportPawl (p : PawlState) (s : State) : PeersKept s (reportPawl p s) :=
  peersKept_of_views (by simp) (by simp) (by simp)

theorem peersKept_pawlWithdraw (s : State) : PeersKept s (pawlWithdraw s) :=
  peersKept_of_views (by simp) (by simp) (by simp)

theorem peersKept_pawlOnSwitch (sw : PawlSwitch) (closed : Bool) (s : State) :
    PeersKept s (pawlOnSwitch sw closed s) := by
  have hset : PeersKept s (pawlReachesSet s) := by
    unfold pawlReachesSet
    simp only []
    split
    · exact ((peersKept_reportPawl _ _).trans (peersKept_pawlWithdraw _)).after rfl rfl rfl rfl
    · exact (peersKept_reportPawl _ _).after rfl rfl rfl rfl
  unfold pawlOnSwitch
  split
  · exact peersKept_pawlStuck s
  · exact peersKept_pawlStuck s
  · split
    · exact peersKept_pawlStuck s
    · exact (peersKept_reportPawl _ _).after rfl rfl rfl rfl
  · exact peersKept_pawlStuck s
  · exact peersKept_pawlStuck s
  · split
    · exact peersKept_pawlStuck s
    · exact hset
  · exact .refl s

theorem keepsPeers_switchEvent (sw : PawlSwitch) (closed : Bool) (s : State) :
    KeepsPeers s (execSwitchEvent sw closed s) := by
  unfold execSwitchEvent
  split
  · exact keepsPeers_still s
  · refine keepsPeers_finish ((peersKept_pawlOnSwitch sw closed _).after ?_ ?_ ?_ ?_) <;>
      (cases sw <;> rfl)

theorem keepsPeers_pawlTimeLimitExpiry (s : State) : KeepsPeers s (execPawlTimeLimitExpiry s) := by
  unfold execPawlTimeLimitExpiry
  split
  · refine keepsPeers_finish ?_
    split
    · exact (peersKept_pawlStuck _).after rfl rfl rfl rfl
    · exact (peersKept_pawlStuck _).after rfl rfl rfl rfl
    · exact ⟨rfl, rfl, .rfl, rfl⟩
  · exact keepsPeers_still s

/-! #### The pendant -/

theorem keepsPeers_orderButtonPress (b : OrderButton) (pressed : Bool) (s : State) :
    KeepsPeers s (execOrderButtonPress b pressed s) := by
  unfold execOrderButtonPress
  split
  · exact keepsPeers_still s
  · refine keepsPeers_finish ?_
    split
    · unfold queueOrder
      split <;> exact ⟨rfl, rfl, .rfl, rfl⟩
    · exact ⟨rfl, rfl, .rfl, rfl⟩

theorem keepsPeers_jogUpPress (s : State) : KeepsPeers s (execJogUpPress s) := by
  unfold execJogUpPress
  split
  · exact keepsPeers_still s
  · refine keepsPeers_finish ?_
    split
    · exact (peersKept_endJog _).after rfl rfl rfl rfl
    · split
      · unfold jogUp
        split <;> exact ⟨rfl, rfl, .rfl, rfl⟩
      · exact ⟨rfl, rfl, .rfl, rfl⟩

theorem keepsPeers_jogDownPress (s : State) : KeepsPeers s (execJogDownPress s) := by
  unfold execJogDownPress
  split
  · exact keepsPeers_still s
  · refine keepsPeers_finish ?_
    split
    · exact (peersKept_endJog _).after rfl rfl rfl rfl
    · split
      · unfold jogDown
        split
        · split
          · exact ⟨rfl, rfl, .rfl, rfl⟩
          · exact (peersKept_pawlWithdraw _).after rfl rfl rfl rfl
        · exact ⟨rfl, rfl, .rfl, rfl⟩
      · exact ⟨rfl, rfl, .rfl, rfl⟩

theorem keepsPeers_jogUpRelease (s : State) : KeepsPeers s (execJogUpRelease s) := by
  unfold execJogUpRelease
  split
  · refine keepsPeers_finish ?_
    split
    · exact (peersKept_endJog _).after rfl rfl rfl rfl
    · exact ⟨rfl, rfl, .rfl, rfl⟩
  · exact keepsPeers_still s

theorem keepsPeers_jogDownRelease (s : State) : KeepsPeers s (execJogDownRelease s) := by
  unfold execJogDownRelease
  split
  · refine keepsPeers_finish ?_
    split
    · exact (peersKept_endJog _).after rfl rfl rfl rfl
    · exact ⟨rfl, rfl, .rfl, rfl⟩
  · exact keepsPeers_still s

theorem keepsPeers_keySwitch (on : Bool) (s : State) : KeepsPeers s (execKeySwitch on s) := by
  unfold execKeySwitch
  split
  · exact keepsPeers_still s
  · refine keepsPeers_finish ?_
    split
    · exact ⟨rfl, rfl, .rfl, rfl⟩
    · exact (peersKept_endJog _).after rfl rfl rfl rfl

theorem keepsPeers_emergencyOpen (s : State) : KeepsPeers s (execEmergencyOpen s) := by
  unfold execEmergencyOpen
  split
  · exact keepsPeers_finish (((peersKept_setActive (k := .emergency) nofun true _).trans
      (peersKept_report _ _ _)).after rfl rfl rfl rfl)
  · exact keepsPeers_still s

theorem keepsPeers_emergencyClose (s : State) : KeepsPeers s (execEmergencyClose s) := by
  unfold execEmergencyClose
  split
  · exact keepsPeers_still s
  · exact keepsPeers_finish
      ((peersKept_setActive (k := .emergency) nofun false _).after rfl rfl rfl rfl)

/-! #### Settings memory, the long wait and the service port -/

theorem keepsPeers_writeCompletion (s : State) : KeepsPeers s (execWriteCompletion s) := by
  unfold execWriteCompletion
  split
  · exact keepsPeers_still s
  · refine keepsPeers_finish ?_
    unfold completeWrite
    simp only []
    split <;> exact ⟨rfl, rfl, .rfl, rfl⟩

theorem keepsPeers_waitingLong (s : State) : KeepsPeers s (execWaitingLong s) := by
  unfold execWaitingLong
  split
  · exact keepsPeers_finish ⟨rfl, rfl, .rfl, rfl⟩
  · exact keepsPeers_still s

theorem peersKept_answer (r : Request) (s : State) : PeersKept s (answer r s).2 := by
  have hplan : ∀ p, PeersKept s (askPlanFrame p s).2 := fun p => by
    unfold askPlanFrame
    split
    · exact .refl s
    · split
      · exact .refl s
      · exact ⟨rfl, rfl, .rfl, rfl⟩
  have hsnap : PeersKept s (takeSnapshots s) :=
    ⟨rfl, rfl, .rfl, by simp [State.active, State.fault, takeSnapshots]⟩
  unfold answer
  split
  · exact .refl s
  · exact .refl s
  · exact hsnap
  · exact peersKept_unlatch _ s
  · exact .refl s
  · exact hplan _
  · exact hplan _
  · exact hplan _
  · exact .refl s
  · split
    · exact ⟨rfl, rfl, .rfl, rfl⟩
    · exact .refl s
  · exact .refl s

theorem peersKept_takeRequest (r : Request) (s : State) : PeersKept s (takeRequest r s) :=
  (peersKept_answer r s).trans ⟨rfl, rfl, .rfl, rfl⟩

theorem peersKept_feedByte (s : State) (b : Byte) : PeersKept s (feedByte s b) := by
  have hservice : ∀ p : Service, PeersKept s { s with service := p } := fun p =>
    ⟨rfl, rfl, .rfl, rfl⟩
  unfold feedByte
  split
  · split
    · exact hservice _
    · exact .refl s
  · simp only []
    split
    · split
      · unfold acceptRequest
        split
        · exact (hservice _).trans (peersKept_takeRequest _ _)
        · exact hservice _
        · exact hservice _
      · exact hservice _
    · exact hservice _

theorem keepsPeers_feed (bytes : List Byte) (s : State) : KeepsPeers s (feed bytes s) := by
  have hfold : ∀ (bs : List Byte) (u : State), PeersKept u (bs.foldl feedByte u) := by
    intro bs
    induction bs with
    | nil => exact PeersKept.refl
    | cons b bs ih => exact fun u => (peersKept_feedByte u b).trans (ih _)
  refine keepsPeers_finish (PeersKept.trans ?_ (hfold _ _))
  unfold breakOff
  split
  · exact ⟨rfl, rfl, .rfl, rfl⟩
  · exact .refl s

theorem keepsPeers_serviceByteGap (s : State) : KeepsPeers s (execServiceByteGap s) := by
  unfold execServiceByteGap
  split
  · exact keepsPeers_finish ⟨rfl, rfl, .rfl, rfl⟩
  · exact keepsPeers_still s

theorem keepsPeers_replySent (s : State) : KeepsPeers s (execReplySent s) := by
  unfold execReplySent
  split
  · exact keepsPeers_still s
  · refine keepsPeers_finish ?_
    split
    · exact ⟨rfl, rfl, .rfl, rfl⟩
    · exact (peersKept_takeRequest _ _).after rfl rfl rfl rfl

/-! ### Commands that write rows (R45, R48) -/

/-- A change of the table that leaves every row's fixed fields. -/
def KeepsFixed (f : PeerTable → PeerTable) : Prop :=
  ∀ a, (f a).selfFixed = a.selfFixed ∧ (f a).peers.map (·.fixed) = a.peers.map (·.fixed)

theorem keepsFixed_mapMarks (n : Nat) (f : RowMarks → RowMarks) : KeepsFixed (mapMarks n f) := by
  intro a
  unfold mapMarks
  split
  · exact ⟨rfl, rfl⟩
  · refine ⟨rfl, ?_⟩
    simp only [List.map_map]
    exact List.map_congr_left fun r _ => by simp only [Function.comp_apply]; split <;> rfl

theorem keepsFixed_mapReport (n : Nat) (f : Report → Report) : KeepsFixed (mapReport n f) := by
  intro a
  refine ⟨rfl, ?_⟩
  simp only [mapReport, List.map_map]
  exact List.map_congr_left fun r _ => by simp only [Function.comp_apply]; split <;> rfl

/-- Whose rows a table holds is found in its fixed fields. -/
theorem tableOwn_iff (s : State) :
    TableOwn s ↔ ∀ a, s.table = some a →
      a.selfFixed.number = s.own ∧ ∀ x ∈ a.peers.map (·.fixed), x.number ≠ s.own := by
  simp only [TableOwn, List.forall_mem_map]

theorem tableOwn_map {s t : State} {f : PeerTable → PeerTable} (hf : KeepsFixed f)
    (ht : t.table = s.table.map f) (hs : t.straps = s.straps) (h : TableOwn s) : TableOwn t := by
  have hown : t.own = s.own := by unfold State.own; rw [hs]
  rw [tableOwn_iff] at h ⊢
  intro b hb
  rw [ht] at hb
  obtain ⟨a, ha, rfl⟩ := Option.map_eq_some_iff.mp hb
  rw [hown, (hf a).1, (hf a).2]
  exact h a ha

theorem tabled_map {s t : State} {f : PeerTable → PeerTable} (hf : KeepsFixed f)
    (ht : t.table = s.table.map f) (hs : t.straps = s.straps) (hm : t.mode = s.mode)
    (h : Tabled s) : Tabled t := by
  refine ⟨Iff.trans (by rw [ht, Option.isSome_map]) (h.1.trans ?_), tableOwn_map hf ht hs h.2⟩
  rw [hm]

/-- A station without a table is in a mode that has none. -/
theorem tabled_none {s : State} (ht : s.table = none) (hm : ¬ HasTable s) : Tabled s :=
  ⟨⟨fun h => absurd (ht ▸ h) nofun, fun h => absurd h hm⟩, fun _ ha => absurd (ht ▸ ha) nofun⟩

theorem straps_signOfLife (n : Nat) (s : State) : (signOfLife n s).straps = s.straps :=
  congrArg Outer.straps (outer_signOfLife n s)

theorem tableOwn_signOfLife (n : Nat) {s : State} (h : TableOwn s) : TableOwn (signOfLife n s) :=
  tableOwn_map (keepsFixed_mapMarks n _) (table_signOfLife n s) (straps_signOfLife n s) h

theorem tabled_signOfLife (n : Nat) {s : State} (h : Tabled s) : Tabled (signOfLife n s) :=
  tabled_map (keepsFixed_mapMarks n _) (table_signOfLife n s) (straps_signOfLife n s)
    (mode_signOfLife n s) h

/-- The outcome's state, if there is one, meets the invariant of the table. -/
def NextTabled (o : Host.Outcome State Fault Refusal) : Prop := ∀ t, o = .next t → Tabled t

theorem nextTabled_finish {s : State} (h : Tabled s) : NextTabled (.next (finish s)) := by
  rintro _ ⟨⟩; exact tabled_of_kept (peersKept_finish s) h

theorem nextTabled_of_keeps {s : State} {o : Host.Outcome State Fault Refusal} (h : KeepsPeers s o)
    (hs : Tabled s) : NextTabled o := fun t ht => tabled_of_kept (h t ht) hs

/-- A frame is delivered to a station with a table alone (R17). -/
theorem tabled_deliver {s : State} (n : Nat) {act : State → State}
    (ha : ∀ u, HasTable u → Tabled u → Tabled (act u)) (h : Tabled s) : Tabled (deliver n act s) := by
  unfold deliver
  split
  · exact h
  · rename_i hm
    split
    · refine ha _ ?_ (tabled_signOfLife n h)
      rw [hasTable_of_mode (mode_signOfLife n s)]
      exact not_or.mp hm
    · exact tabled_of_blocks rfl rfl .rfl h

theorem tabled_deliver_kept {s : State} (n : Nat) {act : State → State}
    (ha : ∀ u, HasTable u → PeersKept u (act u)) (h : Tabled s) : Tabled (deliver n act s) :=
  tabled_deliver n (fun u hu => tabled_of_kept (ha u hu)) h

theorem nextTabled_receive {s : State} (w : WireFrame) {act : Content → State → State}
    (ha : ∀ c u, Tabled u → Tabled (act c u)) (h : Tabled s) : NextTabled (receive w act s) := by
  have h' := tabled_of_kept (peersKept_frameArrives w s) h
  unfold receive
  refine nextTabled_finish ?_
  split
  · exact tabled_of_blocks rfl rfl .rfl h'
  · exact ha _ _ h'

theorem tabled_enterBarred (s : State) : Tabled (enterBarred s) := by
  refine tabled_none (congrArg Outer.table (outer_enterBarred s)) fun h => h.2 ?_
  exact (entersBarred_enterBarred s).mode

theorem tabled_rollInWindow {s : State} (n : Nat) (m : RollMsg) (h : Tabled s) :
    Tabled (rollInWindow n m s) := by
  have hreport : ∀ k p, Tabled (report k p s) := fun k p =>
    tabled_of_kept (peersKept_report k p s) h
  unfold rollInWindow
  split
  · exact hreport _ _
  · split
    · exact hreport _ _
    · simp only []
      split
      · split
        · exact tabled_of_blocks rfl rfl .rfl h
        · exact hreport _ _
      · split
        · exact tabled_enterBarred _
        · exact tabled_of_blocks rfl rfl .rfl h

theorem tabled_rollToRow {s : State} (n : Nat) (mode : RollMode) (h : Tabled s) :
    Tabled (rollToRow n mode s) := by
  cases mode with
  | frozen => exact h
  | rollcall => exact tabled_map (keepsFixed_mapReport n _) rfl rfl rfl h
  | barred => exact tabled_map (keepsFixed_mapReport n _) rfl rfl rfl h

theorem tabled_rollFromMember {s : State} (n : Nat) (m : RollMsg) (r : Row) (h : Tabled s) :
    Tabled (rollFromMember n m r s) := by
  have hlife := tabled_signOfLife n h
  unfold rollFromMember
  simp only []
  split
  · have hrow := tabled_rollToRow n m.mode hlife
    split
    · exact tabled_of_kept (peersKept_answerRoll _) hrow
    · exact hrow
  · exact tabled_of_kept (peersKept_report _ _ _) hlife

theorem tabled_actRoll {s : State} (n : Nat) (c : Content) (h : Tabled s) : Tabled (actRoll n c s) := by
  unfold actRoll
  split
  · unfold takeRoll
    split
    · exact tabled_rollInWindow n _ h
    · unfold rollInBarred
      split
      · exact tabled_of_kept (peersKept_answerRoll s) h
      · exact h
    · split
      · exact tabled_rollFromMember n _ _ h
      · exact tabled_of_kept (peersKept_report _ _ s) h
  · exact h

theorem tabled_actPose {s : State} (n : Nat) (c : Content) (h : Tabled s) : Tabled (actPose n c s) := by
  unfold actPose
  split
  · refine tabled_deliver n (fun u hu htab => ?_) h
    unfold takePose
    split
    · exact htab
    · exact tabled_of_kept (peersKept_modeOnPose n _ hu)
        (tabled_map (keepsFixed_mapReport n _) rfl rfl rfl htab)
  · exact h

theorem tabled_takeClaim {s : State} (n : Nat) (m : ClaimMsg) (h : Tabled s) :
    Tabled (takeClaim n m s) := by
  have hcause : ∀ u : State, PeersKept u (causeOfWithdrawal u) := fun u =>
    peersKept_of_views (by simp) (by simp) (by simp)
  have hstamp : ∀ g, Tabled (stampClaim g (stampRowClaim n s)) := fun g =>
    tabled_map (keepsFixed_mapMarks n _) rfl rfl rfl h
  unfold takeClaim
  split
  · exact h
  · simp only []
    split
    · exact hstamp _
    · have hrow := fun g => tabled_map (keepsFixed_mapReport n (claimToRow m))
        (t := onTable (mapReport n (claimToRow m)) (stampClaim g (stampRowClaim n s)))
        rfl rfl rfl (hstamp g)
      unfold withdrawForClaim
      split
      · exact tabled_of_kept (hcause _) (hrow _)
      · exact hrow _

theorem tabled_actClaim {s : State} (n : Nat) (c : Content) (h : Tabled s) :
    Tabled (actClaim n c s) := by
  unfold actClaim
  split
  · exact tabled_deliver n (fun _ _ => tabled_takeClaim n _) h
  · exact h

theorem tabled_actHalt {s : State} (n : Nat) (c : Content) (h : Tabled s) : Tabled (actHalt n c s) := by
  unfold actHalt
  split
  · exact tabled_deliver_kept n (fun _ => peersKept_takeHalt n _) h
  · exact h

theorem tabled_actPlan {s : State} (n : Nat) (c : Content) (h : Tabled s) : Tabled (actPlan n c s) := by
  unfold actPlan
  split
  · exact tabled_deliver_kept n (fun u _ => peersKept_takePlan n _ u) h
  · exact h

theorem peersKept_engineOnClaim (held : Bool) (s : State) : PeersKept s (engineOnClaim held s) := by
  unfold engineOnClaim
  split
  · simp only []
    split
    · split
      · exact peersKept_strokeEnd _ s
      · unfold runStroke
        simp only []
        split
        · exact (peersKept_contactTest _).after rfl rfl rfl rfl
        · exact ⟨rfl, rfl, .rfl, rfl⟩
    · unfold voidClaim
      simp only []
      split
      · exact ((peersKept_requestPose _).trans (peersKept_report _ _ _)).after rfl rfl rfl rfl
      · exact (peersKept_requestPose _).after rfl rfl rfl rfl
  · exact .refl s

theorem peersKept_completeOwn (kind : BitVec 3) (s : State) : PeersKept s (completeOwn kind s) :=
  (peersKept_setActive (k := .line) nofun false _).after rfl rfl rfl rfl

theorem tabled_claimIsTaken {s : State} (h : Tabled s) : Tabled (claimIsTaken s) := by
  have hc : Tabled (completeOwn kindClaim { lineBusy s with
      line := { (lineBusy s).line with claim := .empty } }) :=
    tabled_of_kept ((peersKept_completeOwn _ _).after rfl rfl rfl rfl) h
  unfold claimIsTaken
  simp only []
  split
  · exact hc
  · refine tabled_of_kept (peersKept_engineOnClaim _ _) ?_
    exact tabled_map (keepsFixed_mapMarks _ _) rfl rfl rfl (tabled_signOfLife _ hc)

theorem nextTabled_claimTaken {s : State} (h : Tabled s) : NextTabled (execClaimTaken s) := by
  unfold execClaimTaken
  split
  · exact nextTabled_finish (tabled_claimIsTaken h)
  · exact nextTabled_of_keeps (keepsPeers_still s) h

theorem nextTabled_silenceExpiry (n : Nat) {s : State} (h : Tabled s) :
    NextTabled (execSilenceExpiry n s) := by
  have still := nextTabled_of_keeps (keepsPeers_still s) h
  unfold execSilenceExpiry
  split
  · exact still
  · split
    · refine nextTabled_finish (tabled_of_kept (peersKept_report _ _ _) ?_)
      split <;> exact tabled_map (keepsFixed_mapMarks n _) rfl rfl rfl h
    · exact still

theorem tabled_markStamp {s : State} (ref : StampRef) (h : Tabled s) : Tabled (markStamp ref s) := by
  cases ref with
  | lastHeard n => exact tabled_map (keepsFixed_mapMarks n _) rfl rfl rfl h
  | lastClaim n => exact tabled_map (keepsFixed_mapMarks n _) rfl rfl rfl h
  | candidate n => exact tabled_of_blocks rfl rfl .rfl h
  | line => exact tabled_of_blocks rfl rfl .rfl h
  | feeder => exact tabled_of_blocks rfl rfl .rfl h
  | strokeEnd => exact tabled_of_blocks rfl rfl .rfl h
  | wait => exact tabled_of_blocks rfl rfl .rfl h
  | refusedOrder => exact tabled_of_blocks rfl rfl .rfl h
  | stopRecord => exact tabled_of_blocks rfl rfl .rfl h
  | firstRecord k => exact tabled_of_blocks rfl rfl .rfl h

/-! ### Freeze and a start (R29, R34, R35, R45) -/

/-- A ROLLCALL that is left for a mode with a table leaves the table as it is. -/
theorem leaveRollcall_table {enter : State → State} {s : State} (hout : (enter s).outer = s.outer)
    (hm : HasTable (enter s)) :
    HasTable (leaveRollcall enter s) ∧ (leaveRollcall enter s).table = s.table ∧
      (leaveRollcall enter s).straps = s.straps := by
  rw [leaveRollcall_eq]
  cases hk : firstHaltKind s with
  | none =>
    rw [leftBy_none hk]
    exact ⟨hm, congrArg Outer.table hout, congrArg Outer.straps hout⟩
  | some k =>
    obtain ⟨hmode, -, -, hout', -⟩ := leftBy_some (enter := enter) hk
    exact ⟨hasTable_of_eq (m := .halted) (congrArg ModeCtl.mode hmode) nofun nofun,
      congrArg Outer.table hout', congrArg Outer.straps hout'⟩

/-- The retained decision ends in BARRED without a table, or in a mode with the table as it is (R36, R37). -/
theorem retainedDecision_table (s : State) :
    (∃ u, retainedDecision s = enterBarred u) ∨
      HasTable (retainedDecision s) ∧ (retainedDecision s).table = s.table ∧
        (retainedDecision s).straps = s.straps := by
  have unstaged := leaveRollcall_table (outer_enterUnstaged s)
    (hasTable_of_eq (mode_enterUnstaged s) nofun nofun)
  unfold retainedDecision
  split
  · split
    · split
      · exact .inr (leaveRollcall_table (outer_enterHold _)
          (hasTable_of_eq (mode_enterHold _) nofun nofun))
      · exact .inl ⟨_, rfl⟩
    · exact .inr unstaged
  · split
    · exact .inr unstaged
    · exact .inl ⟨_, rfl⟩

theorem number_tableAtFreeze (s : State) :
    (tableAtFreeze s).selfFixed.number = s.own ∧ ∀ r ∈ (tableAtFreeze s).peers, r.fixed.number ≠ s.own := by
  refine ⟨?_, fun r hr => ?_⟩
  · unfold tableAtFreeze
    cases hc : candidate s s.own with
    | none => rfl
    | some c => exact number_of_candidate hc
  · obtain ⟨c, hc, rfl⟩ := List.mem_map.mp hr
    exact bne_iff_ne.mp (List.mem_filter.mp hc).2

theorem tableOwn_frozen (s : State) : TableOwn (frozen s) := by
  intro a ha
  obtain rfl := Option.some.inj ha
  exact number_tableAtFreeze (closeWindow s)

theorem tabled_freeze (s : State) : Tabled (freeze s) := by
  rw [freeze_eq]
  rcases retainedDecision_table (frozen s) with ⟨u, hu⟩ | ⟨hm, ht, hs⟩
  · rw [hu]; exact tabled_enterBarred u
  · exact ⟨⟨fun _ => hm, fun _ => by rw [ht]; rfl⟩, tableOwn_of_blocks ht hs (tableOwn_frozen s)⟩

theorem nextTabled_rollQuietExpiry {s : State} (h : Tabled s) : NextTabled (execRollQuietExpiry s) := by
  unfold execRollQuietExpiry
  split
  · refine nextTabled_finish ?_
    split
    · split
      · exact tabled_enterBarred _
      · exact tabled_freeze _
    · exact tabled_of_blocks rfl rfl .rfl h
  · exact nextTabled_of_keeps (keepsPeers_still s) h

theorem nextTabled_rollLimitExpiry {s : State} (h : Tabled s) : NextTabled (execRollLimitExpiry s) := by
  unfold execRollLimitExpiry
  split
  · refine nextTabled_finish ?_
    split
    · exact tabled_enterBarred _
    · exact tabled_of_blocks rfl rfl .rfl h
  · exact nextTabled_of_keeps (keepsPeers_still s) h

theorem tabled_started (i : StartInputs) (s : State) : Tabled (started i s) := by
  rcases Nat.lt_or_ge i.straps.number.val 48 with hn | hn
  · obtain ⟨u, ⟨_, _, _, rfl⟩, he⟩ := started_valid s hn
    rw [he]
    exact tabled_of_kept (peersKept_requestRoll _)
      (tabled_none rfl fun h => h.1 rfl)
  · obtain ⟨u, -, he⟩ := started_invalid s hn
    rw [he]; exact tabled_enterBarred u

/-! ### The step -/

theorem nextTabled_exec (c : Instr) {s : State} (h : Tabled s) : NextTabled (exec c s) := by
  have kept : ∀ {o}, KeepsPeers s o → NextTabled o := fun hk => nextTabled_of_keeps hk h
  cases c with
  | start i => exact nextTabled_finish (tabled_started i s)
  | lineIdleStartBit peer => exact kept (keepsPeers_lineIdleStartBit peer s)
  | lostArbitration => exact kept (keepsPeers_lostArbitration s)
  | wonArbitration => exact kept (keepsPeers_wonArbitration s)
  | bitError => exact kept (keepsPeers_bitError s)
  | lineBusyLimitExpiry => exact kept (keepsPeers_lineBusyLimitExpiry s)
  | badFrame levels => exact kept (keepsPeers_badFrame levels s)
  | rollFrame f => exact nextTabled_receive _ (fun c _ => tabled_actRoll _ c) h
  | poseFrame f => exact nextTabled_receive _ (fun c _ => tabled_actPose _ c) h
  | claimFrame f => exact nextTabled_receive _ (fun c _ => tabled_actClaim _ c) h
  | claimTaken => exact nextTabled_claimTaken h
  | advance f =>
    exact nextTabled_receive _ (fun _ _ => tabled_deliver_kept _ fun _ => peersKept_takeAdvance _) h
  | retreat f =>
    exact nextTabled_receive _ (fun _ _ => tabled_deliver_kept _ fun _ => peersKept_takeRetreat _) h
  | stop f =>
    exact nextTabled_receive _ (fun _ _ => tabled_deliver_kept _ fun _ => peersKept_takeStop _) h
  | resume f =>
    exact nextTabled_receive _ (fun _ _ => tabled_deliver_kept _ fun _ => peersKept_takeResume _) h
  | haltFrame f => exact nextTabled_receive _ (fun c _ => tabled_actHalt _ c) h
  | load low f => exact nextTabled_receive _ (fun c _ => tabled_actPlan _ c) h
  | clear low f => exact nextTabled_receive _ (fun c _ => tabled_actPlan _ c) h
  | adopt low f => exact nextTabled_receive _ (fun c _ => tabled_actPlan _ c) h
  | posePeriodExpiry => exact kept (keepsPeers_posePeriodExpiry s)
  | rollQuietExpiry => exact nextTabled_rollQuietExpiry h
  | rollLimitExpiry => exact nextTabled_rollLimitExpiry h
  | rollPacingExpiry => exact kept (keepsPeers_rollPacingExpiry s)
  | silenceExpiry n => exact nextTabled_silenceExpiry n h
  | spacingInstantExpiry => exact kept (keepsPeers_spacingInstantExpiry s)
  | strokeTimeLimitExpiry => exact kept (keepsPeers_strokeTimeLimitExpiry s)
  | reversalDwellExpiry => exact kept (keepsPeers_reversalDwellExpiry s)
  | pawlTimeLimitExpiry => exact kept (keepsPeers_pawlTimeLimitExpiry s)
  | countEvent up => exact kept (keepsPeers_countEvent up s)
  | encoderError => exact kept (keepsPeers_finish (peersKept_reportAt _ _ _ s))
  | loadReading v => exact kept (keepsPeers_loadReading v s)
  | switchEvent sw closed => exact kept (keepsPeers_switchEvent sw closed s)
  | orderButtonPress b pressed => exact kept (keepsPeers_orderButtonPress b pressed s)
  | jogUpPress => exact kept (keepsPeers_jogUpPress s)
  | jogDownPress => exact kept (keepsPeers_jogDownPress s)
  | jogUpRelease => exact kept (keepsPeers_jogUpRelease s)
  | jogDownRelease => exact kept (keepsPeers_jogDownRelease s)
  | keySwitch on => exact kept (keepsPeers_keySwitch on s)
  | emergencyOpen => exact kept (keepsPeers_emergencyOpen s)
  | emergencyClose => exact kept (keepsPeers_emergencyClose s)
  | writeCompletion => exact kept (keepsPeers_writeCompletion s)
  | stampExpired ref => exact nextTabled_finish (tabled_markStamp ref h)
  | waitingLong => exact kept (keepsPeers_waitingLong s)
  | status bytes => exact kept (keepsPeers_feed bytes s)
  | peer bytes => exact kept (keepsPeers_feed bytes s)
  | readFaults bytes => exact kept (keepsPeers_feed bytes s)
  | ack bytes => exact kept (keepsPeers_feed bytes s)
  | planRead bytes => exact kept (keepsPeers_feed bytes s)
  | planLoad bytes => exact kept (keepsPeers_feed bytes s)
  | planClear bytes => exact kept (keepsPeers_feed bytes s)
  | planAdopt bytes => exact kept (keepsPeers_feed bytes s)
  | settingsRead bytes => exact kept (keepsPeers_feed bytes s)
  | settingWrite bytes => exact kept (keepsPeers_feed bytes s)
  | serviceByteGap => exact kept (keepsPeers_serviceByteGap s)
  | replySent => exact kept (keepsPeers_replySent s)
  | malformedFrame w => exact kept (keepsPeers_malformedFrame w s)

theorem nextTabled_step {s : State} (h : Tabled s) : NextTabled (step s) := by
  unfold step
  split
  · exact nextTabled_exec _ (tabled_of_blocks rfl rfl .rfl h)
  · split
    · exact nextTabled_exec _ h
    · rintro _ ⟨⟩
      exact tabled_of_blocks rfl rfl .rfl h

end Sys2Proof.Machine

open Sys2Proof Sys2Proof.Machine in
/-- Settles O5: freeze builds a table, a start and the entry to BARRED leave none, and no other command moves the mode
across R45's line or writes a row's fixed fields. -/
theorem tableKept : Obligations.TableKept :=
  fun _ t hexists hown hstep => nextTabled_step ⟨hexists, hown⟩ t hstep

/-! ## The rows at freeze (O23) -/

namespace Sys2Proof.Machine

/-- Peers' rows built from candidates are found by the candidates' numbers (R35, R47). -/
theorem find_peersAtFreeze {mk : Candidate → Row} (hmk : ∀ c, (mk c).fixed.number = c.number)
    {own n : Nat} (hn : n ≠ own) (cs : List Candidate) :
    ((cs.filter fun c => c.number != own).map mk).find? (fun r => r.fixed.number == n) =
      (cs.find? fun c => c.number == n).map mk := by
  rw [List.find?_map, List.find?_filter]
  congr 2
  funext c
  simp only [Function.comp_apply, hmk]
  by_cases hc : c.number = n
  · simp [hc, hn]
  · simp [hc]

theorem reportAtFreeze_eq (c : Candidate) :
    reportAtFreeze c =
      { mode := if c.mode = .barred then .barred else .rollcall
        lift := none, flight := .none, committedEnd := none, load := 0, pawl := .set
        stage := c.summary.map (·.1), dir := .none
        planTag := (c.summary.map (·.2)).getD 0
        faults := 256#16, rejoined := false } := by
  unfold reportAtFreeze
  cases c.mode <;> rfl

end Sys2Proof.Machine

open Sys2Proof Sys2Proof.Machine in
/-- Settles O23: freeze writes the table that `tableAtFreeze` builds, and the retained decision keeps it or enters
BARRED without it. -/
theorem freezeBuildsTable : Obligations.FreezeBuildsTable := by
  intro s hm hd hM hr marks
  refine ⟨_, exec_freeze hm hd hM hr, ?_⟩
  have hkept := peersKept_finish (retainedDecision (frozen s))
  rcases retainedDecision_table (frozen s) with ⟨u, hu⟩ | ⟨hmode, htable, -⟩
  · rw [hu]
    obtain ⟨hbar, hout, -⟩ := finish_enterBarred u
    exact ⟨fun _ => congrArg Outer.table hout, fun hn => absurd hbar.mode hn⟩
  · refine ⟨fun hb => absurd hb (hkept.hasTable hmode).2, fun _ => ?_⟩
    have ht : (finish (retainedDecision (frozen s))).table =
        some (tableAtFreeze (closeWindow s)) := hkept.table.trans htable
    generalize finish (retainedDecision (frozen s)) = t at ht
    have hpeer : ∀ n, n ≠ s.own → peerOf t n = (candidate s n).map fun c =>
        ⟨fixedOf c, reportAtFreeze c, marksAtFreeze (closeWindow s) c⟩ := fun n hn => by
      unfold peerOf peerRows
      rw [ht]
      exact find_peersAtFreeze (fun _ => rfl) hn s.roll.candidates
    refine ⟨fun n hn hc => by rw [hpeer n hn, hc]; rfl, fun n c hn hc => ?_, fun c hc => ?_⟩
    · rw [hpeer n hn, hc, Option.map_some, reportAtFreeze_eq, ← number_of_candidate hc]
      rfl
    · have hc' : candidate (closeWindow s) (closeWindow s).own = some c := hc
      refine ⟨_, ht, ?_, ?_⟩ <;> unfold tableAtFreeze <;> rw [hc', Option.getD_some]
      · rw [← number_of_candidate hc]; rfl
      · rfl

/-! ## Rows that frames and silence write (O26, O27, O29, O32) -/

namespace Sys2Proof.Machine

/-! ### One row written -/

/-- A write of one number's row: its marks, and the reported fields of a peer (R46, R48). -/
def rowWrite (n : Nat) (mk : RowMarks → RowMarks) (rep : Report → Report) (a : PeerTable) : PeerTable :=
  mapReport n rep (mapMarks n mk a)

/-- The table of `t` is that of `s` with one number's row written. -/
structure RowWritten (n : Nat) (mk : RowMarks → RowMarks) (rep : Report → Report) (s t : State) :
    Prop where
  table : t.table = s.table.map (rowWrite n mk rep)
  straps : t.straps = s.straps

variable {n : Nat} {mk : RowMarks → RowMarks} {rep : Report → Report} {s t u : State}

theorem mapReport_id (n : Nat) (a : PeerTable) : mapReport n id a = a := by
  unfold mapReport
  have : (fun r : Row => if r.fixed.number = n then { r with report := id r.report } else r) = id := by
    funext r; split <;> rfl
  rw [this, List.map_id]

theorem mapMarks_id (n : Nat) (a : PeerTable) : mapMarks n id a = a := by
  unfold mapMarks
  have : (fun r : Row => if r.fixed.number = n then { r with marks := id r.marks } else r) = id := by
    funext r; split <;> rfl
  rw [this, List.map_id]
  split <;> rfl

theorem mapMarks_mapMarks (n : Nat) (f g : RowMarks → RowMarks) (a : PeerTable) :
    mapMarks n f (mapMarks n g a) = mapMarks n (f ∘ g) a := by
  unfold mapMarks
  by_cases h : a.selfFixed.number = n
  · simp only [if_pos h, Function.comp_apply]
  · simp only [if_neg h, List.map_map]
    congr 2
    funext r
    by_cases hr : r.fixed.number = n <;> simp [hr]

theorem RowWritten.kept (h : RowWritten n mk rep s t) (hk : PeersKept t u) : RowWritten n mk rep s u :=
  ⟨hk.table.trans h.table, hk.straps.trans h.straps⟩

theorem rowWritten_of_kept (hk : PeersKept s t) : RowWritten n id id s t := by
  refine ⟨?_, hk.straps⟩
  have : rowWrite n id id = id := by
    funext a; exact (mapReport_id n _).trans (mapMarks_id n a)
  rw [hk.table, this, Option.map_id, id]

/-- A write of marks before a write of marks and reported fields is one write. -/
theorem RowWritten.after {mk' : RowMarks → RowMarks} (h : RowWritten n mk' id s t)
    (k : RowWritten n mk rep t u) : RowWritten n (mk ∘ mk') rep s u := by
  refine ⟨?_, k.straps.trans h.straps⟩
  rw [k.table, h.table, Option.map_map]
  congr 1
  funext a
  simp only [rowWrite, Function.comp_apply, mapReport_id, mapMarks_mapMarks]

theorem RowWritten.tableOwn (h : RowWritten n mk rep s t) (ht : TableOwn s) : TableOwn t := by
  refine tableOwn_map (f := rowWrite n mk rep) (fun a => ?_) h.table h.straps ht
  obtain ⟨h₁, h₂⟩ := keepsFixed_mapReport n rep (mapMarks n mk a)
  obtain ⟨h₃, h₄⟩ := keepsFixed_mapMarks n mk a
  exact ⟨h₁.trans h₃, h₂.trans h₄⟩

/-- The write is seen in the peer's row of that number alone. -/
theorem RowWritten.peerOf (h : RowWritten n mk rep s t) (ht : TableOwn s) (j : Nat) :
    peerOf t j = (peerOf s j).map fun r =>
      if j = n then ⟨r.fixed, rep r.report, mk r.marks⟩ else r := by
  have htable : t.table = (onTable (mapReport n rep) (onTable (mapMarks n mk) s)).table := by
    rw [h.table]
    cases hs : s.table <;> simp [onTable, notify, hs, rowWrite]
  rw [peerOf_of_table htable, peerOf_mapReport, peerOf_mapMarks ht, Option.map_map]
  congr 1
  funext r
  simp only [Function.comp_apply]
  split <;> rfl

/-- A write of a row that is not the station's own leaves the self row (R48). -/
theorem RowWritten.self (h : RowWritten n mk rep s t) (ht : TableOwn s) (hn : n ≠ s.own) :
    (t.table.map fun a => (a.selfFixed, a.selfMarks)) =
      s.table.map fun a => (a.selfFixed, a.selfMarks) := by
  rw [h.table, Option.map_map]
  refine Option.map_congr fun a ha => ?_
  have : ¬ a.selfFixed.number = n := fun e => hn (e.symm.trans (ht a ha).1)
  simp [rowWrite, mapReport, mapMarks, this]

/-- The row written has its fixed fields and the marks written; a member's own row too (R46, R48). -/
theorem RowWritten.rowOf {r : Row} (h : RowWritten n mk rep s t) (ht : TableOwn s)
    (hr : rowOf s n = some r) :
    (rowOf t n).map (fun q => (q.fixed, q.marks)) = some (r.fixed, mk r.marks) := by
  by_cases hn : n = s.own
  · have htable := h.table
    cases hs : s.table with
    | none => simp [Machine.rowOf, allRows, hs] at hr
    | some a =>
      rw [hs] at htable
      have hself : a.selfFixed.number = n := (ht a hs).1.trans hn.symm
      have hfirst : ∀ (v : State) (b : PeerTable), v.table = some b → b.selfFixed.number = n →
          Machine.rowOf v n = some (selfRow v b) := fun v b hv hb => by
        unfold Machine.rowOf allRows
        rw [hv]
        exact List.find?_cons_of_pos (by simp [selfRow, hb])
      have hb : (rowWrite n mk rep a).selfFixed = a.selfFixed ∧
          (rowWrite n mk rep a).selfMarks = mk a.selfMarks := by
        simp [rowWrite, mapReport, mapMarks, hself]
      obtain rfl : selfRow s a = r := Option.some.inj ((hfirst s a hs hself).symm.trans hr)
      rw [hfirst t _ htable (by rw [hb.1, hself]), Option.map_some]
      exact congrArg some (Prod.ext hb.1 hb.2)
  · have hn' : n ≠ t.own := by unfold State.own; rw [h.straps]; exact hn
    rw [rowOf_eq_peerOf ht hn] at hr
    rw [rowOf_eq_peerOf (h.tableOwn ht) hn', h.peerOf ht, hr]
    simp

theorem isMember_of_table (h : t.table = s.table) (n : Nat) : isMember t n = isMember s n := by
  unfold isMember allRows
  rw [h]
  cases s.table <;> rfl

theorem isMember_iff (s : State) (n : Nat) : isMember s n = true ↔ ∃ r, rowOf s n = some r := by
  rw [← Option.isSome_iff_exists, rowOf, List.find?_isSome, isMember, List.any_eq_true]

theorem isMember_of_peerOf {r : Row} (ht : TableOwn s) (hn : n ≠ s.own) (h : peerOf s n = some r) :
    isMember s n = true := (isMember_iff s n).mpr ⟨r, (rowOf_eq_peerOf ht hn).trans h⟩

theorem rowWritten_signOfLife (n : Nat) (s : State) :
    RowWritten n (heardMarks s) id s (signOfLife n s) := by
  refine ⟨?_, straps_signOfLife n s⟩
  rw [table_signOfLife]
  congr 1
  funext a
  exact (mapReport_id n _).symm

/-! ### Frames delivered from a member (R17, R49) -/

/-- A member's frame is a sign of life, and acts (R17, R49). -/
theorem deliver_member {g : State → State} (hs : HasTable s) (hm : isMember s n = true) :
    deliver n g s = g (signOfLife n s) := by
  unfold deliver
  rw [if_neg (not_or.mpr hs), if_pos hm]

/-- What mode control, the plan store and the spacing unit make of a member's frame keeps the condition of PEER_SILENT,
and of the table all but the sender's row: its last-claim stamp at a CLAIM, its reported fields at a CLAIM or POSE
(R50, R51). -/
structure Taken (n : Nat) (kind : BitVec 3) (s t : State) : Prop where
  row : ∃ rep, RowWritten n
    (fun m => if kind = kindClaim then { m with lastClaim := ⟨s.timeBase, false⟩ } else m) rep s t
  silent : t.active .peerSilent = s.active .peerSilent

end Sys2Proof.Machine

namespace Sys2Proof.Machine

variable {n : Nat} {kind : BitVec 3} {rep : Report → Report} {s t u : State}

theorem rowWritten_mapMarks (n : Nat) (mk : RowMarks → RowMarks) (s : State) :
    RowWritten n mk id s (onTable (mapMarks n mk) s) :=
  ⟨congrArg s.table.map (funext fun _ => (mapReport_id n _).symm), rfl⟩

theorem rowWritten_mapReport (n : Nat) (rep : Report → Report) (s : State) :
    RowWritten n id rep s (onTable (mapReport n rep) s) :=
  ⟨congrArg s.table.map (funext fun a => congrArg (mapReport n rep) (mapMarks_id n a).symm), rfl⟩

theorem Taken.kept (h : Taken n kind s t) (hk : PeersKept t u) : Taken n kind s u := by
  obtain ⟨⟨rep, hrow⟩, hsilent⟩ := h
  exact ⟨⟨rep, hrow.kept hk⟩, hk.silent.trans hsilent⟩

/-- A frame that is not a CLAIM writes the reported fields at most (R50). -/
theorem taken_of_rowWritten (hkind : kind ≠ kindClaim) (h : RowWritten n id rep s t)
    (hsilent : t.active .peerSilent = s.active .peerSilent) : Taken n kind s t := by
  refine ⟨⟨rep, ?_⟩, hsilent⟩
  simp only [if_neg hkind]
  exact h

theorem taken_of_kept (hkind : kind ≠ kindClaim) (h : PeersKept s t) : Taken n kind s t :=
  taken_of_rowWritten hkind (rowWritten_of_kept h) h.silent

theorem taken_takePose (m : PoseMsg) (hs : HasTable s) : Taken n kindPose s (takePose n m s) := by
  unfold takePose
  split
  · exact taken_of_kept (by decide) (.refl s)
  · have hposed : HasTable (onTable (mapReport n fun _ => reportOf m) s) := hs
    exact (taken_of_rowWritten (by decide) (rowWritten_mapReport n _ s) rfl).kept
      (peersKept_modeOnPose n m hposed)

theorem peersKept_withdrawForClaim (g : Nat) (s : State) : PeersKept s (withdrawForClaim g s) := by
  unfold withdrawForClaim
  split
  · exact peersKept_of_views (by simp) (by simp) (by simp)
  · exact .refl s

/-- A stamp of the row and of the spacing unit, then a peer's reported fields (R51, R108). -/
theorem taken_takeClaim (m : ClaimMsg) (hm : isMember s n = true) :
    Taken n kindClaim s (takeClaim n m s) := by
  obtain ⟨r, hr⟩ := (isMember_iff s n).mp hm
  have hstamp : RowWritten n (fun m => { m with lastClaim := ⟨s.timeBase, false⟩ }) id s
      (stampClaim r.fixed.feeder (stampRowClaim n s)) :=
    ⟨(rowWritten_mapMarks n _ s).table, rfl⟩
  unfold takeClaim
  rw [hr]
  simp only []
  split
  · exact ⟨⟨id, by simpa only [if_true] using hstamp⟩, rfl⟩
  · have hrow := hstamp.after (rowWritten_mapReport n (claimToRow m) _)
    have hkept := peersKept_withdrawForClaim r.fixed.feeder
      (onTable (mapReport n (claimToRow m)) (stampClaim r.fixed.feeder (stampRowClaim n s)))
    refine ⟨⟨claimToRow m, ?_⟩, hkept.silent⟩
    simp only [if_true]
    exact hrow.kept hkept

/-- What a frame command other than ROLL_FRAME does with a frame of a member, after the sign of life (R17). -/
def Takes (w : WireFrame) (g : State → State) : Prop :=
  ∀ u, HasTable u → isMember u w.station.toNat = true → Taken w.station.toNat w.kind u (g u)

theorem takes_of_kept {w : WireFrame} {g : State → State} (hkind : w.kind ≠ kindClaim)
    (h : ∀ u, HasTable u → PeersKept u (g u)) : Takes w g :=
  fun u hu _ => taken_of_kept hkind (h u hu)

/-- Every frame command other than ROLL_FRAME delivers its content so (R17, R50, R51). -/
theorem exec_takes {c : Instr} {w : WireFrame} (h : frameOf c = some w) (s : State) :
    ∃ act : Content → State → State, exec c s = receive w act s ∧
      ∀ x, kindOf x = w.kind → ∃ g, act x = deliver w.station.toNat g ∧ Takes w g := by
  cases c <;> simp only [frameOf, Option.some.injEq, reduceCtorEq] at h <;> subst h
  case poseFrame f =>
    refine ⟨_, rfl, fun x hx => ?_⟩
    obtain ⟨m, rfl⟩ := exists_pose hx
    exact ⟨_, rfl, fun u hu _ => taken_takePose m hu⟩
  case claimFrame f =>
    refine ⟨_, rfl, fun x hx => ?_⟩
    obtain ⟨m, rfl⟩ := exists_claim hx
    exact ⟨_, rfl, fun u _ hm => taken_takeClaim m hm⟩
  case haltFrame f =>
    refine ⟨_, rfl, fun x hx => ?_⟩
    obtain ⟨k, rfl⟩ := exists_halt hx
    exact ⟨_, rfl, takes_of_kept (by decide : kindHalt ≠ kindClaim) fun _ => peersKept_takeHalt _ k⟩
  case advance f =>
    exact ⟨_, rfl, fun _ _ => ⟨_, rfl,
      takes_of_kept (by decide : kindOrder ≠ kindClaim) fun _ => peersKept_takeAdvance _⟩⟩
  case retreat f =>
    exact ⟨_, rfl, fun _ _ => ⟨_, rfl,
      takes_of_kept (by decide : kindOrder ≠ kindClaim) fun _ => peersKept_takeRetreat _⟩⟩
  case stop f =>
    exact ⟨_, rfl, fun _ _ => ⟨_, rfl,
      takes_of_kept (by decide : kindOrder ≠ kindClaim) fun _ => peersKept_takeStop _⟩⟩
  case resume f =>
    exact ⟨_, rfl, fun _ _ => ⟨_, rfl,
      takes_of_kept (by decide : kindOrder ≠ kindClaim) fun _ => peersKept_takeResume _⟩⟩
  all_goals
    refine ⟨_, rfl, fun x hx => ?_⟩
    obtain ⟨op, rfl⟩ := exists_plan hx
    exact ⟨_, rfl, takes_of_kept (by decide : kindPlan ≠ kindClaim) fun _ _ => peersKept_takePlan _ op _⟩

/-- A frame of a member has its row heard from first (R13, R49). -/
theorem rowWritten_heardFrom (w : WireFrame) (s : State) :
    RowWritten w.station.toNat (heardMarks s) id s (heardFrom s w) := by
  have h := rowWritten_signOfLife w.station.toNat (frameArrives w s)
  have hmarks : heardMarks (frameArrives w s) = heardMarks s := by
    obtain ⟨line, faults, hv⟩ := frameArrives_eq w s
    rw [hv]; rfl
  have hkept := peersKept_frameArrives w s
  exact ⟨by rw [← hmarks, ← hkept.table]; exact h.table, h.straps.trans hkept.straps⟩

theorem mode_heardFrom (w : WireFrame) (s : State) : (heardFrom s w).mode = s.mode := by
  obtain ⟨line, faults, hv⟩ := frameArrives_eq w s
  exact (mode_signOfLife _ _).trans (by rw [hv]; rfl)

theorem timeBase_heardFrom (w : WireFrame) (s : State) : (heardFrom s w).timeBase = s.timeBase := by
  obtain ⟨line, faults, hv⟩ := frameArrives_eq w s
  exact (congrArg Outer.timeBase (outer_signOfLife _ _)).trans (by rw [hv]; rfl)

theorem isMember_of_written {mk : RowMarks → RowMarks} (h : RowWritten n mk rep s t) (ht : TableOwn s)
    (hm : isMember s n = true) : isMember t n = true := by
  obtain ⟨r, hr⟩ := (isMember_iff s n).mp hm
  obtain ⟨q, hq, -⟩ := Option.map_eq_some_iff.mp (h.rowOf ht hr)
  exact (isMember_iff t n).mpr ⟨q, hq⟩

/-- A well-formed frame of a member ends, after the sign of life, in what its content does (R13, R17, R49). -/
theorem exec_fromMember {c : Instr} {w : WireFrame} (hc : frameOf c = some w)
    (hgood : malformed w = false) (hs : HasTable s) (ht : TableOwn s)
    (hm : isMember s w.station.toNat = true) :
    ∃ t, exec c s = .next t ∧ Taken w.station.toNat w.kind (heardFrom s w) t := by
  obtain ⟨act, hexec, hact⟩ := exec_takes hc s
  obtain ⟨x, hx⟩ := exists_content hgood
  obtain ⟨g, hg, htakes⟩ := hact x (kindOf_contentOf hx)
  have harrived : PeersKept s (frameArrives w s) := peersKept_frameArrives w s
  have hmember : isMember (frameArrives w s) w.station.toNat = true :=
    (isMember_of_table harrived.table _).trans hm
  refine ⟨_, by rw [hexec, receive_content hx, hg, deliver_member (harrived.hasTable hs) hmember], ?_⟩
  exact (htakes _ ((hasTable_of_mode (mode_heardFrom w s)).mpr hs)
    (isMember_of_written (rowWritten_heardFrom w s) ht hm)).kept (peersKept_finish _)

/-! ### The last LOST row (R56) -/

theorem allRows_of_some {a : PeerTable} (h : s.table = some a) : allRows s = selfRow s a :: a.peers := by
  unfold allRows; rw [h]

theorem allRows_of_none (h : s.table = none) : allRows s = [] := by
  unfold allRows; rw [h]

/-- Rows of one table differ between two states in the reported fields alone (R46). -/
theorem mem_allRows_of_table (h : t.table = s.table) {q : Row} (hq : q ∈ allRows t) :
    ∃ q' ∈ allRows s, q'.fixed = q.fixed ∧ q'.marks = q.marks := by
  cases hs : s.table with
  | none => rw [allRows_of_none (h.trans hs)] at hq; exact absurd hq List.not_mem_nil
  | some a =>
    rw [allRows_of_some (h.trans hs)] at hq
    rw [allRows_of_some hs]
    rcases List.mem_cons.mp hq with rfl | hq
    · exact ⟨_, List.mem_cons_self, rfl, rfl⟩
    · exact ⟨q, List.mem_cons_of_mem _ hq, rfl, rfl⟩

/-- Marks of one number made LIVE leave every row LIVE when the others are (R59). -/
theorem allLive_mapMarks (ht : TableOwn s) {mk : RowMarks → RowMarks} (hmk : ∀ m, (mk m).live = .live)
    (htable : s.table.isSome = true)
    (hothers : ∀ q ∈ allRows s, q.fixed.number = n ∨ q.marks.live = .live) :
    allLive (onTable (mapMarks n mk) s) = true := by
  obtain ⟨a, ha⟩ := Option.isSome_iff_exists.mp htable
  obtain ⟨hown, hpeers⟩ := ht a ha
  have htab : (onTable (mapMarks n mk) s).table = some (mapMarks n mk a) :=
    congrArg (Option.map (mapMarks n mk)) ha
  rw [allRows_of_some ha] at hothers
  unfold allLive viewTest
  rw [allRows_of_some htab, htab, Option.isSome_some, Bool.true_and, List.all_eq_true]
  intro q hq
  refine beq_iff_eq.mpr ?_
  by_cases hn : a.selfFixed.number = n
  · have hm : mapMarks n mk a = { a with selfMarks := mk a.selfMarks } := if_pos hn
    rw [hm] at hq
    rcases List.mem_cons.mp hq with rfl | hq
    · exact hmk _
    · refine (hothers q (List.mem_cons_of_mem _ hq)).resolve_left fun e => hpeers q hq ?_
      exact e.trans (hn.symm.trans hown)
  · have hm : mapMarks n mk a = { a with peers := a.peers.map fun r =>
        if r.fixed.number = n then { r with marks := mk r.marks } else r } := if_neg hn
    rw [hm] at hq
    rcases List.mem_cons.mp hq with rfl | hq
    · exact (hothers _ List.mem_cons_self).resolve_left hn
    · obtain ⟨p, hp, rfl⟩ := List.mem_map.mp hq
      split
      · exact hmk _
      · rename_i hpn
        exact (hothers p (List.mem_cons_of_mem _ hp)).resolve_left hpn

/-- The sign of life of the last LOST row ends PEER_SILENT (R56). -/
theorem silent_signOfLife (ht : TableOwn s)
    (hlost : ∃ q ∈ allRows s, q.fixed.number = n ∧ q.marks.live = .lost)
    (hothers : ∀ q ∈ allRows s, q.fixed.number = n ∨ q.marks.live = .live) :
    (signOfLife n s).active .peerSilent = false := by
  obtain ⟨q, hq, hqn, hql⟩ := hlost
  have htable : s.table.isSome = true := by
    cases h : s.table with
    | none => rw [allRows_of_none h] at hq; exact absurd hq List.not_mem_nil
    | some a => rfl
  have hwas : ((allRows s).any fun r => r.fixed.number == n && !r.isLive) = true :=
    List.any_eq_true.mpr ⟨q, hq, by simp [hqn, Row.isLive, hql]⟩
  have hall := allLive_mapMarks (n := n) (mk := heardMarks s) ht (fun _ => rfl) htable hothers
  have heq : signOfLife n s = setActive .peerSilent false (onTable (mapMarks n (heardMarks s)) s) := by
    unfold signOfLife
    refine if_pos ?_
    rw [hwas, Bool.true_and]
    exact hall
  rw [heq]
  unfold State.active
  rw [fault_setActive, if_pos rfl]

end Sys2Proof.Machine

open Sys2Proof Sys2Proof.Machine in
/-- Settles O26: the sign of life writes the sender's row before the content acts, and what a content does to the table
is a member's own row, its reported fields and its last-claim stamp. -/
theorem signOfLife_of_delivered : Obligations.SignOfLife := by
  intro s c w r hc hgood hroll hbar ht hr
  have hm : isMember s w.station.toNat = true := (isMember_iff _ _).mpr ⟨r, hr⟩
  obtain ⟨t, hexec, htaken⟩ := exec_fromMember hc hgood ⟨hroll, hbar⟩ ht hm
  obtain ⟨⟨rep, hwrite⟩, hsilent⟩ := htaken
  have hrow := (rowWritten_heardFrom w s).after hwrite
  refine ⟨t, hexec, ?_, fun n hn => ?_, hrow.self ht, fun hlost hothers => ?_⟩
  · rw [hrow.rowOf ht hr]
    have htime : (heardFrom s w).timeBase = s.timeBase := timeBase_heardFrom w s
    simp only [Function.comp_apply, htime]
    split <;> rfl
  · rw [hrow.peerOf ht]
    simp [hn]
  · rw [hsilent]
    have hkept := peersKept_frameArrives w s
    have hrows : ∀ q ∈ allRows (frameArrives w s), q.fixed.number = w.station.toNat ∨ q.marks.live = .live :=
      fun q hq => by
        obtain ⟨p, hp, hfixed, hmarks⟩ := mem_allRows_of_table hkept.table hq
        rw [← hfixed, ← hmarks]
        exact hothers p hp
    obtain ⟨q, hq, hfixed, hmarks⟩ := mem_allRows_of_table hkept.table.symm (List.mem_of_find?_eq_some hr)
    have hnumber : r.fixed.number = w.station.toNat := by simpa using List.find?_some hr
    exact silent_signOfLife (tableOwn_of_blocks hkept.table hkept.straps ht)
      ⟨q, hq, by rw [hfixed, hnumber], by rw [hmarks, hlost]⟩ hrows

/-! ### A POSE from a peer (O27) -/

namespace Sys2Proof.Machine

variable {n : Nat} {s : State}

theorem outer_catchUp (m : PoseMsg) (s : State) : (catchUp m s).outer = s.outer := by
  unfold catchUp
  split
  · split <;> simp
  · split <;> simp [moveTo]
  · split <;> simp [moveTo]
  · rfl

theorem outer_modeOnPose (n : Nat) (m : PoseMsg) (s : State) : (modeOnPose n m s).outer = s.outer := by
  unfold modeOnPose
  split
  · simp
  · split
    · simp
    · exact outer_catchUp m s

/-- A POSE of mode UNSTAGED makes no contagion and no join (R174 to R176). -/
theorem modeOnPose_of_unstaged (n : Nat) {m : PoseMsg} (hm : m.mode = .unstaged) (s : State) :
    modeOnPose n m s = s := by
  have hup : showsTakeUp m = false := by simp [showsTakeUp, hm]
  have hstage : catchUpStage m s = none := by simp [catchUpStage, actedMode, hm]
  have hcatch : catchUp m s = s := by
    unfold catchUp
    simp only [hup, hstage]
    split <;> simp
  unfold modeOnPose
  rw [if_neg (by simp [hm]), if_neg (by simp [hm]), hcatch]

/-- A POSE of another number than the station's own goes to its row, then to mode control (R17, R50). -/
theorem exec_poseFrame {f : RxFrame} {m : PoseMsg} (hs : HasTable s) (hp : f.prec = 0)
    (hm : readPose f.payload = some m) (hn : f.station.toNat ≠ s.own)
    (hmem : isMember s f.station.toNat = true) :
    exec (.poseFrame f) s = .next (finish (modeOnPose f.station.toNat m (posed s f m))) := by
  have hkept := peersKept_frameArrives (wire kindPose f) s
  have hown : f.station.toNat ≠ (heardFrom s (wire kindPose f)).own := by
    rw [show (heardFrom s (wire kindPose f)).own = (frameArrives (wire kindPose f) s).own by
      unfold State.own; rw [heardFrom, straps_signOfLife], hkept.own]
    exact hn
  show receive _ _ s = _
  rw [receive_content (contentOf_pose hp hm)]
  show Host.Outcome.next (finish (deliver f.station.toNat (takePose f.station.toNat m) _)) = _
  rw [deliver_member (hkept.hasTable hs) ((isMember_of_table hkept.table _).trans hmem), takePose]
  exact congrArg (fun u => Host.Outcome.next (finish u)) (if_neg hown)

/-- A POSE's row, heard from and with its reported fields (R49, R50). -/
theorem rowWritten_posed (s : State) (f : RxFrame) (m : PoseMsg) :
    RowWritten f.station.toNat (heardMarks s) (fun _ => reportOf m) s (posed s f m) :=
  (rowWritten_heardFrom (wire kindPose f) s).after (rowWritten_mapReport _ _ _)

theorem heardFrom_other {w : WireFrame} (hown : isOwnAttempt s w = false) :
    heardFrom s w = signOfLife w.station.toNat (lineBusy s) :=
  congrArg (signOfLife w.station.toNat) (frameArrives_other hown)

/-- A sign of life writes its mark, the notice and the record of PEER_SILENT (R49, R56, R58). -/
theorem signOfLife_eq (n : Nat) (s : State) :
    ∃ faults, signOfLife n s =
      { s with table := s.table.map (mapMarks n (heardMarks s)), faults := faults, notice := true } := by
  rcases signOfLife_cases n s with h | h
  · exact ⟨s.faults, h⟩
  · exact ⟨_, h⟩

/-- A peer's POSE changes nothing but its row and the record of PEER_SILENT (R50, R56). -/
theorem posed_other {f : RxFrame} (hown : isOwnAttempt s (wire kindPose f) = false) (m : PoseMsg) :
    (posed s f m).outer = { s.outer with idle := false, table := (posed s f m).table } ∧
      (posed s f m).inner = { s.inner with faults := (posed s f m).inner.faults } ∧
      OtherFaultsKept s (posed s f m) .peerSilent := by
  have hheard : heardFrom s (wire kindPose f) = signOfLife f.station.toNat (lineBusy s) :=
    heardFrom_other hown
  have hfault : ∀ j, j ≠ .peerSilent → (posed s f m).fault j = s.fault j := fun j hj =>
    (congrArg (State.fault · j) hheard).trans (fault_signOfLife hj _ _)
  obtain ⟨faults, heq⟩ := signOfLife_eq f.station.toNat (lineBusy s)
  unfold posed at hfault ⊢
  rw [hheard, heq] at hfault ⊢
  exact ⟨rfl, rfl, fun j hj => inner_faults_of_fault (hfault j hj)⟩

end Sys2Proof.Machine

open Sys2Proof Sys2Proof.Machine in
/-- Settles O27: mode control keeps the table and the outer state that the POSE was written into. -/
theorem poseWritesRow : Obligations.PoseWritesRow := by
  intro s f m r hroll hbar hown ht hp hm hn hr
  have hs : HasTable s := ⟨hroll, hbar⟩
  have hposed : HasTable (posed s f m) := (hasTable_of_mode (mode_heardFrom _ s)).mpr hs
  have hkept := (peersKept_modeOnPose f.station.toNat m hposed).trans (peersKept_finish _)
  have hrow := (rowWritten_posed s f m).kept hkept
  obtain ⟨houter, hinner, hfaults⟩ := posed_other hown m
  refine ⟨_, exec_poseFrame hs hp hm hn (isMember_of_peerOf ht hn hr), ?_,
    fun j hj => ?_, hrow.self ht hn, ?_, fun hunstaged hq => ?_⟩
  · rw [outer_finish, outer_modeOnPose, hkept.table, houter]
  · rw [hrow.peerOf ht]
    simp [hj]
  · rw [hrow.peerOf ht, hr, Option.map_some, if_pos rfl]
    rfl
  · have hsettled : (finish (modeOnPose f.station.toNat m (posed s f m))).inner = (posed s f m).inner := by
      rw [modeOnPose_of_unstaged _ hunstaged,
        finish_quiet (quiet_of_eq (s := s) (t := posed s f m) (mode_heardFrom _ s) hq)]
    unfold OtherFaultsKept
    rw [hsettled]
    exact ⟨hinner, hfaults⟩

/-! ### A CLAIM from a peer (O29) -/

namespace Sys2Proof.Machine

/-- A CONTACT claim names no end (R9). -/
theorem stop_of_contact {payload : List Byte} {m : ClaimMsg} (h : readClaim payload = some m)
    (hk : m.kind = .contact) : m.stop = none := by
  unfold readClaim at h
  split at h
  · split at h
    · simp only [] at h
      split at h
      · split at h
        · split at h
          · split at h
            · exact Option.some.inj h ▸ rfl
            · cases h
          · cases h
        · rename_i hkind
          split at h
          · split at h
            · obtain rfl := Option.some.inj h
              exact absurd hk hkind
            · cases h
          · cases h
      · cases h
    · cases h
  · cases h

theorem claimToRow_eq {m : ClaimMsg} (hstop : m.kind = .contact → m.stop = none) (r : Report) :
    claimToRow m r =
      { r with flight := m.dir, lift := if m.kind = .contact then none else some m.start,
               committedEnd := m.stop } := by
  unfold claimToRow
  split
  · rename_i hk; rw [hstop hk]
  · rfl

/-- The state in which a peer's CLAIM has moved the stamps and written its row, before a withdrawal (R51, R108). -/
def claimWritten (s : State) (n : Nat) (m : ClaimMsg) (r : Row) : State :=
  onTable (mapReport n (claimToRow m)) (stampClaim r.fixed.feeder (stampRowClaim n (signOfLife n (lineBusy s))))

theorem claimWritten_eq (s : State) (n : Nat) (m : ClaimMsg) (r : Row) :
    ∃ table faults, claimWritten s n m r =
        { lineBusy s with
          table := table, faults := faults, notice := true
          spacing :=
            { s.spacing with
              lineStamp := ⟨s.timeBase, false⟩
              feederStamp :=
                if r.fixed.feeder = s.straps.feeder.val then ⟨s.timeBase, false⟩
                else s.spacing.feederStamp } } := by
  obtain ⟨faults, h⟩ := signOfLife_eq n (lineBusy s)
  unfold claimWritten
  rw [h]
  exact ⟨_, faults, rfl⟩

theorem fault_claimWritten {k : FaultKind} (hk : k ≠ .peerSilent) (s : State) (n : Nat) (m : ClaimMsg)
    (r : Row) : (claimWritten s n m r).fault k = s.fault k :=
  fault_signOfLife hk n (lineBusy s)

theorem rowWritten_claimWritten (s : State) (n : Nat) (m : ClaimMsg) (r : Row) :
    RowWritten n (fun a => { heardMarks s a with lastClaim := ⟨s.timeBase, false⟩ }) (claimToRow m) s
      (claimWritten s n m r) := by
  have hheard : RowWritten n (heardMarks s) id s (signOfLife n (lineBusy s)) :=
    ⟨(rowWritten_signOfLife n (lineBusy s)).table, straps_signOfLife n (lineBusy s)⟩
  have htime : (signOfLife n (lineBusy s)).timeBase = s.timeBase :=
    congrArg Outer.timeBase (outer_signOfLife n (lineBusy s))
  have hstamp := rowWritten_mapMarks n
    (fun a => { a with lastClaim := ⟨s.timeBase, false⟩ }) (signOfLife n (lineBusy s))
  have hwrite : RowWritten n (fun a => { heardMarks s a with lastClaim := ⟨s.timeBase, false⟩ }) id s
      (stampClaim r.fixed.feeder (stampRowClaim n (signOfLife n (lineBusy s)))) := by
    have hrow : stampRowClaim n (signOfLife n (lineBusy s)) =
        onTable (mapMarks n fun a => { a with lastClaim := ⟨s.timeBase, false⟩ })
          (signOfLife n (lineBusy s)) := by rw [← htime]; rfl
    rw [hrow]
    exact ⟨(hheard.after hstamp).table, (hheard.after hstamp).straps⟩
  exact hwrite.after (rowWritten_mapReport n (claimToRow m) _)

variable {s : State}

theorem outer_withdrawForClaim (g : Nat) (s : State) : (withdrawForClaim g s).outer = s.outer := by
  unfold withdrawForClaim
  split <;> simp

theorem withdrawForClaim_of_not_claiming (g : Nat) (h : s.claiming = false) :
    withdrawForClaim g s = s := by
  unfold withdrawForClaim causeOfWithdrawal
  rw [h]
  split <;> rfl

/-- A peer's CLAIM is received and taken, its precedence whatever it is (R13, R17, R51). -/
theorem exec_claimFrame {f : RxFrame} {m : ClaimMsg} {r : Row} (hs : HasTable s) (ht : TableOwn s)
    (hm : readClaim f.payload = some m) (hn : f.station.toNat ≠ s.own)
    (hr : peerOf s f.station.toNat = some r) :
    exec (.claimFrame f) s =
      .next (finish (withdrawForClaim r.fixed.feeder (claimWritten s f.station.toNat m r))) := by
  have hcontent : contentOf (wire kindClaim f) = some (.claim m) := by simp [contentOf, wire, hm]
  have harrives : frameArrives (wire kindClaim f) s = lineBusy s := by
    unfold frameArrives
    exact if_neg (by simp [wire])
  have hmem : isMember s f.station.toNat = true := isMember_of_peerOf ht hn hr
  have hown : (signOfLife f.station.toNat (lineBusy s)).own = s.own := by
    unfold State.own; rw [straps_signOfLife]; rfl
  have hrow : rowOf (signOfLife f.station.toNat (lineBusy s)) f.station.toNat = some (heardAt s r) := by
    rw [rowOf_eq_peerOf (tableOwn_signOfLife f.station.toNat (s := lineBusy s) ht) (hown.symm ▸ hn),
      peerOf_signOfLife (s := lineBusy s) ht, peerOf_of_table (t := lineBusy s) (s := s) rfl, hr, Option.map_some,
      if_pos rfl]
    rfl
  show receive _ _ s = _
  rw [receive_content hcontent, harrives]
  show Host.Outcome.next (finish (deliver f.station.toNat (takeClaim f.station.toNat m) (lineBusy s))) = _
  rw [deliver_member (s := lineBusy s) hs hmem, takeClaim, hrow]
  exact congrArg (fun u => Host.Outcome.next (finish u)) (if_neg (hown.symm ▸ hn))

end Sys2Proof.Machine

open Sys2Proof Sys2Proof.Machine in
/-- Settles O29: a withdrawal keeps what the CLAIM wrote, and a station that is not CLAIMING has none to make. -/
theorem claimWritesRow : Obligations.ClaimWritesRow := by
  intro s f m r hroll hbar ht hm hn hr
  have hexec := exec_claimFrame ⟨hroll, hbar⟩ ht hm hn hr
  have hkept := (peersKept_withdrawForClaim r.fixed.feeder (claimWritten s f.station.toNat m r)).trans
    (peersKept_finish _)
  have hrow := (rowWritten_claimWritten s f.station.toNat m r).kept hkept
  obtain ⟨table, faults, heq⟩ := claimWritten_eq s f.station.toNat m r
  refine ⟨_, hexec, ?_, fun j hj => ?_, ?_, fun hc hq => ?_⟩
  · rw [hkept.table, outer_finish, outer_withdrawForClaim, heq]
    rfl
  · rw [hrow.peerOf ht]
    simp [hj]
  · rw [hrow.peerOf ht, hr, Option.map_some, if_pos rfl, claimToRow_eq (stop_of_contact hm)]
    rfl
  · have hnone : withdrawForClaim r.fixed.feeder (claimWritten s f.station.toNat m r) =
        claimWritten s f.station.toNat m r := withdrawForClaim_of_not_claiming _ (by rw [heq]; exact hc)
    have hinner : (claimWritten s f.station.toNat m r).inner =
        { s.inner with faults := (claimWritten s f.station.toNat m r).inner.faults } := by
      rw [heq]; rfl
    have hquiet : Quiet (claimWritten s f.station.toNat m r) := quiet_of_eq (by rw [heq]; rfl) hq
    unfold OtherFaultsKept
    rw [hnone, finish_quiet hquiet]
    exact ⟨hinner, fun j hj => inner_faults_of_fault (fault_claimWritten hj s _ m r)⟩

/-! ## Settling outside MOVING (O32, O36, O53) -/

namespace Sys2Proof.Machine

variable {s t u : State}

/-! ### What the readers of a notice keep of a column at rest -/

/-- The blocks that the share check and rest(k) read are those of `s` (R60, R160, R161). -/
structure ColumnStands (s t : State) : Prop where
  modeCtl : t.modeCtl = s.modeCtl
  table : t.table = s.table
  stage : t.stage = s.stage
  engine : t.engine = s.engine
  straps : t.straps = s.straps
  cfg : t.cfg = s.cfg
  present : t.loadMon.present = s.loadMon.present

theorem ColumnStands.refl (s : State) : ColumnStands s s := ⟨rfl, rfl, rfl, rfl, rfl, rfl, rfl⟩

theorem ColumnStands.trans (h : ColumnStands s t) (k : ColumnStands t u) : ColumnStands s u :=
  ⟨k.modeCtl.trans h.modeCtl, k.table.trans h.table, k.stage.trans h.stage, k.engine.trans h.engine,
    k.straps.trans h.straps, k.cfg.trans h.cfg, k.present.trans h.present⟩

theorem ColumnStands.mode (h : ColumnStands s t) : t.mode = s.mode := congrArg ModeCtl.mode h.modeCtl

theorem ColumnStands.stageIx (h : ColumnStands s t) : t.stageIx = s.stageIx := by
  unfold State.stageIx State.stagedRec; rw [h.stage]

/-- Outside MOVING an occurrence that is not of the halt class writes its record alone (R175). -/
theorem report_resting {k : FaultKind} (hk : haltClass k = false) (n : Option Nat)
    (hm : s.mode ≠ .moving) : report k n s = latchAt (placeNow s) n k s := by
  unfold report reportAt modeOnFault
  rw [if_neg (by simp [hk]), if_neg (by simp [hm])]

theorem columnStands_latchAt (p : Place) (n : Option Nat) (k : FaultKind) (s : State) :
    ColumnStands s (latchAt p n k s) := by
  obtain ⟨faults, a, b, notice, h⟩ := latchAt_eq p n k s
  rw [h]
  exact ⟨rfl, rfl, rfl, rfl, rfl, rfl, rfl⟩

theorem columnStands_setActive (k : FaultKind) (on : Bool) (s : State) :
    ColumnStands s (setActive k on s) := ⟨rfl, rfl, rfl, rfl, rfl, rfl, rfl⟩

theorem columnStands_writeShare (s : State) : ColumnStands s (writeShare s) :=
  ⟨rfl, rfl, rfl, rfl, rfl, rfl, rfl⟩

theorem columnStands_shareEval (hm : s.mode ≠ .moving) : ColumnStands s (shareEval s) := by
  have hw := columnStands_writeShare s
  unfold shareEval
  simp only []
  split
  · have ha := hw.trans (columnStands_setActive .loadShare true _)
    rw [report_resting rfl none (by rw [ha.mode]; exact hm)]
    exact ha.trans (columnStands_latchAt ..)
  · split
    · exact hw.trans (columnStands_setActive .loadShare false _)
    · exact hw

theorem columnStands_ceilingIdle (s : State) : ColumnStands s (ceilingIdle s) :=
  ⟨rfl, rfl, rfl, rfl, rfl, rfl, rfl⟩

/-! ### Rest found (R60, R173) -/

/-- Rest(k) holds at the own stage (R60). -/
def findsRest (s : State) : Bool :=
  match s.stageIx with
  | some (.stage k) => restAt s k
  | _ => false

theorem restTest_eq (s : State) :
    restTest s = if s.mode = .settled ∧ findsRest s = true then enterIdle s else s := by
  unfold restTest findsRest
  split <;> simp_all

theorem restAt_stands (h : ColumnStands s t) (k : Nat) : restAt t k = restAt s k := by
  cases ha : s.table with
  | none => simp [restAt, viewTest, h.table, ha]
  | some a =>
    have hself : (selfRow t a).isLive = (selfRow s a).isLive ∧
        (selfRow t a).report.mode = (selfRow s a).report.mode ∧
        (selfRow t a).report.stage = (selfRow s a).report.stage := ⟨rfl, h.mode, h.stageIx⟩
    simp only [restAt, viewTest, allRows_of_some (h.table.trans ha), allRows_of_some ha, h.table,
      List.all_cons, hself]

theorem findsRest_stands (h : ColumnStands s t) : findsRest t = findsRest s := by
  unfold findsRest
  rw [h.stageIx]
  split
  · exact restAt_stands h _
  · rfl

theorem allLive_of_findsRest (h : findsRest s = true) : allLive s = true := by
  unfold findsRest at h
  split at h
  · simp only [restAt, viewTest, Bool.and_eq_true, List.all_eq_true] at h
    simp only [allLive, viewTest, Bool.and_eq_true, List.all_eq_true]
    exact ⟨h.1, fun r hr => (h.2 r hr).1.1⟩
  · cases h

/-- A round of the readers in SETTLED: the share evaluation, and IDLE where rest is found (R58, R162, R173). -/
theorem readers_settled (hm : s.mode = .settled) :
    readers s = ceilingIdle (if findsRest s = true then enterIdle (shareEval s) else shareEval s) := by
  have hs : ColumnStands s (shareEval s) := columnStands_shareEval (by rw [hm]; exact nofun)
  have hmode : (shareEval s).mode = .settled := hs.mode.trans hm
  have hawait : awaitTest (shareEval s) = shareEval s := by simp [awaitTest, hmode]
  unfold readers
  rw [hawait, restTest_eq, findsRest_stands hs]
  simp only [hmode, true_and]
  unfold evaluate
  split
  · rw [if_neg (by simp)]
  · rw [if_neg (by rw [hmode]; exact nofun)]

theorem columnStands_clearNotice (s : State) : ColumnStands s (clearNotice s) :=
  ⟨rfl, rfl, rfl, rfl, rfl, rfl, rfl⟩

theorem settle_succ (n : Nat) (s : State) :
    settle (n + 1) s = if s.notice = true then settle n (readers (clearNotice s)) else s := rfl

theorem columnStands_readers (hm : s.mode = .settled) (hrest : findsRest s = false) :
    ColumnStands s (readers (clearNotice s)) := by
  have hc := columnStands_clearNotice s
  have hs : ColumnStands s (shareEval (clearNotice s)) :=
    hc.trans (columnStands_shareEval (by rw [hc.mode, hm]; exact nofun))
  rw [readers_settled (hc.mode.trans hm), findsRest_stands hc, hrest, if_neg Bool.false_ne_true]
  exact hs.trans (columnStands_ceilingIdle _)

/-- Where rest is not found, a station in SETTLED stays as it stands (R173). -/
theorem columnStands_settle (hm : s.mode = .settled) (hrest : findsRest s = false) (n : Nat) :
    ColumnStands s (settle n s) := by
  induction n generalizing s with
  | zero => exact .refl s
  | succ n ih =>
    rw [settle_succ]
    split
    · have hround := columnStands_readers hm hrest
      exact hround.trans (ih (hround.mode.trans hm) ((findsRest_stands hround).trans hrest))
    · exact .refl s

theorem columnStands_finish (s : State) : ColumnStands (settle settleRounds s) (finish s) := by
  unfold finish armBusy
  split <;> exact ⟨rfl, rfl, rfl, rfl, rfl, rfl, rfl⟩

end Sys2Proof.Machine

/-! ### The POSE that completes rest (O36) -/

namespace Sys2Proof.Machine

variable {n : Nat} {mk : RowMarks → RowMarks} {rep : Report → Report} {s t : State}

theorem catchUpStage_of_own {m : PoseMsg} {k : Nat} (hs : s.stageIx = some (.stage k))
    (hm : m.stage = some (.stage k)) : catchUpStage m s = none := by
  have habove : m.stage ≠ stageAbove s := by
    unfold stageAbove
    rw [hs, hm]
    simp only []
    split <;> simp
  have hbelow : m.stage ≠ stageBelow s := by
    unfold stageBelow
    rw [hs, hm]
    cases k <;> simp
  unfold catchUpStage
  rw [if_neg habove, if_neg hbelow]
  exact ite_self none

/-- A POSE at the own stage that reports no stop leaves a station in SETTLED to the readers (R174 to R176). -/
theorem modeOnPose_of_own {m : PoseMsg} {k : Nat} (hmode : s.mode = .settled)
    (hs : s.stageIx = some (.stage k)) (hstage : m.stage = some (.stage k))
    (hm : m.mode = .settled ∨ m.mode = .idle) : modeOnPose n m s = s := by
  have hcatch : catchUp m s = s := by
    unfold catchUp
    rw [hmode]
    simp only [catchUpStage_of_own hs hstage]
  unfold modeOnPose
  rw [if_neg (by rintro ⟨h, -⟩; simp [h] at hm), if_neg (by rintro ⟨h, -⟩; simp [h] at hm), hcatch]

/-- A POSE received and taken to its row stands in the line controller, the table and the records, with a notice. -/
theorem posed_eq (s : State) (f : RxFrame) (m : PoseMsg) :
    ∃ line table faults, posed s f m =
      { s with line := line, table := table, faults := faults, notice := true } := by
  obtain ⟨line, faults, hv⟩ := frameArrives_eq (wire kindPose f) s
  obtain ⟨faults', hu⟩ := signOfLife_eq f.station.toNat (frameArrives (wire kindPose f) s)
  unfold posed heardFrom
  rw [show (wire kindPose f).station = f.station from rfl, hu, hv]
  exact ⟨_, _, _, rfl⟩

/-- The rows after a write of one number's, where that is not the station's own (R48). -/
theorem mem_rowWrite {a : PeerTable} {q : Row} (hq : q ∈ (rowWrite n mk rep a).peers)
    (hn : a.selfFixed.number ≠ n) :
    ∃ p ∈ a.peers, q = if p.fixed.number = n then ⟨p.fixed, rep p.report, mk p.marks⟩ else p := by
  simp only [rowWrite, mapReport, mapMarks, if_neg hn, List.map_map] at hq
  obtain ⟨p, hp, rfl⟩ := List.mem_map.mp hq
  refine ⟨p, hp, ?_⟩
  simp only [Function.comp_apply]
  split <;> simp_all

/-- Rest(k) from each row, the row of the sender as it is written (R50, R60). -/
theorem restAt_of_written {k : Nat} (hrow : RowWritten n mk rep s t) (ht : TableOwn s) (hn : n ≠ s.own)
    (htable : s.table.isSome = true) (hmode : t.mode = s.mode) (hstage : t.stageIx = s.stageIx)
    (hmk : ∀ m, (mk m).live = .live)
    (hrep : ∀ r, ((rep r).mode = .settled ∨ (rep r).mode = .idle) ∧ (rep r).stage = some (.stage k))
    (hothers : ∀ q ∈ allRows s, q.fixed.number = n ∨
      (q.marks.live = .live ∧ (q.report.mode = .settled ∨ q.report.mode = .idle) ∧
        q.report.stage = some (.stage k))) : restAt t k = true := by
  obtain ⟨a, ha⟩ := Option.isSome_iff_exists.mp htable
  obtain ⟨hown, -⟩ := ht a ha
  have hself : a.selfFixed.number ≠ n := fun e => hn (e.symm.trans hown)
  have hta : t.table = some (rowWrite n mk rep a) := hrow.table.trans (by rw [ha]; rfl)
  have hmarks : (rowWrite n mk rep a).selfMarks = a.selfMarks := by
    simp [rowWrite, mapReport, mapMarks, hself]
  rw [allRows_of_some ha] at hothers
  unfold restAt viewTest
  rw [allRows_of_some hta, hta, Option.isSome_some, Bool.true_and, List.all_eq_true]
  intro q hq
  suffices q.marks.live = .live ∧ (q.report.mode = .settled ∨ q.report.mode = .idle) ∧
      q.report.stage = some (.stage k) by
    obtain ⟨h₁, h₂, h₃⟩ := this
    simpa [Row.isLive, h₁, h₃] using h₂
  rcases List.mem_cons.mp hq with rfl | hq
  · obtain ⟨hl, hm, hk⟩ := (hothers _ List.mem_cons_self).resolve_left hself
    exact ⟨(congrArg RowMarks.live hmarks).trans hl, by rw [selfRow, selfReport, hmode]; exact hm,
      hstage.trans hk⟩
  · obtain ⟨p, hp, rfl⟩ := mem_rowWrite hq hself
    split
    · exact ⟨hmk _, hrep _⟩
    · rename_i hpn
      exact (hothers p (List.mem_cons_of_mem _ hp)).resolve_left hpn

/-- What ends a command in SETTLED with rest found: IDLE, with the stage kept (R173). -/
theorem finish_findsRest (hm : s.mode = .settled) (hrest : findsRest s = true)
    (hnotice : s.notice = true) :
    (finish s).mode = .idle ∧ (finish s).stage.record = s.stage.record := by
  have hc := columnStands_clearNotice s
  have hs := hc.trans (columnStands_shareEval (by rw [hc.mode, hm]; exact nofun))
  have hround : readers (clearNotice s) = ceilingIdle (enterIdle (shareEval (clearNotice s))) := by
    rw [readers_settled (hc.mode.trans hm), findsRest_stands hc, hrest, if_pos rfl]
  have hidle : (readers (clearNotice s)).mode = .idle := by
    rw [hround, (columnStands_ceilingIdle _).mode, mode_enterIdle]
  have hrec : (readers (clearNotice s)).stage.record = s.stage.record := by
    obtain ⟨a, b, hset⟩ := setMode_eq .idle (shareEval (clearNotice s))
    rw [hround, (columnStands_ceilingIdle _).stage, enterIdle, hset, hs.stage]
  have hquiet : Quiet (readers (clearNotice s)) := by rw [Quiet, hidle]; exact ⟨nofun, nofun⟩
  have hend := columnStands_finish s
  have hsettle : (settle settleRounds s).inner = (readers (clearNotice s)).inner := by
    rw [settleRounds, settle_succ, if_pos hnotice, settle_quiet _ hquiet]
  exact ⟨hend.mode.trans ((congrArg Inner.mode hsettle).trans hidle),
    (congrArg (·.record) hend.stage).trans ((congrArg (·.stage.record) hsettle).trans hrec)⟩

end Sys2Proof.Machine

open Sys2Proof Sys2Proof.Machine in
/-- Settles O36: the POSE written, rest is found in the first round of the readers, and IDLE ends the settling. -/
theorem settledFindsRest : Obligations.SettledFindsRest := by
  intro s f m k hp hm hn ht hmem hmode hstage hmm hms hothers
  have hs : HasTable s := hasTable_of_eq hmode nofun nofun
  obtain ⟨r, hr⟩ := (isMember_iff _ _).mp hmem
  obtain ⟨line, table, faults, heq⟩ := posed_eq s f m
  have hpmode : (posed s f m).mode = s.mode := by rw [heq]; rfl
  have hpstage : (posed s f m).stageIx = s.stageIx := by rw [heq]; rfl
  have htable : s.table.isSome = true := by
    cases h : s.table with
    | none => rw [rowOf, allRows_of_none h] at hr; cases hr
    | some a => rfl
  have hrest : restAt (posed s f m) k = true :=
    restAt_of_written (rowWritten_posed s f m) ht hn htable hpmode hpstage (fun _ => rfl)
      (fun _ => ⟨hmm, hms⟩) hothers
  have hfinds : findsRest (posed s f m) = true := by
    unfold findsRest
    rw [hpstage, hstage]
    exact hrest
  obtain ⟨hidle, hrecord⟩ := finish_findsRest (hpmode.trans hmode) hfinds (by rw [heq])
  refine ⟨_, by rw [exec_poseFrame hs hp hm hn hmem,
    modeOnPose_of_own (hpmode.trans hmode) (hpstage.trans hstage) hms hmm], hidle, ?_⟩
  rw [hrecord, heq]

/-! ### Silence (O32) -/

namespace Sys2Proof.Machine

variable {n : Nat} {s t : State}

/-- The marks of a row whose silence compare has expired (R55). -/
def lostMarks (m : RowMarks) : RowMarks := { m with live := .lost, silence := none }

/-- No row but those of a number is LOST. -/
def othersLive (n : Nat) (s : State) : Bool := (allRows s).all fun q => q.fixed.number == n || q.isLive

/-- The table and the condition of PEER_SILENT as a silence compare expires, before the occurrence (R55, R57). -/
def silenced (n : Nat) (s : State) : State :=
  if othersLive n s then setActive .peerSilent true (onTable (mapMarks n lostMarks) s)
  else onTable (mapMarks n lostMarks) s

theorem silenced_eq (n : Nat) (s : State) :
    ∃ faults, silenced n s =
      { s with table := s.table.map (mapMarks n lostMarks), faults := faults, notice := true } := by
  unfold silenced
  split
  · exact ⟨_, rfl⟩
  · exact ⟨s.faults, rfl⟩

theorem exec_silenceExpiry {r : Row} (hr : rowOf s n = some r) (hdue : due s.timeBase r.marks.silence = true) :
    exec (.silenceExpiry n) s = .next (finish (report .peerSilent (some n) (silenced n s))) := by
  show execSilenceExpiry n s = _
  unfold execSilenceExpiry
  rw [hr]
  exact if_pos hdue

theorem fault_silenced (k : FaultKind) :
    (silenced n s).fault k =
      if k = .peerSilent then
        { s.fault .peerSilent with active := s.active .peerSilent || othersLive n s }
      else s.fault k := by
  unfold silenced
  split
  · rename_i h
    rw [fault_setActive, h, Bool.or_true]
    rfl
  · rename_i h
    rw [Bool.not_eq_true _ |>.mp h, Bool.or_false]
    split
    · rename_i hk; rw [hk]; rfl
    · rfl

/-- The last stop record after an occurrence of a hold-class kind (R165, R175). -/
theorem lastStop_holdReport {k : FaultKind} (hk : holdClass k = true) (n : Option Nat) (s : State) :
    (report k n s).modeCtl.lastStop =
      if s.mode = .moving then some ⟨.hold, .fault, some k, none, ⟨s.timeBase, false⟩⟩
      else s.modeCtl.lastStop := by
  have htime : (enterHold (latchAt (placeNow s) n k s)).timeBase = s.timeBase :=
    timeBase_of_outer (by rw [outer_enterHold, outer_latchAt])
  have hhalt : haltClass k = false := by
    cases k <;> simp_all [haltClass, holdClass]
  split
  · rename_i hm
    unfold report reportAt modeOnFault
    rw [if_neg (by simp [hhalt]), if_pos (by simp [hk, hm])]
    show some (StopRecord.mk _ _ _ _ (Stamp.written (enterHold (latchAt (placeNow s) n k s)).timeBase)) = _
    rw [htime]; rfl
  · rename_i hm
    rw [report_resting hhalt n hm, modeCtl_latchAt]

/-- With a row LOST a station that does not move stays in its mode, rest being out of reach (R60, R173). -/
theorem finish_someLost (hm : s.mode ≠ .moving) (hlost : allLive s = false) :
    (finish s).mode = s.mode ∧ (finish s).modeCtl.lastStop = s.modeCtl.lastStop := by
  by_cases hsettled : s.mode = .settled
  · have hrest : findsRest s = false :=
      Bool.eq_false_iff.mpr fun h => absurd (allLive_of_findsRest h) (by simp [hlost])
    have h := (columnStands_settle hsettled hrest settleRounds).trans (columnStands_finish s)
    exact ⟨h.mode, congrArg ModeCtl.lastStop h.modeCtl⟩
  · have h := finish_quiet (s := s) ⟨hm, hsettled⟩
    exact ⟨congrArg Inner.mode h, congrArg Inner.lastStop h⟩

theorem allLive_of_lostRow {r : Row} (hr : rowOf s n = some r) (hl : r.marks.live = .lost) :
    allLive s = false := by
  have hmem : r ∈ allRows s := List.mem_of_find?_eq_some hr
  refine Bool.eq_false_iff.mpr fun h => ?_
  simp only [allLive, viewTest, Bool.and_eq_true, List.all_eq_true] at h
  have := h.2 r hmem
  simp [Row.isLive, hl] at this

end Sys2Proof.Machine

open Sys2Proof Sys2Proof.Machine in
/-- Settles O32: the row LOST and the record written, a station in MOVING is in HOLD, and a station in SETTLED cannot
find rest while the row is LOST. -/
theorem silenceExpiry : Obligations.SilenceExpiry := by
  intro s n r ht hr hdue
  obtain ⟨faults, heq⟩ := silenced_eq n s
  have hwritten : RowWritten n lostMarks id s (silenced n s) := by
    rw [heq]
    exact ⟨(rowWritten_mapMarks n lostMarks s).table, rfl⟩
  have hreport := hwritten.kept (peersKept_report .peerSilent (some n) (silenced n s))
  have hrow := hreport.kept (peersKept_finish _)
  obtain ⟨q, hq, hqmarks⟩ := Option.map_eq_some_iff.mp (hreport.rowOf ht hr)
  have hlost : allLive (report .peerSilent (some n) (silenced n s)) = false :=
    allLive_of_lostRow hq (congrArg (·.2.live) hqmarks)
  have hmode := mode_holdReport (k := .peerSilent) rfl (some n) (silenced n s)
  have hstop := lastStop_holdReport (k := .peerSilent) rfl (some n) (silenced n s)
  have hnot : (report .peerSilent (some n) (silenced n s)).mode ≠ .moving := by
    rw [hmode]
    split
    · exact nofun
    · assumption
  obtain ⟨hfmode, hfstop⟩ := finish_someLost hnot hlost
  have hsmode : (silenced n s).mode = s.mode := by rw [heq]; rfl
  refine ⟨_, exec_silenceExpiry hr hdue, ?_, hrow.rowOf ht hr, fun hn => ?_, fun j hj => ?_, ?_, ?_, ?_, ?_,
    fun hquiet j hj => ?_⟩
  · rw [outer_finish, outer_report, (peersKept_finish _).table, (peersKept_report ..).table, heq]
    rfl
  · have hown : n ≠ (finish (report .peerSilent (some n) (silenced n s))).own := by
      unfold State.own
      rw [hrow.straps]
      exact hn
    rw [rowOf_eq_peerOf (hrow.tableOwn ht) hown, hrow.peerOf ht, ← rowOf_eq_peerOf ht hn, hr]
    simp
  · rw [hrow.peerOf ht]
    simp [hj]
  · rw [fault_finish (k := .peerSilent) nofun nofun, fault_report, if_pos rfl, placeNow_eq, fault_silenced,
      if_pos rfl, heq]
    rfl
  · rw [haltSlot_finish, haltSlot_otherReport rfl, heq]
  · rw [hfmode, hmode, hsmode]
  · rw [hfstop, hstop, hsmode, heq]
  · have hq : Quiet (report .peerSilent (some n) (silenced n s)) := by
      refine quiet_of_eq (s := s) ?_ hquiet
      rw [hmode, hsmode, if_neg hquiet.1]
    rw [finish_quiet hq]
    exact inner_faults_of_fault (by rw [fault_report, if_neg hj, fault_silenced, if_neg hj])

/-! ## What nothing but a reading or an input starts (O53)

A jog that has ended and a stroke that does not run stay so through mode entries, pawl commands, evaluations and the
settling of notices. But for the share evaluation and the settling itself, these also write no share state, take no
notice back and arm no contact watch. -/

namespace Sys2Proof.Machine

variable {s t u : State}

/-! ### Steps that start no motion -/

/-- The jog is over: state NONE, source STROKE and the drive as the stroke has it (R140). -/
def JogOver (s : State) : Prop :=
  s.engine.jog = .none ∧ s.engine.source = .stroke ∧ s.engine.drive = driveOf .stroke s.engine.stroke .none

/-- No jog and no stroke starts. -/
structure StartsNothing (s t : State) : Prop where
  jogOver : JogOver s → JogOver t
  run : isRunning t.engine.stroke = true → isRunning s.engine.stroke = true

/-- No jog and no stroke starts, the share state stays, a notice stays outstanding, and the contact watch is not
armed. -/
structure Steady (s t : State) : Prop where
  motion : StartsNothing s t
  share : t.loadMon.share = s.loadMon.share
  notice : s.notice = true → t.notice = true
  watch : t.loadMon.watch = true → s.loadMon.watch = true

theorem StartsNothing.trans (h : StartsNothing s t) (k : StartsNothing t u) : StartsNothing s u :=
  ⟨k.jogOver ∘ h.jogOver, h.run ∘ k.run⟩

theorem startsNothing_of_engine (h : t.engine = s.engine) : StartsNothing s t := by
  refine ⟨fun hj => ?_, fun hr => by rwa [h] at hr⟩
  unfold JogOver at hj ⊢
  rwa [h]

theorem steady_of_engine (he : t.engine = s.engine) (hl : t.loadMon = s.loadMon)
    (hn : s.notice = true → t.notice = true) : Steady s t :=
  ⟨startsNothing_of_engine he, congrArg (·.share) hl, hn, fun h => by rwa [hl] at h⟩

theorem Steady.refl (s : State) : Steady s s := steady_of_engine rfl rfl id

theorem Steady.trans (h : Steady s t) (k : Steady t u) : Steady s u :=
  ⟨h.motion.trans k.motion, k.share.trans h.share, k.notice ∘ h.notice, h.watch ∘ k.watch⟩

/-- A step from another state with the engine, the share state and the notice of `s`. -/
theorem Steady.after (h : Steady t u) (he : t.engine = s.engine) (hl : t.loadMon = s.loadMon)
    (hn : s.notice = true → t.notice = true) : Steady s u :=
  (steady_of_engine he hl hn).trans h

/-- A stroke that does not run any more leaves the drive OFF once the jog is over (R129). -/
theorem startsNothing_of_rest (hj : t.engine.jog = s.engine.jog) (hs : t.engine.source = s.engine.source)
    (hr : t.engine.stroke = .rest) (hd : t.engine.drive = driveOf s.engine.source .rest s.engine.jog) :
    StartsNothing s t := by
  refine ⟨fun ⟨h₁, h₂, _⟩ => ⟨hj.trans h₁, hs.trans h₂, ?_⟩, fun h => ?_⟩
  · rw [hd, hr, h₁, h₂]
  · rw [hr] at h; cases h

/-! ### Withdrawals, stroke ends and jog ends -/

theorem steady_requestPose (s : State) : Steady s (requestPose s) := by
  obtain ⟨a, b, h⟩ := requestPose_eq s
  rw [h]
  exact steady_of_engine rfl rfl id

theorem steady_requestWithdrawal (s : State) : Steady s (requestWithdrawal s) := by
  unfold requestWithdrawal
  split
  · exact .refl s
  · exact ⟨startsNothing_of_rest rfl rfl rfl rfl, rfl, fun _ => rfl, id⟩
  · exact steady_of_engine rfl rfl id
  · exact steady_of_engine rfl rfl id

theorem steady_causeOfWithdrawal (s : State) : Steady s (causeOfWithdrawal s) := by
  unfold causeOfWithdrawal
  split
  · exact steady_requestWithdrawal s
  · exact .refl s

theorem steady_stopRun (d : Direction) (s : State) : Steady s (stopRun d s) := by
  refine Steady.trans ?_ (steady_requestPose _)
  exact ⟨startsNothing_of_rest rfl rfl rfl rfl, rfl, fun _ => rfl, nofun⟩

theorem steady_abortStroke (s : State) : Steady s (abortStroke s) := by
  unfold abortStroke
  split
  · exact steady_stopRun _ s
  · exact .refl s

theorem steady_cutStroke (s : State) : Steady s (cutStroke s) := by
  unfold cutStroke
  split
  · split
    · exact steady_stopRun _ s
    · exact .refl s
  · exact .refl s

theorem steady_shortStop (s : State) : Steady s (shortStop s) := by
  unfold shortStop
  split
  · rename_i r n hr
    refine Steady.trans ?_ (steady_requestPose _)
    refine ⟨⟨fun ⟨h₁, h₂, h₃⟩ => ⟨h₁, h₂, h₃.trans ?_⟩, fun _ => by rw [hr]; rfl⟩, rfl, fun _ => rfl, id⟩
    rw [hr]; rfl
  · exact .refl s

theorem jogOver_dropJog (s : State) : JogOver (dropJog s) := ⟨rfl, rfl, rfl⟩

theorem steady_dropJog (s : State) : Steady s (dropJog s) :=
  ⟨⟨fun _ => jogOver_dropJog s, id⟩, rfl, id, id⟩

/-! ### The pawl -/

/-- A pawl report starts no jog that is not waiting for it (R139). -/
theorem steady_engineOnPawl (p : PawlState) (s : State) : Steady s (engineOnPawl p s) := by
  unfold engineOnPawl
  split
  · split
    · rename_i h
      exact ⟨⟨fun ⟨h₁, _⟩ => absurd (h.1.symm.trans h₁) nofun, id⟩, rfl, id, id⟩
    · exact .refl s
  · simp only []
    split
    · exact (steady_cutStroke s).trans ((steady_dropJog _).after rfl rfl id)
    · exact steady_cutStroke s

theorem steady_reportPawl (p : PawlState) (s : State) : Steady s (reportPawl p s) := by
  have h : Steady s (engineOnPawl p (causeOfWithdrawal (requestPose (notify
      { s with pawl := { s.pawl with state := p } })))) :=
    ((steady_requestPose _).trans ((steady_causeOfWithdrawal _).trans (steady_engineOnPawl p _))).after
      rfl rfl fun _ => rfl
  unfold reportPawl
  simp only []
  split
  · exact h.trans (steady_of_engine rfl rfl id)
  · exact h

theorem steady_pawlWithdraw (s : State) : Steady s (pawlWithdraw s) := by
  unfold pawlWithdraw
  split
  · split
    · exact (steady_reportPawl _ _).after rfl rfl id
    · exact steady_of_engine rfl rfl id
    · exact .refl s
  · exact .refl s

theorem steady_pawlSet (s : State) : Steady s (pawlSet s) := by
  have hc : Steady s { s with pawl := { s.pawl with pendingWithdraw := false } } :=
    steady_of_engine rfl rfl id
  unfold pawlSet
  simp only []
  split
  · exact hc
  · exact hc
  · have hr := (steady_reportPawl .setting (armPawlLimit (commandPawl .set
        { s with pawl := { s.pawl with pendingWithdraw := false } }))).after (s := s) rfl rfl id
    split
    · exact hr.trans ((steady_reportPawl _ _).after rfl rfl id)
    · exact hr
  · exact (steady_reportPawl _ _).after rfl rfl id
  · exact steady_of_engine rfl rfl id

theorem steady_endJog (s : State) : Steady s (endJog s) := by
  unfold endJog
  split
  · exact .refl s
  · split
    · exact (steady_dropJog s).trans (steady_pawlSet _)
    · exact steady_dropJog s

theorem jogOver_endJog (h : s.engine.jog ≠ .none) : JogOver (endJog s) := by
  unfold endJog
  split
  · contradiction
  · split
    · exact (steady_pawlSet _).motion.jogOver (jogOver_dropJog s)
    · exact jogOver_dropJog s

/-! ### Mode entries and occurrences (R166, R175, R177) -/

theorem steady_setMode (m : Mode) (s : State) : Steady s (setMode m s) :=
  (steady_requestPose _).after rfl rfl fun _ => rfl

theorem steady_handRetained (s : State) : Steady s (handRetained s) := by
  unfold handRetained
  simp only []
  split <;> exact steady_of_engine rfl rfl id

theorem steady_ceilingIdle (s : State) : Steady s (ceilingIdle s) := steady_of_engine rfl rfl id

theorem steady_enterUnstaged (s : State) : Steady s (enterUnstaged s) := by
  have hdir : Steady s (if (setMode .unstaged s).stage.dir = .none then setMode .unstaged s
      else handRetained { setMode .unstaged s with
        stage := { (setMode .unstaged s).stage with dir := .none } }) := by
    refine (steady_setMode .unstaged s).trans ?_
    split
    · exact .refl _
    · exact (steady_handRetained _).after rfl rfl id
  exact hdir.trans (((steady_ceilingIdle _).trans (steady_pawlSet _)).after rfl rfl id)

theorem steady_enterSettled (s : State) : Steady s (enterSettled s) :=
  (steady_setMode _ s).trans ((steady_ceilingIdle _).trans (steady_pawlSet _))

theorem steady_enterHold (s : State) : Steady s (enterHold s) :=
  (steady_setMode _ s).trans ((steady_shortStop _).trans ((steady_causeOfWithdrawal _).trans
    ((steady_ceilingIdle _).trans (steady_pawlSet _))))

/-- What an entry to HALTED does once a jog has ended (R166). -/
theorem steady_enterHaltedTail (s : State) :
    Steady (endJog (setMode .halted s)) (enterHalted s) :=
  (steady_abortStroke _).trans ((steady_causeOfWithdrawal _).trans
    ((steady_ceilingIdle _).trans (steady_pawlSet _)))

theorem steady_enterHalted (s : State) : Steady s (enterHalted s) :=
  (steady_setMode _ s).trans ((steady_endJog _).trans (steady_enterHaltedTail s))

/-- An entry to HALTED ends a jog (R166). -/
theorem jogOver_enterHalted (h : s.engine.jog ≠ .none) : JogOver (enterHalted s) := by
  have he : (setMode .halted s).engine = s.engine := by
    obtain ⟨a, b, hset⟩ := setMode_eq .halted s
    rw [hset]
  exact (steady_enterHaltedTail s).motion.jogOver (jogOver_endJog (by rw [he]; exact h))

theorem steady_latchAt (p : Place) (n : Option Nat) (k : FaultKind) (s : State) :
    Steady s (latchAt p n k s) := by
  unfold latchAt
  simp only []
  split
  · exact steady_of_engine rfl rfl id
  · exact (steady_requestPose _).after rfl rfl fun _ => rfl

theorem steady_placeHalt (k : FaultKind) (s : State) : Steady s (placeHalt k s) := by
  unfold placeHalt
  split
  · exact .refl s
  · split
    · exact .refl s
    · exact steady_of_engine rfl rfl id

theorem steady_modeOnFault (k : FaultKind) (s : State) : Steady s (modeOnFault k s) := by
  have hrec : ∀ m k' (v : State), Steady v (recordStop m .fault k' none v) := fun _ _ _ =>
    steady_of_engine rfl rfl id
  unfold modeOnFault
  split
  · split
    · exact steady_placeHalt k s
    · exact steady_placeHalt k s
    · exact steady_placeHalt k s
    · exact ((steady_enterHalted s).trans (hrec ..)).trans (steady_placeHalt k _)
  · split
    · exact (steady_enterHold s).trans (hrec ..)
    · exact .refl s

theorem steady_report (k : FaultKind) (n : Option Nat) (s : State) : Steady s (report k n s) :=
  (steady_latchAt _ n k s).trans (steady_modeOnFault k _)

theorem steady_endStaging (s : State) : Steady s (endStaging s) :=
  ((steady_handRetained _).trans (steady_enterUnstaged _)).after rfl rfl fun _ => rfl

theorem steady_handOverArrival (s : State) : Steady s (handOverArrival s) := by
  unfold handOverArrival
  split
  · exact steady_endStaging s
  · exact steady_enterSettled s
  · exact .refl s

/-! ### The ceiling unit and the spacing unit (R86, R109 to R111) -/

theorem steady_tryQueue (s : State) : Steady s (tryQueue s) := by
  unfold tryQueue
  split
  · exact .refl s
  · split
    · rename_i hc
      split
      · refine ⟨⟨fun ⟨h₁, h₂, h₃⟩ => ⟨h₁, h₂, h₃.trans ?_⟩, nofun⟩, rfl, id, id⟩
        rw [hc.1]; rfl
      · exact steady_of_engine rfl rfl id
    · exact .refl s

theorem steady_giveOffer (r : Stroke) (s : State) : Steady s (giveOffer r s) := by
  unfold giveOffer handOffer
  exact (steady_tryQueue _).after rfl rfl id

theorem steady_giveWait (w : WaitReason) (s : State) : Steady s (giveWait w s) :=
  steady_of_engine rfl rfl id

theorem steady_giveArrived (s : State) : Steady s (giveArrived s) := steady_of_engine rfl rfl id

theorem steady_offerOrLead (o : Option Stroke) (s : State) : Steady s (offerOrLead o s) := by
  cases o with
  | none => exact steady_giveWait _ s
  | some r => exact steady_giveOffer r s

theorem steady_evalTakeUp (s : State) : Steady s (evalTakeUp s) := by
  unfold evalTakeUp
  split
  · exact (steady_giveWait _ s).trans (steady_report _ _ _)
  · split
    · exact steady_giveOffer _ s
    · exact steady_giveWait _ s

theorem steady_evalRaise (r : StagedRec) (h : Int) (s : State) : Steady s (evalRaise r h s) := by
  unfold evalRaise
  split
  · exact steady_offerOrLead _ s
  · exact steady_giveWait _ s

theorem steady_evalLower (r : StagedRec) (h : Int) (s : State) : Steady s (evalLower r h s) := by
  unfold evalLower
  simp only []
  split <;> split
  · exact (steady_offerOrLead _ s).trans (steady_pawlWithdraw _)
  · exact (steady_giveWait _ s).trans (steady_pawlWithdraw _)
  · exact steady_offerOrLead _ s
  · exact steady_giveWait _ s

theorem steady_markRelease (s : State) : Steady s (markRelease s) := by
  unfold markRelease
  split
  · exact steady_of_engine rfl rfl id
  · exact .refl s

theorem steady_evalNudge (r : StagedRec) (h : Int) (s : State) : Steady s (evalNudge r h s) := by
  unfold evalNudge
  split
  · split
    · exact ((steady_markRelease _).trans (steady_evalLower r h _)).after rfl rfl fun _ => rfl
    · split
      · exact steady_giveOffer _ s
      · exact steady_giveWait _ s
  · exact steady_giveWait _ s

theorem steady_evalAtRest (s : State) : Steady s (evalAtRest s) := by
  unfold evalAtRest
  split
  · refine (steady_markRelease s).trans ?_
    simp only []
    split
    · exact steady_giveArrived _
    · split
      · split
        · exact steady_evalNudge _ _ _
        · exact steady_evalLower _ _ _
      · exact steady_evalRaise _ _ _
  · exact steady_evalTakeUp s

theorem steady_evaluate (s : State) : Steady s (evaluate s) := by
  unfold evaluate
  split
  · split
    · exact steady_ceilingIdle s
    · simp only []
      split
      · exact steady_of_engine rfl rfl id
      · exact (steady_requestWithdrawal _).after rfl rfl id
    · exact steady_evalAtRest s
  · exact steady_ceilingIdle s

/-! ### The settling of a command -/

theorem startsNothing_shareEval (s : State) : StartsNothing s (shareEval s) := by
  have hw : ∀ on, StartsNothing s (setActive .loadShare on (writeShare s)) := fun _ =>
    startsNothing_of_engine rfl
  unfold shareEval
  simp only []
  split
  · exact (hw true).trans (steady_report _ _ _).motion
  · split
    · exact hw false
    · exact startsNothing_of_engine rfl

theorem steady_awaitTest (s : State) : Steady s (awaitTest s) := by
  unfold awaitTest
  split
  · exact (steady_handOverArrival _).after rfl rfl id
  · exact .refl s

theorem steady_restTest (s : State) : Steady s (restTest s) := by
  rw [restTest_eq]
  split
  · exact steady_setMode _ s
  · exact .refl s

theorem startsNothing_readers (s : State) : StartsNothing s (readers s) :=
  (startsNothing_shareEval s).trans
    ((steady_awaitTest _).trans ((steady_restTest _).trans (steady_evaluate _))).motion

theorem startsNothing_settle (n : Nat) (s : State) : StartsNothing s (settle n s) := by
  induction n generalizing s with
  | zero => exact startsNothing_of_engine rfl
  | succ n ih =>
    rw [settle_succ]
    split
    · exact (startsNothing_of_engine (s := s) (t := clearNotice s) rfl).trans
        ((startsNothing_readers _).trans (ih _))
    · exact startsNothing_of_engine rfl

/-- What ends a command starts no jog and no stroke. -/
theorem startsNothing_finish (s : State) : StartsNothing s (finish s) :=
  (startsNothing_settle settleRounds s).trans (startsNothing_of_engine (columnStands_finish s).engine)

end Sys2Proof.Machine

/-! ## A load reading (O53) -/

namespace Sys2Proof.Machine

variable {s t u : State}

/-! ### What the share check reads (R64, R160, R161) -/

/-- The share check reads the same of two states. -/
structure ShareRead (s t : State) : Prop where
  table : t.table = s.table
  record : t.stage.record = s.stage.record
  mode : t.mode = s.mode
  travel : t.engine.travel = s.engine.travel
  straps : t.straps = s.straps
  cfg : t.cfg = s.cfg
  present : t.loadMon.present = s.loadMon.present

theorem ColumnStands.shareRead (h : ColumnStands s t) : ShareRead s t :=
  ⟨h.table, by rw [h.stage], h.mode, by rw [h.engine], h.straps, h.cfg, h.present⟩

theorem ShareRead.stagedRec (h : ShareRead s t) : t.stagedRec = s.stagedRec := by
  unfold State.stagedRec; rw [h.record]

theorem ShareRead.lift (h : ShareRead s t) : t.lift = s.lift := by
  unfold State.lift; rw [h.stagedRec, h.travel]

theorem ShareRead.selfLive (h : ShareRead s t) : selfLive t = selfLive s := by
  unfold Machine.selfLive; rw [h.table]

/-- Loads and shares of the car group's rows (R64). -/
theorem ShareRead.carRows (h : ShareRead s t) :
    (carRows t).map (fun r => (r.report.load, r.fixed.share)) =
      (carRows s).map fun r => (r.report.load, r.fixed.share) := by
  unfold Machine.carRows
  rw [h.straps]
  cases ha : s.table with
  | none => rw [allRows_of_none (h.table.trans ha), allRows_of_none ha]
  | some a =>
    have hstaged : (selfRow t a).isStaged = (selfRow s a).isStaged :=
      congrArg Option.isSome h.lift
    have hself : ((selfRow t a).isLive && (selfRow t a).isStaged &&
        (selfRow t a).fixed.car == s.straps.car.val) =
        ((selfRow s a).isLive && (selfRow s a).isStaged &&
          (selfRow s a).fixed.car == s.straps.car.val) := by rw [hstaged]; rfl
    rw [allRows_of_some (h.table.trans ha), allRows_of_some ha, List.filter_cons, List.filter_cons, hself]
    split
    · exact congrArg (fun x => (x, a.selfFixed.share) :: _) h.present
    · rfl

theorem ShareRead.totals (h : ShareRead s t) :
    totalW t = totalW s ∧ totalU t = totalU s ∧ totalN t = totalN s := by
  have hw : ∀ v, totalW v = ((Machine.carRows v).map fun r => (r.report.load, r.fixed.share)).unzip.1.sum :=
    fun v => by simp [totalW, List.unzip_eq_map]; rfl
  have hu : ∀ v, totalU v = ((Machine.carRows v).map fun r => (r.report.load, r.fixed.share)).unzip.2.sum :=
    fun v => by simp [totalU, List.unzip_eq_map]; rfl
  have hn : ∀ v, totalN v = ((Machine.carRows v).map fun r => (r.report.load, r.fixed.share)).length :=
    fun v => by simp [totalN]
  rw [hw, hw, hu, hu, hn, hn, h.carRows]
  exact ⟨rfl, rfl, rfl⟩

theorem ShareRead.shareOf (h : ShareRead s t) : shareOf t = shareOf s := by
  obtain ⟨hw, hu, -⟩ := h.totals
  have hactive : shareActive t = shareActive s := by
    unfold shareActive
    rw [h.stagedRec, h.mode, h.selfLive, h.cfg, hw]
  unfold Machine.shareOf
  rw [hactive, h.present, h.cfg, h.straps, hw, hu]

/-! ### The evaluation's cases (R162) -/

/-- The share state as written is the one that the loads give. -/
structure Evaluated (s : State) : Prop where
  share : s.loadMon.share = shareOf s
  totals : (s.loadMon.totalW, s.loadMon.totalU, s.loadMon.totalN) = (totalW s, totalU s, totalN s)

theorem shareEval_leaves (hwas : outOfBand s.loadMon.share = false) (hnow : outOfBand (shareOf s) = true) :
    shareEval s = report .loadShare none (setActive .loadShare true (writeShare s)) := by
  unfold shareEval
  simp [hwas, hnow]

theorem shareEval_returns (hwas : outOfBand s.loadMon.share = true) (hnow : outOfBand (shareOf s) = false) :
    shareEval s = setActive .loadShare false (writeShare s) := by
  unfold shareEval
  simp [hwas, hnow]

theorem shareEval_stays (h : outOfBand s.loadMon.share = outOfBand (shareOf s)) :
    shareEval s = writeShare s := by
  unfold shareEval
  simp [h]

/-- A column in band, or a check that is not active, is no occurrence (R162). -/
theorem shareEval_inBand (hnow : outOfBand (shareOf s) = false) :
    shareEval s = setActive .loadShare false (writeShare s) ∨ shareEval s = writeShare s := by
  cases hwas : outOfBand s.loadMon.share with
  | true => exact .inl (shareEval_returns hwas hnow)
  | false => exact .inr (shareEval_stays (hwas.trans hnow.symm))

theorem inner_shareEval_inBand (hnow : outOfBand (shareOf s) = false) :
    (shareEval s).inner = s.inner ∧ (shareEval s).notice = s.notice ∧ ColumnStands s (shareEval s) := by
  have hw := columnStands_writeShare s
  rcases shareEval_inBand hnow with h | h <;> rw [h]
  · exact ⟨inner_endShare (writeShare s), rfl, hw.trans (columnStands_setActive ..)⟩
  · exact ⟨rfl, rfl, hw⟩

theorem evaluated_shareEval (hm : s.mode ≠ .moving) : Evaluated (shareEval s) := by
  have hread := (columnStands_shareEval hm).shareRead
  obtain ⟨hw, hu, hn⟩ := hread.totals
  have hshare : (shareEval s).loadMon = (writeShare s).loadMon := by
    unfold shareEval
    simp only []
    split
    · rw [report_resting (s := setActive .loadShare true (writeShare s)) rfl none hm]
      obtain ⟨faults, a, b, notice, h⟩ := latchAt_eq (placeNow (setActive .loadShare true (writeShare s)))
        none .loadShare (setActive .loadShare true (writeShare s))
      rw [h]; rfl
    · split <;> rfl
  refine ⟨?_, ?_⟩
  · rw [hread.shareOf, hshare]; rfl
  · rw [hw, hu, hn, hshare]; rfl

/-- The share evaluation made again writes what stands (R162). -/
theorem shareEval_again (h : Evaluated s) : shareEval s = s := by
  have hw : writeShare s = s := by
    obtain ⟨hw, hun⟩ := Prod.mk.inj h.totals
    obtain ⟨hu, hn⟩ := Prod.mk.inj hun
    unfold writeShare
    rw [← h.share, ← hw, ← hu, ← hn]
  rw [shareEval_stays (by rw [h.share]), hw]

/-! ### The share check as a command settles -/

/-- What ends a command after its notices writes the line-busy limit and the lamps (R15, R191). -/
theorem finish_eq (s : State) :
    ∃ line lamps, finish s = { settle settleRounds s with line := line, lamps := lamps, notice := false } := by
  unfold finish armBusy
  split <;> exact ⟨_, _, rfl⟩

/-- The results of the share check are those of `s`. -/
structure ShareStands (s t : State) : Prop where
  loadMon : t.loadMon = s.loadMon
  fault : t.fault .loadShare = s.fault .loadShare

/-- A column evaluated in SETTLED shows the same results as long as it stays there (R162). -/
theorem shareStands_settle (hm : s.mode = .settled) (he : Evaluated s) (n : Nat)
    (hend : (settle n s).mode = .settled) : ShareStands s (settle n s) := by
  induction n generalizing s with
  | zero => exact ⟨rfl, rfl⟩
  | succ n ih =>
    rw [settle_succ] at hend ⊢
    split at hend
    · rename_i hn
      rw [if_pos hn]
      have hc := columnStands_clearNotice s
      have hagain : shareEval (clearNotice s) = clearNotice s := by
        obtain ⟨hw, hu, hn⟩ := hc.shareRead.totals
        exact shareEval_again ⟨he.share.trans hc.shareRead.shareOf.symm, he.totals.trans (by rw [hw, hu, hn])⟩
      have hround := readers_settled (hc.mode.trans hm)
      rw [hagain] at hround
      cases hrest : findsRest (clearNotice s) with
      | true =>
        have hidle : (readers (clearNotice s)).mode = .idle := by
          rw [hround, hrest, if_pos rfl, (columnStands_ceilingIdle _).mode, mode_enterIdle]
        have hstay := congrArg Inner.mode (settle_quiet n (s := readers (clearNotice s))
          (by rw [Quiet, hidle]; exact ⟨nofun, nofun⟩))
        exact absurd (hend.symm.trans (hstay.trans hidle)) nofun
      | false =>
        rw [hrest, if_neg Bool.false_ne_true] at hround
        rw [hround] at hend ⊢
        have hi := hc.trans (columnStands_ceilingIdle (clearNotice s))
        have hei : Evaluated (ceilingIdle (clearNotice s)) := by
          obtain ⟨hw, hu, hn⟩ := hi.shareRead.totals
          exact ⟨he.share.trans hi.shareRead.shareOf.symm, he.totals.trans (by rw [hw, hu, hn])⟩
        obtain ⟨hl, hf⟩ := ih (hi.mode.trans hm) hei hend
        exact ⟨hl, hf⟩
    · rename_i hn
      rw [if_neg hn]
      exact ⟨rfl, rfl⟩

theorem shareStands_finish (hm : s.mode = .settled) (he : Evaluated s) (hend : (finish s).mode = .settled) :
    ShareStands s (finish s) := by
  obtain ⟨line, lamps, heq⟩ := finish_eq s
  have hsettled : (settle settleRounds s).mode = .settled := by rw [heq] at hend; exact hend
  obtain ⟨hl, hf⟩ := shareStands_settle hm he settleRounds hsettled
  rw [heq]
  exact ⟨hl, hf⟩

/-- Outside MOVING and SETTLED a condition of LOAD_SHARE ends at the notice (R160, R162). -/
theorem finish_endsShare (hq : Quiet s) (hn : s.notice = true) (hwas : outOfBand s.loadMon.share = true) :
    (finish s).loadMon.share = .inactive ∧
      (finish s).fault .loadShare = { s.fault .loadShare with active := false } := by
  have hqc : Quiet (clearNotice s) := hq
  have heval : shareEval (clearNotice s) = setActive .loadShare false (writeShare (clearNotice s)) :=
    shareEval_returns hwas (by rw [shareOf_quiet hqc]; rfl)
  have hqe : Quiet (shareEval (clearNotice s)) := by rw [heval]; exact hq
  have hround : readers (clearNotice s) = ceilingIdle (shareEval (clearNotice s)) := by
    unfold readers
    rw [awaitTest_quiet hqe, restTest_quiet hqe]
    exact if_neg hqe.1
  have hsettle : settle settleRounds s = readers (clearNotice s) := by
    rw [settleRounds, settle_succ, if_pos hn]
    exact settle_still _ (by rw [hround, heval]; rfl)
  obtain ⟨line, lamps, heq⟩ := finish_eq s
  rw [heq, hsettle, hround, heval]
  refine ⟨shareOf_quiet hqc, ?_⟩
  show (setActive .loadShare false (writeShare (clearNotice s))).fault .loadShare = _
  rw [fault_setActive, if_pos rfl]
  rfl

/-- A column in band whose stroke runs in MOVING settles as it stands (R86, R162). -/
theorem finish_running {r : Stroke} {n : Nat} (hr : s.engine.stroke = .running r n) (hm : s.mode = .moving)
    (ha : s.stage.awaitingSet = false) (hnow : outOfBand (shareOf s) = false) :
    (finish s).inner = s.inner := by
  have hc := columnStands_clearNotice s
  obtain ⟨hinner, hnotice, hcol⟩ := inner_shareEval_inBand (s := clearNotice s)
    (by rw [hc.shareRead.shareOf]; exact hnow)
  have hall := hc.trans hcol
  have hround : readers (clearNotice s) = ceilingIdle (shareEval (clearNotice s)) := by
    have hmode := hall.mode.trans hm
    have hawait : awaitTest (shareEval (clearNotice s)) = shareEval (clearNotice s) := by
      simp [awaitTest, hall.stage, ha]
    have hrest : restTest (shareEval (clearNotice s)) = shareEval (clearNotice s) := by
      rw [restTest_eq, if_neg (by simp [hmode])]
    unfold readers evaluate
    rw [hawait, hrest, if_pos hmode, hall.engine, hr]
  have hsettle : (settle settleRounds s).inner = s.inner := by
    rw [settleRounds, settle_succ]
    split
    · rw [settle_still _ (by rw [hround]; exact hnotice), hround]
      exact hinner
    · rfl
  rw [← hsettle]
  unfold finish armBusy
  split <;> rfl

end Sys2Proof.Machine

/-! ### What a reading does before the share evaluation (R138, R154, R155, R157) -/

namespace Sys2Proof.Machine

variable {v : Nat} {s t u : State}

/-- The reading begins OVERLOAD (R155). -/
abbrev beginsOverload (v : Nat) (s : State) : Prop := s.cfg.wr < v ∧ s.loadMon.above = false

/-- The reading ends a jog up (R138). -/
abbrev endsJogUp (v : Nat) (s : State) : Prop := s.engine.jog = .up ∧ s.cfg.wc ≤ v

/-- The state with the reading taken and tested against W_r (R154, R155). -/
def readIn (v : Nat) (s : State) : State := overloadTest (takeReading v s)

theorem takeReading_eq (v : Nat) (s : State) :
    ∃ notice, takeReading v s =
      { s with loadMon := { s.loadMon with present := v, overRange := v == 4095 }, notice := notice } := by
  unfold takeReading
  simp only []
  split
  · exact ⟨true, rfl⟩
  · exact ⟨s.notice, rfl⟩

/-- The reading with its outcome against W_r written (R155). -/
def ratedIn (v : Nat) (s : State) : State :=
  { takeReading v s with loadMon := { (takeReading v s).loadMon with above := decide (s.cfg.wr < v) } }

theorem ratedIn_eq (v : Nat) (s : State) :
    ∃ notice, ratedIn v s =
      { s with
        loadMon := { s.loadMon with present := v, overRange := v == 4095, above := decide (s.cfg.wr < v) }
        notice := notice } := by
  obtain ⟨notice, hu⟩ := takeReading_eq v s
  unfold ratedIn
  rw [hu]
  exact ⟨notice, rfl⟩

/-- The OVERLOAD test: an occurrence, the end of the condition, or neither (R155). -/
theorem readIn_cases (v : Nat) (s : State) :
    readIn v s =
      if beginsOverload v s then
        report .overload none (setActive .overload true (ratedIn v s))
      else if ¬ s.cfg.wr < v ∧ s.loadMon.above = true then setActive .overload false (ratedIn v s)
      else ratedIn v s := by
  obtain ⟨notice, hu⟩ := takeReading_eq v s
  have hnow : aboveRated (takeReading v s) = decide (s.cfg.wr < v) := by rw [hu]; rfl
  have hwas : (takeReading v s).loadMon.above = s.loadMon.above := by rw [hu]
  unfold readIn overloadTest ratedIn
  simp only [hnow, hwas]
  by_cases hv : s.cfg.wr < v <;> by_cases ha : s.loadMon.above = true <;> simp [beginsOverload, hv, ha]

theorem readIn_over (h : beginsOverload v s) :
    readIn v s = report .overload none (setActive .overload true (ratedIn v s)) :=
  (readIn_cases v s).trans (if_pos h)

/-- A reading that begins no OVERLOAD writes the load monitor and ends the condition at most (R154, R155). -/
theorem readIn_other (h : ¬ beginsOverload v s) :
    ∃ notice faults, readIn v s =
      { s with
        loadMon := { s.loadMon with present := v, overRange := v == 4095, above := decide (s.cfg.wr < v) }
        faults := faults, notice := notice } := by
  obtain ⟨notice, hr⟩ := ratedIn_eq v s
  rw [readIn_cases, if_neg h, hr]
  split
  · exact ⟨notice, _, rfl⟩
  · exact ⟨notice, s.faults, rfl⟩

/-- The record of OVERLOAD after the reading (R155, R181). -/
theorem fault_readIn (k : FaultKind) (v : Nat) (s : State) :
    (readIn v s).fault k =
      if k ≠ .overload then s.fault k
      else if s.cfg.wr < v ∧ s.loadMon.above = false then recordAfter s .overload true none
      else if ¬ s.cfg.wr < v ∧ s.loadMon.above = true then { s.fault .overload with active := false }
      else s.fault .overload := by
  obtain ⟨notice, hr⟩ := ratedIn_eq v s
  have hfault : ∀ j, (ratedIn v s).fault j = s.fault j := fun j => by rw [hr]; rfl
  rw [readIn_cases]
  by_cases hk : k = .overload
  · rw [if_neg (not_not.mpr hk), hk]
    split
    · rw [fault_report, if_pos rfl, placeNow_eq, fault_setActive, if_pos rfl, hfault, hr]
      rfl
    · split
      · rw [fault_setActive, if_pos rfl, hfault]
      · exact hfault _
  · rw [if_pos hk]
    split
    · rw [fault_report, if_neg hk, fault_setActive, if_neg hk, hfault]
    · split
      · rw [fault_setActive, if_neg hk, hfault]
      · exact hfault k

theorem outer_readIn (v : Nat) (s : State) :
    (readIn v s).outer =
      { s.outer with present := v, overRange := v == 4095, above := decide (s.cfg.wr < v) } := by
  obtain ⟨notice, hr⟩ := ratedIn_eq v s
  rw [readIn_cases]
  split
  · rw [outer_report, outer_setActive, hr]; rfl
  · split
    · rw [outer_setActive, hr]; rfl
    · rw [hr]; rfl

theorem steady_readIn (v : Nat) (s : State) : Steady s (readIn v s) := by
  have hr : Steady s (ratedIn v s) := by
    refine ⟨startsNothing_of_engine ?_, ?_, fun h => ?_, fun h => ?_⟩
    · obtain ⟨notice, hr⟩ := ratedIn_eq v s
      rw [hr]
    · obtain ⟨notice, hr⟩ := ratedIn_eq v s
      rw [hr]
    · unfold ratedIn takeReading
      simp only []
      split
      · rfl
      · exact h
    · obtain ⟨notice, hr⟩ := ratedIn_eq v s
      rw [hr] at h
      exact h
  have ha : ∀ on, Steady s (setActive .overload on (ratedIn v s)) := fun on =>
    hr.trans (steady_of_engine rfl rfl id)
  rw [readIn_cases]
  split
  · exact (ha true).trans (steady_report _ _ _)
  · split
    · exact ha false
    · exact hr

/-- Outside a contact capture a reading is tested against W_r alone (R157, R159). -/
theorem loadTests_eq (h : s.loadMon.watch = false ∨ v < s.cfg.wc) :
    loadTests (takeReading v s) = readIn v s := by
  have hcontact : ¬ ((readIn v s).loadMon.watch = true ∧ (readIn v s).cfg.wc ≤ (readIn v s).loadMon.present) := by
    rintro ⟨hw, hc⟩
    have hout := outer_readIn v s
    have hcfg : (readIn v s).cfg = s.cfg := congrArg (·.settings.inForce) hout
    have hpresent : (readIn v s).loadMon.present = v := congrArg Outer.present hout
    rw [hcfg, hpresent] at hc
    rcases h with h | h
    · exact absurd ((steady_readIn v s).watch hw) (by simp [h])
    · omega
  have hopen : orderOpen (takeReading v s) = false := by
    obtain ⟨notice, hu⟩ := takeReading_eq v s
    unfold orderOpen
    rw [hu]
    rcases h with h | h
    · simp [h]
    · have : ¬ s.cfg.wc ≤ v := by omega
      show (_ && _ && _ && decide (s.cfg.wc ≤ v)) = false
      rw [decide_eq_false this, Bool.and_false]
  unfold loadTests
  rw [hopen, if_neg Bool.false_ne_true]
  exact if_neg hcontact

/-! ### The jog that a reading ends (R138) -/

/-- The state that the share evaluation finds (R138, R159). -/
def tested (v : Nat) (s : State) : State := jogLoadTest (readIn v s)

theorem exec_loadReading {v : Fin 4096} (h : s.loadMon.watch = false ∨ v.val < s.cfg.wc) :
    exec (.loadReading v) s = .next (finish (shareEval (tested v.val s))) := by
  show Host.Outcome.next _ = _
  rw [loadTests_eq h]
  rfl

theorem tested_eq (v : Nat) (s : State) :
    tested v s =
      if (readIn v s).engine.jog = .up ∧ s.cfg.wc ≤ v then dropJog (readIn v s) else readIn v s := by
  have hout := outer_readIn v s
  have hcfg : (readIn v s).cfg = s.cfg := congrArg (·.settings.inForce) hout
  have hpresent : (readIn v s).loadMon.present = v := congrArg Outer.present hout
  unfold tested jogLoadTest
  rw [hcfg, hpresent]
  split
  · rename_i h
    unfold endJog
    rw [h.1]
    rfl
  · rfl

theorem outer_tested (v : Nat) (s : State) : (tested v s).outer = (readIn v s).outer := by
  rw [tested_eq]
  split <;> rfl

theorem fault_tested (k : FaultKind) (v : Nat) (s : State) : (tested v s).fault k = (readIn v s).fault k := by
  rw [tested_eq]
  split <;> rfl

theorem steady_tested (v : Nat) (s : State) : Steady s (tested v s) := by
  rw [tested_eq]
  split
  · exact (steady_readIn v s).trans (steady_dropJog _)
  · exact steady_readIn v s

/-- An occurrence of a halt-class kind ends a jog with the entry to HALTED, or leaves the engine (R166, R177). -/
theorem jog_haltReport {k : FaultKind} (hk : haltClass k = true) (n : Option Nat)
    (hj : s.engine.jog ≠ .none) : (report k n s).engine = s.engine ∨ JogOver (report k n s) := by
  have hplace : ∀ u : State, (placeHalt k u).engine = u.engine := fun u => by
    unfold placeHalt
    split
    · rfl
    · split <;> rfl
  have hl : (latchAt (placeNow s) n k s).engine = s.engine :=
    (columnStands_latchAt (placeNow s) n k s).engine
  unfold report reportAt
  rw [modeOnFault_halt hk]
  split
  · exact .inl ((hplace _).trans hl)
  · refine .inr ((startsNothing_of_engine (hplace _)).jogOver ?_)
    have hjl : (latchAt (placeNow s) n k s).engine.jog ≠ .none := by rw [hl]; exact hj
    exact jogOver_enterHalted hjl

/-- A reading of W_c or more ends a jog up, OVERLOAD or not (R138, R140). -/
theorem jogOver_tested (h : endsJogUp v s) : JogOver (tested v s) := by
  obtain ⟨hup, hv⟩ := h
  have hread : (readIn v s).engine = s.engine ∨ JogOver (readIn v s) := by
    by_cases hover : beginsOverload v s
    · have hrated : (setActive .overload true (ratedIn v s)).engine = s.engine := by
        obtain ⟨notice, hr⟩ := ratedIn_eq v s
        rw [hr]; rfl
      rw [readIn_over hover, ← hrated]
      exact jog_haltReport rfl none (by rw [hrated, hup]; exact nofun)
    · obtain ⟨notice, faults, hr⟩ := readIn_other hover
      exact .inl (by rw [hr])
  rw [tested_eq]
  rcases hread with he | hover
  · rw [he, if_pos ⟨hup, hv⟩]
    exact jogOver_dropJog _
  · rw [if_neg (by rw [hover.1]; exact nofun)]
    exact hover

/-- A reading that begins no OVERLOAD keeps all but the load monitor, a jog up and the record of OVERLOAD. -/
theorem tested_other (h : ¬ beginsOverload v s) :
    ∃ notice faults engine, tested v s =
        { s with
          loadMon := { s.loadMon with present := v, overRange := v == 4095, above := decide (s.cfg.wr < v) }
          faults := faults, notice := notice, engine := engine } ∧
      engine.travel = s.engine.travel ∧ (¬ endsJogUp v s → engine = s.engine) := by
  obtain ⟨notice, faults, hr⟩ := readIn_other h
  rw [tested_eq, hr]
  split
  · rename_i hj
    exact ⟨notice, faults, _, rfl, rfl, fun hno => absurd hj hno⟩
  · exact ⟨notice, faults, s.engine, rfl, rfl, fun _ => rfl⟩

end Sys2Proof.Machine

/-! ### What a reading comes to (O53) -/

namespace Sys2Proof.Machine

variable {v : Nat} {s t : State}

/-- The reading taken and nothing else (R154). -/
def withReading (v : Nat) (s : State) : State :=
  { s with loadMon := { s.loadMon with present := v, overRange := v == 4095 } }

theorem drive_notRunning (h : isRunning s.engine.stroke = false) (hj : JogOver s) :
    s.engine.drive = .off := by
  rw [hj.2.2]
  cases hs : s.engine.stroke with
  | rest => rfl
  | claiming r => rfl
  | running r n => rw [hs] at h; cases h

/-- The mode, the HALT slot and the drive after a reading that begins OVERLOAD (R155, R177). -/
theorem halts_of_overload (h : beginsOverload v s) :
    (finish (shareEval (tested v s))).mode =
        (if s.mode = .rollcall ∨ s.mode = .barred then s.mode else .halted) ∧
      (finish (shareEval (tested v s))).line.haltSlot =
        some (s.line.haltSlot.getD (haltFrame s .overload)) ∧
      (s.mview.Safe → (finish (shareEval (tested v s))).engine.drive = .off) := by
  have hread := readIn_over h
  have hmode : (tested v s).mode = if s.mode = .rollcall ∨ s.mode = .barred then s.mode else .halted := by
    have hm : (tested v s).mode = (readIn v s).mode := by rw [tested_eq]; split <;> rfl
    obtain ⟨notice, hr⟩ := ratedIn_eq v s
    rw [hm, hread, mode_haltReport rfl, hr]
    rfl
  have hslot : (tested v s).line.haltSlot = some (s.line.haltSlot.getD (haltFrame s .overload)) := by
    have hs : (tested v s).line.haltSlot = (readIn v s).line.haltSlot := by rw [tested_eq]; split <;> rfl
    obtain ⟨notice, hr⟩ := ratedIn_eq v s
    rw [hs, hread, report, haltSlot_haltReportAt rfl, if_neg nofun, hr]
    rfl
  have hin : (finish (shareEval (tested v s))).inner = (tested v s).inner := by
    have hq : Quiet (tested v s) := by
      unfold Quiet
      rw [hmode]
      split
      · rename_i hm; rcases hm with hm | hm <;> rw [hm] <;> exact ⟨nofun, nofun⟩
      · exact ⟨nofun, nofun⟩
    obtain ⟨hi, -⟩ := inner_shareEval hq
    rw [finish_quiet (quiet_of_eq (congrArg Inner.mode hi) hq), hi]
  have hend : (finish (shareEval (tested v s))).mode =
      if s.mode = .rollcall ∨ s.mode = .barred then s.mode else .halted :=
    (congrArg Inner.mode hin).trans hmode
  refine ⟨hend, (congrArg Inner.haltSlot hin).trans hslot, fun hs => drive_off (safe_finish (safe_shareEval ?_)) ?_⟩
  · have hrated : (setActive .overload true (ratedIn v s)).mview = s.mview := by
      obtain ⟨notice, hr⟩ := ratedIn_eq v s
      rw [hr]; rfl
    have hsafe : (readIn v s).mview.Safe := by
      rw [hread]
      exact safe_report _ _ (by rw [hrated]; exact hs)
    rw [tested_eq]
    split
    · exact tame_dropJog.safe hsafe
    · exact hsafe
  · rw [hend]
    split
    · rename_i hm; rcases hm with hm | hm <;> simp [hm]
    · simp

/-- A jog that the reading ends stays over, with the drive OFF where no stroke runs (R138, R140). -/
theorem jog_of_reading (h : endsJogUp v s) :
    (finish (shareEval (tested v s))).engine.jog = .none ∧
      (s.engine.stroke = .rest → (finish (shareEval (tested v s))).engine.drive = .off) := by
  have hs : StartsNothing (tested v s) (finish (shareEval (tested v s))) :=
    (startsNothing_shareEval _).trans (startsNothing_finish _)
  have hover := hs.jogOver (jogOver_tested h)
  refine ⟨hover.1, fun hrest => drive_notRunning (Bool.eq_false_iff.mpr fun hrun => ?_) hover⟩
  have hrun' := (steady_tested v s).motion.run (hs.run hrun)
  rw [hrest] at hrun'
  cases hrun'

/-- A reading that begins no OVERLOAD and ends no jog keeps the inner part up to the record of OVERLOAD. -/
theorem inner_tested (h : ¬ beginsOverload v s) (hj : ¬ endsJogUp v s) :
    (tested v s).inner = { s.inner with faults := (tested v s).inner.faults } ∧
      OtherFaultsKept s (tested v s) .overload := by
  obtain ⟨notice, faults, engine, heq, -, hengine⟩ := tested_other h
  refine ⟨by rw [heq, hengine hj]; rfl, fun j hj => inner_faults_of_fault ?_⟩
  rw [fault_tested, fault_readIn, if_pos hj]

/-- The share check reads the state with the reading in it (R154, R160). -/
theorem shareRead_tested (h : ¬ beginsOverload v s) : ShareRead (withReading v s) (tested v s) := by
  obtain ⟨notice, faults, engine, heq, htravel, -⟩ := tested_other h
  rw [heq]
  exact ⟨rfl, rfl, rfl, htravel, rfl, rfl, rfl⟩

theorem columnPlace_tested (h : ¬ beginsOverload v s) : columnPlace (tested v s) = columnPlace s := by
  obtain ⟨notice, faults, engine, heq, htravel, -⟩ := tested_other h
  rw [heq]
  unfold columnPlace
  rw [htravel]

/-! ### The share check (R160 to R163) -/

theorem shareOf_active (hl : s.lift.isSome = true) (hm : s.mode = .moving ∨ s.mode = .settled)
    (hlive : selfLive s = true) (hw : s.cfg.wmin ≤ totalW s) :
    shareOf s =
      if (16 + s.cfg.b) * (s.straps.share.val * totalW s) < 16 * s.loadMon.present * totalU s then .over
      else if 16 * s.loadMon.present * totalU s < (16 - s.cfg.b) * (s.straps.share.val * totalW s) then .under
      else .inBand := by
  have hstaged : s.stagedRec.isSome = true := by simpa [State.lift] using hl
  have hactive : shareActive s = true := by
    unfold shareActive
    rcases hm with hm | hm <;> simp [hstaged, hm, hlive, hw]
  unfold shareOf
  rw [if_pos hactive]

theorem inBand_shareOf (h : InBand s) : outOfBand (shareOf s) = false := by
  unfold shareOf
  split
  · rename_i hactive
    simp only [shareActive, Bool.and_eq_true, decide_eq_true_eq] at hactive
    obtain ⟨⟨⟨hstaged, -⟩, hlive⟩, hw⟩ := hactive
    obtain ⟨hover, hunder⟩ := h (by simpa [State.lift] using hstaged) hlive hw
    simp only []
    rw [if_neg (by omega), if_neg (by omega)]
    rfl
  · rfl

/-- The record of LOAD_SHARE after the share evaluation (R162). -/
theorem fault_shareEval_share (s : State) :
    (shareEval s).fault .loadShare =
      if outOfBand (shareOf s) = true then
        if outOfBand s.loadMon.share = true then s.fault .loadShare else recordAfter s .loadShare true none
      else if outOfBand s.loadMon.share = true then { s.fault .loadShare with active := false }
      else s.fault .loadShare := by
  cases hnow : outOfBand (shareOf s) <;> cases hwas : outOfBand s.loadMon.share
  · rw [shareEval_stays (hwas.trans hnow.symm)]; rfl
  · rw [shareEval_returns hwas hnow, fault_setActive, if_pos rfl]; rfl
  · rw [shareEval_leaves hwas hnow, fault_report, if_pos rfl, placeNow_eq, fault_setActive, if_pos rfl]; rfl
  · rw [shareEval_stays (hwas.trans hnow.symm)]; rfl

/-- The record of LOAD_SHARE that the share evaluation of a reading leaves (R155, R162). -/
theorem fault_share_tested (h : ¬ beginsOverload v s) :
    (shareEval (tested v s)).fault .loadShare =
      if outOfBand (shareOf (withReading v s)) = true then
        if outOfBand s.loadMon.share = true then s.fault .loadShare else recordAfter s .loadShare true none
      else if outOfBand s.loadMon.share = true then { s.fault .loadShare with active := false }
      else s.fault .loadShare := by
  have hfault : (tested v s).fault .loadShare = s.fault .loadShare := by
    rw [fault_tested, fault_readIn, if_pos nofun]
  have htime : (tested v s).timeBase = s.timeBase := by
    obtain ⟨notice, faults, engine, heq, -, -⟩ := tested_other h
    rw [heq]
  rw [fault_shareEval_share, (shareRead_tested h).shareOf, (steady_tested v s).share, hfault]
  unfold recordAfter recordAfterAt
  rw [hfault, htime, columnPlace_tested h]

/-- A station that stays in SETTLED shows the share state, the totals and the record of one evaluation (R162). -/
theorem settled_shares (h : ¬ beginsOverload v s) (hm : s.mode = .settled)
    (hend : (finish (shareEval (tested v s))).mode = .settled) :
    (finish (shareEval (tested v s))).loadMon.share = shareOf (withReading v s) ∧
      ((finish (shareEval (tested v s))).loadMon.totalW, (finish (shareEval (tested v s))).loadMon.totalU,
          (finish (shareEval (tested v s))).loadMon.totalN) =
        (totalW (withReading v s), totalU (withReading v s), totalN (withReading v s)) ∧
      (finish (shareEval (tested v s))).fault .loadShare = (shareEval (tested v s)).fault .loadShare := by
  have hread := shareRead_tested h
  have hmode : (tested v s).mode = .settled := hread.mode.trans hm
  have hnot : (tested v s).mode ≠ .moving := by rw [hmode]; exact nofun
  have hcol := columnStands_shareEval hnot
  have heval := evaluated_shareEval hnot
  obtain ⟨hl, hf⟩ := shareStands_finish (hcol.mode.trans hmode) heval hend
  obtain ⟨hw, hu, hn⟩ := hread.totals
  obtain ⟨hw', hu', hn'⟩ := hcol.shareRead.totals
  rw [hl, heval.share, heval.totals, hcol.shareRead.shareOf, hread.shareOf, hw', hu', hn', hw, hu, hn]
  exact ⟨rfl, rfl, hf⟩

theorem notice_holdReport {k : FaultKind} (hk : holdClass k = true) (n : Option Nat) (hm : s.mode = .moving) :
    (report k n s).notice = true := by
  have hhalt : haltClass k = false := by
    cases k <;> simp_all [haltClass, holdClass]
  have hset : ∀ u : State, (enterHold u).notice = true := fun u => by
    obtain ⟨a, b, hset⟩ := setMode_eq .hold u
    exact ((steady_shortStop _).trans ((steady_causeOfWithdrawal _).trans
      ((steady_ceilingIdle _).trans (steady_pawlSet _)))).notice (by rw [hset])
  unfold report reportAt modeOnFault
  rw [if_neg (by simp [hhalt]), if_pos (by simp [hk, hm])]
  exact hset _

/-- A column in MOVING that leaves its band holds, and in HOLD the check is not active (R160, R162, R175). -/
theorem moving_leavesBand (h : ¬ beginsOverload v s) (hm : s.mode = .moving)
    (hwas : outOfBand s.loadMon.share = false) (hnow : outOfBand (shareOf (withReading v s)) = true) :
    (finish (shareEval (tested v s))).mode = .hold ∧
      (finish (shareEval (tested v s))).loadMon.share = .inactive ∧
      (finish (shareEval (tested v s))).fault .loadShare = recordAfter s .loadShare false none ∧
      (finish (shareEval (tested v s))).modeCtl.lastStop =
        some ⟨.hold, .fault, some .loadShare, none, ⟨s.timeBase, false⟩⟩ := by
  have hread := shareRead_tested h
  have hmode : (setActive .loadShare true (writeShare (tested v s))).mode = .moving :=
    ((columnStands_writeShare _).trans (columnStands_setActive ..)).mode.trans (hread.mode.trans hm)
  have hnow' : outOfBand (shareOf (tested v s)) = true := by rw [hread.shareOf]; exact hnow
  have heval := shareEval_leaves (s := tested v s) (by rw [(steady_tested v s).share]; exact hwas) hnow'
  have hhold : (shareEval (tested v s)).mode = .hold := by
    rw [heval, mode_holdReport rfl, if_pos hmode]
  have hstop : (shareEval (tested v s)).modeCtl.lastStop =
      some ⟨.hold, .fault, some .loadShare, none, ⟨s.timeBase, false⟩⟩ := by
    have htime : (setActive .loadShare true (writeShare (tested v s))).timeBase = s.timeBase := by
      obtain ⟨notice, faults, engine, heq, -, -⟩ := tested_other h
      rw [heq]; rfl
    rw [heval, lastStop_holdReport rfl, if_pos hmode, htime]
  have hq : Quiet (shareEval (tested v s)) := by rw [Quiet, hhold]; exact ⟨nofun, nofun⟩
  have hnotice : (shareEval (tested v s)).notice = true := by
    rw [heval]
    exact notice_holdReport rfl none hmode
  have hshare : outOfBand (shareEval (tested v s)).loadMon.share = true := by
    rw [heval, (steady_report ..).share]
    exact hnow'
  obtain ⟨hends, hfault⟩ := finish_endsShare hq hnotice hshare
  have hin := finish_quiet hq
  refine ⟨(congrArg Inner.mode hin).trans hhold, hends, ?_, (congrArg Inner.lastStop hin).trans hstop⟩
  rw [hfault, fault_share_tested h, if_pos hnow, if_neg (by simp [hwas])]
  rfl

end Sys2Proof.Machine

open Sys2Proof Sys2Proof.Machine in
/-- Settles O53: the reading, its OVERLOAD test and the jog test, then one share evaluation, which the settling finds
made unless the station leaves SETTLED or MOVING. -/
theorem loadReading : Obligations.LoadReading := by
  intro s v hwatch above u
  have habove : ∀ {p : Prop}, (above = true ∧ p) ↔ (s.cfg.wr < v.val ∧ p) := by simp [above]
  have hlow : above = false → ¬ beginsOverload v.val s := fun h hb => by
    simp [above] at h
    exact absurd hb.1 (by omega)
  have hnone : ¬ (above = true ∧ s.loadMon.above = false) → ¬ beginsOverload v.val s := fun h hb =>
    h (habove.mpr hb)
  refine ⟨_, exec_loadReading hwatch, ?_, ?_, fun ha hb => ?_,
    fun hup hv => jog_of_reading ⟨hup, hv⟩, fun hover hjog hq => ?_,
    fun r n hr hm hawait hband hover hjog => ?_, fun hm hl hlive hw hlo hend => ?_,
    fun hm hl hlive hw hlo hwas hout => ?_⟩
  · rw [outer_finish, outer_shareEval, outer_tested, outer_readIn]
  · rw [fault_finish (k := .overload) nofun nofun, fault_shareEval (k := .overload) nofun, fault_tested,
      fault_readIn, if_neg (not_not.mpr rfl)]
    simp [above]
  · obtain ⟨hmode, hslot, hdrive⟩ := halts_of_overload (habove.mp ⟨ha, hb⟩)
    exact ⟨hmode, hslot, fun hs => hdrive ((motionSafe_iff s).mp hs)⟩
  · obtain ⟨hin, hfaults⟩ := inner_tested (hnone hover) hjog
    have hqt : Quiet (tested v.val s) := quiet_of_eq (shareRead_tested (hnone hover)).mode hq
    obtain ⟨hi, -⟩ := inner_shareEval hqt
    unfold OtherFaultsKept
    rw [finish_quiet (quiet_of_eq (congrArg Inner.mode hi) hqt), hi]
    exact ⟨hin, hfaults⟩
  · obtain ⟨hin, hfaults⟩ := inner_tested (hnone hover) hjog
    have hread := shareRead_tested (hnone hover)
    have hnow : outOfBand (shareOf (tested v.val s)) = false := by
      rw [hread.shareOf]
      exact inBand_shareOf hband
    obtain ⟨hi, -, hcol⟩ := inner_shareEval_inBand hnow
    have hrun : (shareEval (tested v.val s)).engine.stroke = .running r n :=
      (congrArg (·.engine.stroke) (hi.trans hin)).trans hr
    have hwait : (shareEval (tested v.val s)).stage.awaitingSet = false :=
      (congrArg (·.stage.awaitingSet) (hi.trans hin)).trans hawait
    unfold OtherFaultsKept
    rw [finish_running hrun (hcol.mode.trans (hread.mode.trans hm)) hwait
      (by rw [hcol.shareRead.shareOf]; exact hnow), hi]
    exact ⟨hin, hfaults⟩
  · intro was out own part
    obtain ⟨hshare, htotals, hfault⟩ := settled_shares (hlow hlo) hm hend
    have hof := shareOf_active (s := withReading v.val s) hl (.inr hm) hlive hw
    have hwas : outOfBand s.loadMon.share = was := by
      simp only [was]
      cases s.loadMon.share <;> rfl
    rw [fault_share_tested (hlow hlo), hwas] at hfault
    refine ⟨htotals, fun ho => ?_, fun hu hno => ?_, fun hno hnu => ?_⟩
    · rw [hof.trans (if_pos ho)] at hshare hfault
      exact ⟨hshare, hfault⟩
    · rw [hof.trans ((if_neg hno).trans (if_pos hu))] at hshare hfault
      exact ⟨hshare, hfault⟩
    · rw [hof.trans ((if_neg hno).trans (if_neg hnu))] at hshare hfault
      exact ⟨hshare, hfault⟩
  · refine moving_leavesBand (hlow hlo) hm (by rcases hwas with h | h <;> rw [h] <;> rfl) ?_
    rw [shareOf_active (s := withReading v.val s) hl (.inl hm) hlive hw]
    split
    · rfl
    · rename_i hno
      exact congrArg outOfBand (if_pos (hout.resolve_left hno))

/-! ## Frames of members at the plan store and mode control (O39, O44, O45) -/

namespace Sys2Proof.Machine

variable {s : State}

/-! ### What a member's frame finds (R13, R17, R49) -/

/-- A frame's reception and its sign of life write the line, the sender's row, two conditions and the notice. -/
theorem heardFrom_eq (s : State) (w : WireFrame) :
    ∃ line faults, heardFrom s w =
      { s with
        line := line, faults := faults, notice := true
        table := s.table.map (mapMarks w.station.toNat (heardMarks s)) } := by
  obtain ⟨line, faults, harrived⟩ := frameArrives_eq w s
  obtain ⟨faults', hheard⟩ := signOfLife_eq w.station.toNat (frameArrives w s)
  exact ⟨line, faults', by unfold heardFrom; rw [hheard, harrived]; rfl⟩

@[simp] theorem plan_heardFrom (s : State) (w : WireFrame) : (heardFrom s w).plan = s.plan := by
  obtain ⟨line, faults, h⟩ := heardFrom_eq s w; rw [h]
@[simp] theorem stage_heardFrom (s : State) (w : WireFrame) : (heardFrom s w).stage = s.stage := by
  obtain ⟨line, faults, h⟩ := heardFrom_eq s w; rw [h]
@[simp] theorem engine_heardFrom (s : State) (w : WireFrame) : (heardFrom s w).engine = s.engine := by
  obtain ⟨line, faults, h⟩ := heardFrom_eq s w; rw [h]
@[simp] theorem pawl_heardFrom (s : State) (w : WireFrame) : (heardFrom s w).pawl = s.pawl := by
  obtain ⟨line, faults, h⟩ := heardFrom_eq s w; rw [h]
@[simp] theorem retained_heardFrom (s : State) (w : WireFrame) : (heardFrom s w).retained = s.retained := by
  obtain ⟨line, faults, h⟩ := heardFrom_eq s w; rw [h]
@[simp] theorem ceiling_heardFrom (s : State) (w : WireFrame) : (heardFrom s w).ceiling = s.ceiling := by
  obtain ⟨line, faults, h⟩ := heardFrom_eq s w; rw [h]
@[simp] theorem spacing_heardFrom (s : State) (w : WireFrame) : (heardFrom s w).spacing = s.spacing := by
  obtain ⟨line, faults, h⟩ := heardFrom_eq s w; rw [h]
@[simp] theorem modeCtl_heardFrom (s : State) (w : WireFrame) : (heardFrom s w).modeCtl = s.modeCtl := by
  obtain ⟨line, faults, h⟩ := heardFrom_eq s w; rw [h]
@[simp] theorem loadMon_heardFrom (s : State) (w : WireFrame) : (heardFrom s w).loadMon = s.loadMon := by
  obtain ⟨line, faults, h⟩ := heardFrom_eq s w; rw [h]
@[simp] theorem settings_heardFrom (s : State) (w : WireFrame) : (heardFrom s w).settings = s.settings := by
  obtain ⟨line, faults, h⟩ := heardFrom_eq s w; rw [h]
@[simp] theorem straps_heardFrom (s : State) (w : WireFrame) : (heardFrom s w).straps = s.straps := by
  obtain ⟨line, faults, h⟩ := heardFrom_eq s w; rw [h]
@[simp] theorem pendant_heardFrom (s : State) (w : WireFrame) : (heardFrom s w).pendant = s.pendant := by
  obtain ⟨line, faults, h⟩ := heardFrom_eq s w; rw [h]
@[simp] theorem notice_heardFrom (s : State) (w : WireFrame) : (heardFrom s w).notice = true := by
  obtain ⟨line, faults, h⟩ := heardFrom_eq s w; rw [h]

/-- A frame's reception leaves the CLAIM slot alone (R13, R118). -/
theorem claim_frameArrives (w : WireFrame) (s : State) : (frameArrives w s).line.claim = s.line.claim := by
  unfold frameArrives
  split
  · rw [line_completeOwn, line_leavePlace]; rfl
  · rfl

theorem claim_heardFrom (s : State) (w : WireFrame) : (heardFrom s w).line.claim = s.line.claim := by
  unfold heardFrom
  rw [line_signOfLife, claim_frameArrives]

/-- A member's frame acts on the state that its sign of life leaves (R17, R49). -/
theorem receive_fromMember {w : WireFrame} {act : Content → State → State} {c : Content}
    {g : State → State} (hc : contentOf w = some c) (hg : act c = deliver w.station.toNat g)
    (hs : HasTable s) (hm : isMember s w.station.toNat = true) :
    receive w act s = .next (finish (g (heardFrom s w))) := by
  have hkept := peersKept_frameArrives w s
  rw [receive_content hc, hg,
    deliver_member (hkept.hasTable hs) ((isMember_of_table hkept.table _).trans hm)]
  rfl

/-- An ORDER of a member reaches mode control (R17, R18). -/
theorem receiveOrder_fromMember {f : RxFrame} {code : Byte} {k : OrderKind} {g : Nat → State → State}
    (hk : orderOfCode code.toNat = some k) (hprec : f.prec = 0) (hpay : f.payload = [])
    (hs : HasTable s) (hm : isMember s f.station.toNat = true) :
    receiveOrder code g f s =
      .next (finish (g f.station.toNat (heardFrom s (wireOrder code f)))) := by
  refine receive_fromMember (w := wireOrder code f) (c := .order k) ?_ rfl hs hm
  have hread : readOrder (wireOrder code f).payload = some k := by
    show readOrder (code :: f.payload) = _
    rw [hpay]
    exact hk
  have hkind : (wireOrder code f).kind = kindOrder := rfl
  unfold contentOf
  rw [hread, hkind, if_neg (show ¬ kindOrder = kindClaim by decide),
    if_neg (show ¬ (wireOrder code f).prec ≠ 0 from not_not.mpr hprec),
    if_neg (show ¬ kindOrder = kindHalt by decide), if_pos rfl]
  rfl

end Sys2Proof.Machine

open Sys2Proof Sys2Proof.Machine in
/-- Settles O44: the plan store acts on the staging bank alone. -/
theorem planLoadClear : Obligations.PlanLoadClear := by
  intro s f low hroll hbar hm
  have hquiet : ∀ (w : WireFrame) (t : State), t.mode = (heardFrom s w).mode →
      t.inner = (heardFrom s w).inner → Quiet s → (finish t).inner = (heardFrom s w).inner :=
    fun w t hmode hinner hq =>
      (finish_quiet (quiet_of_eq (hmode.trans (mode_heardFrom w s)) hq)).trans hinner
  refine ⟨?_, ?_⟩
  · intro target car set hc u entry
    have hexec : exec (.load low f) s = .next (finish (takeLoad entry u)) :=
      receive_fromMember hc rfl ⟨hroll, hbar⟩ hm
    refine ⟨_, hexec, hquiet _ _ ?_ ?_, ?_⟩
    · unfold takeLoad; split <;> rfl
    · unfold takeLoad; split <;> rfl
    · rw [outer_finish]
      have hplan : u.plan = s.plan := plan_heardFrom ..
      unfold takeLoad
      rw [hplan]
      split <;> rfl
  · intro hc u
    have hexec : exec (.clear low f) s = .next (finish (takeClear u)) :=
      receive_fromMember hc rfl ⟨hroll, hbar⟩ hm
    refine ⟨_, hexec, hquiet _ _ rfl rfl, ?_⟩
    have hplan : u.plan = s.plan := plan_heardFrom ..
    rw [outer_finish, ← hplan]
    rfl

/-! ## Settling outside MOVING, in every block (O39, O41, O47, O52)

Outside MOVING the readers of a notice evaluate the share, find rest and leave the ceiling unit IDLE. They move no
column and no pawl, and of mode control and the stage record they take at most SETTLED to IDLE (R58, R86, R162, R173). -/

namespace Sys2Proof.Machine

variable {s t u : State}

/-- A state that has settled without MOVING: at most SETTLED has given way to IDLE. -/
structure SettlesAtRest (s t : State) : Prop where
  mode : t.mode = s.mode ∨ s.mode = .settled ∧ t.mode = .idle
  lastStop : t.modeCtl.lastStop = s.modeCtl.lastStop
  stage : t.stage = s.stage ∨ t.stage = { s.stage with awaitingSet := false }
  engine : t.engine = s.engine
  pawl : t.pawl = s.pawl
  retained : t.retained = s.retained
  claim : t.line.claim = s.line.claim
  pose : s.line.posePending = true → t.line.posePending = true
  watch : t.loadMon.watch = s.loadMon.watch
  nudgeDue : t.ceiling.nudgeDue = s.ceiling.nudgeDue
  release : t.ceiling.release = s.ceiling.release
  withdrawals : t.spacing.withdrawals = s.spacing.withdrawals
  held : t.spacing.held = s.spacing.held
  fault : ∀ k, k ≠ .loadShare → t.fault k = s.fault k

theorem SettlesAtRest.refl (s : State) : SettlesAtRest s s :=
  ⟨.inl rfl, rfl, .inl rfl, rfl, rfl, rfl, rfl, id, rfl, rfl, rfl, rfl, rfl, fun _ _ => rfl⟩

theorem SettlesAtRest.trans (h : SettlesAtRest s t) (k : SettlesAtRest t u) : SettlesAtRest s u where
  mode := by
    rcases h.mode with h | ⟨h, h'⟩ <;> rcases k.mode with k | ⟨k, k'⟩ <;> simp_all
  lastStop := k.lastStop.trans h.lastStop
  stage := by
    rcases h.stage with h | h <;> rcases k.stage with k | k <;> simp_all
  engine := k.engine.trans h.engine
  pawl := k.pawl.trans h.pawl
  retained := k.retained.trans h.retained
  claim := k.claim.trans h.claim
  pose := k.pose ∘ h.pose
  watch := k.watch.trans h.watch
  nudgeDue := k.nudgeDue.trans h.nudgeDue
  release := k.release.trans h.release
  withdrawals := k.withdrawals.trans h.withdrawals
  held := k.held.trans h.held
  fault j hj := (k.fault j hj).trans (h.fault j hj)

theorem SettlesAtRest.mode_ne_moving (h : SettlesAtRest s t) (hm : s.mode ≠ .moving) : t.mode ≠ .moving := by
  rcases h.mode with h | ⟨-, h⟩ <;> rw [h]
  · exact hm
  · exact nofun

/-- A stage record that awaits no SET stands as it is. -/
theorem SettlesAtRest.stage_of_not_awaiting (h : SettlesAtRest s t) (ha : s.stage.awaitingSet = false) :
    t.stage = s.stage := by
  rcases h.stage with h | h
  · exact h
  · rw [h, ← ha]

theorem SettlesAtRest.record (h : SettlesAtRest s t) : t.stage.record = s.stage.record := by
  rcases h.stage with h | h <;> rw [h]

theorem SettlesAtRest.dir (h : SettlesAtRest s t) : t.stage.dir = s.stage.dir := by
  rcases h.stage with h | h <;> rw [h]

/-- The pending mark stands through a POSE request (R12). -/
theorem pose_requestPose (h : s.line.posePending = true) : (requestPose s).line.posePending = true := by
  unfold requestPose
  split
  · exact h
  · split
    · exact h
    · rfl

theorem settlesAtRest_latchAt (p : Place) (n : Option Nat) (s : State) :
    SettlesAtRest s (latchAt p n .loadShare s) := by
  have hpose : s.line.posePending = true → (latchAt p n .loadShare s).line.posePending = true := fun h => by
    unfold latchAt
    simp only []
    split
    · exact h
    · exact pose_requestPose h
  have hfault : ∀ k, k ≠ .loadShare → (latchAt p n .loadShare s).fault k = s.fault k := fun k hk => by
    rw [fault_latchAt, if_neg hk]
  obtain ⟨faults, a, b, notice, h⟩ := latchAt_eq p n .loadShare s
  rw [h] at hpose hfault ⊢
  exact { SettlesAtRest.refl s with pose := hpose, fault := hfault }

theorem settlesAtRest_shareEval (hm : s.mode ≠ .moving) : SettlesAtRest s (shareEval s) := by
  have hw : SettlesAtRest s (writeShare s) :=
    { SettlesAtRest.refl s with }
  have ha : ∀ on, SettlesAtRest s (setActive .loadShare on (writeShare s)) := fun on =>
    { hw with fault := fun k hk => (fault_setActive .loadShare k on _).trans (if_neg hk) }
  unfold shareEval
  simp only []
  split
  · rw [report_resting (s := setActive .loadShare true (writeShare s)) rfl none hm]
    exact (ha true).trans (settlesAtRest_latchAt ..)
  · split
    · exact ha false
    · exact hw

theorem settlesAtRest_restTest (s : State) : SettlesAtRest s (restTest s) := by
  rw [restTest_eq]
  split
  · rename_i h
    have hpose : s.line.posePending = true → (enterIdle s).line.posePending = true :=
      fun hp => pose_requestPose (s := notify { s with
        modeCtl := { s.modeCtl with mode := .idle }
        stage := { s.stage with awaitingSet := false } }) hp
    obtain ⟨a, b, hset⟩ := setMode_eq .idle s
    unfold enterIdle at hpose ⊢
    rw [hset] at hpose ⊢
    exact { SettlesAtRest.refl s with mode := .inr ⟨h.1, rfl⟩, stage := .inr rfl, pose := hpose }
  · exact .refl s

theorem settlesAtRest_ceilingIdle (s : State) : SettlesAtRest s (ceilingIdle s) :=
  { SettlesAtRest.refl s with }

theorem settlesAtRest_readers (hm : s.mode ≠ .moving) : SettlesAtRest s (readers s) := by
  have hs := settlesAtRest_shareEval hm
  have hm₁ := hs.mode_ne_moving hm
  have hr := hs.trans (settlesAtRest_restTest _)
  have hawait : awaitTest (shareEval s) = shareEval s := if_neg fun h => hm₁ h.2.1
  unfold readers evaluate
  rw [hawait, if_neg (hr.mode_ne_moving hm)]
  exact hr.trans (settlesAtRest_ceilingIdle _)

theorem settlesAtRest_settle (n : Nat) (hm : s.mode ≠ .moving) : SettlesAtRest s (settle n s) := by
  induction n generalizing s with
  | zero => exact .refl s
  | succ n ih =>
    rw [settle_succ]
    split
    · have hc : SettlesAtRest s (clearNotice s) := { SettlesAtRest.refl s with }
      have hr := hc.trans (settlesAtRest_readers (s := clearNotice s) hm)
      exact hr.trans (ih (hr.mode_ne_moving hm))
    · exact .refl s

/-- What ends a command after its notices leaves all but the line-busy limit, the lamps shown and the notice
(R15, R191). -/
theorem finish_eq_settled (s : State) :
    ∃ busy shown, finish s =
      { settle settleRounds s with
        line := { (settle settleRounds s).line with busyLimit := busy }
        lamps := { (settle settleRounds s).lamps with shown := shown }
        notice := false } := by
  unfold finish armBusy
  split <;> exact ⟨_, _, rfl⟩

/-- Outside MOVING a command settles with its column at rest (R58, R86, R173). -/
theorem settlesAtRest_finish (hm : s.mode ≠ .moving) : SettlesAtRest s (finish s) := by
  obtain ⟨busy, shown, h⟩ := finish_eq_settled s
  rw [h]
  exact { settlesAtRest_settle settleRounds hm with }

end Sys2Proof.Machine

/-! ## ADOPT (O45) -/

namespace Sys2Proof.Machine

variable {s t u : State}

/-- The stage index is that of the stage record alone (R73). -/
theorem stageIx_of_stage (h : t.stage = s.stage) : t.stageIx = s.stageIx := by
  unfold State.stageIx State.stagedRec
  rw [h]

/-- What ADOPT finds, as the checks of R69 stand in order. -/
theorem adoptCheck_eq (s : State) :
    adoptCheck s =
      if ¬ (s.mode = .unstaged ∨ (s.mode = .idle ∧ s.stageIx = some (.stage 0))) then some .mode
      else if s.plan.staging = [] then some .stagingEmpty
      else if s.plan.overrun = true then some .stagingOverrun
      else none := by
  unfold adoptCheck
  simp only [List.isEmpty_iff]

/-- New content handed over is the content as it stands; a write begins, or a rewrite is owed (R41). -/
theorem retained_handRetained (s : State) :
    (handRetained s).retained.content = retainedNow s ∧
      (s.retained.writing = none →
        (handRetained s).retained.writing = some (retainedNow s) ∧ (handRetained s).retained.marker = false) ∧
      (s.retained.writing ≠ none →
        (handRetained s).retained.writing = s.retained.writing ∧
          (handRetained s).retained.rewriteOwed = true) := by
  cases hw : s.retained.writing <;> simp [handRetained, hw, beginWrite]

/-- Outside ROLLCALL a POSE request leaves a POSE to be sent (R12). -/
theorem pose_of_request (h : s.mode ≠ .rollcall) :
    (requestPose s).line.posePending = true ∨ (requestPose s).line.poseAgain = true := by
  unfold requestPose
  rw [if_neg h]
  split
  · exact .inr rfl
  · exact .inl rfl

/-- The plan store with its staging bank made active (R70, R72). -/
def adopted (s : State) : State :=
  { s with plan := { s.plan with active := s.plan.staging, tag := planTag s.plan.staging } }

theorem takeAdopt_refused {why : Reason} (h : adoptCheck s = some why) (n : Nat) :
    takeAdopt n s = refuse .adopt why n s := by
  unfold takeAdopt; rw [h]

theorem takeAdopt_passed (h : adoptCheck s = none) (n : Nat) :
    takeAdopt n s = requestPose (handRetained (notify (adopted s))) := by
  unfold takeAdopt; rw [h]; rfl

/-- An ADOPT that passes its checks writes the plan, settings memory and the POSE marks (R41, R70). -/
theorem inner_adopted (s : State) :
    (requestPose (handRetained (notify (adopted s)))).inner =
      { s.inner with
        retained := (handRetained (notify (adopted s))).retained
        posePending := (requestPose (handRetained (notify (adopted s)))).line.posePending
        poseAgain := (requestPose (handRetained (notify (adopted s)))).line.poseAgain } := by
  obtain ⟨r, hr⟩ := handRetained_eq (notify (adopted s))
  obtain ⟨a, b, hp⟩ := requestPose_eq (handRetained (notify (adopted s)))
  rw [hp, hr]
  rfl

end Sys2Proof.Machine

open Sys2Proof Sys2Proof.Machine in
/-- Settles O45: the checks of R69 in order, and past them the copy of the staging bank. -/
theorem adoptCopiesStaging : Obligations.AdoptCopiesStaging := by
  intro s f low hroll hbar hm hc u rightMode refusal value
  have hexec : exec (.adopt low f) s = .next (finish (takeAdopt f.station.toNat u)) :=
    receive_fromMember hc rfl ⟨hroll, hbar⟩ hm
  have hmode : u.mode = s.mode := mode_heardFrom ..
  have hplan : u.plan = s.plan := plan_heardFrom ..
  have hstage : u.stage = s.stage := stage_heardFrom ..
  have hcheck := adoptCheck_eq u
  rw [hmode, stageIx_of_stage hstage, hplan] at hcheck
  have hrefused : ∀ why, adoptCheck u = some why →
      refusal why (finish (takeAdopt f.station.toNat u)) := by
    intro why hwhy
    rw [takeAdopt_refused hwhy]
    refine ⟨?_, fun hq => finish_quiet (quiet_of_eq hmode hq)⟩
    rw [outer_finish]
    have htime : u.timeBase = s.timeBase := timeBase_heardFrom ..
    rw [← htime]
    rfl
  refine ⟨_, hexec, fun h => hrefused _ ?_, fun h he => hrefused _ ?_, fun h hne ho => hrefused _ ?_, ?_⟩
  · rw [hcheck, if_pos h]
  · rw [hcheck, if_neg (not_not.mpr h), if_pos he]
  · rw [hcheck, if_neg (not_not.mpr h), if_neg hne, if_pos ho]
  intro h hne ho
  have hpass : adoptCheck u = none := by
    rw [hcheck, if_neg (not_not.mpr h), if_neg hne, if_neg (by rw [ho]; exact nofun)]
  have hq : Quiet s := by
    rcases h with h | ⟨h, -⟩ <;> exact ⟨by rw [h]; exact nofun, by rw [h]; exact nofun⟩
  rw [takeAdopt_passed hpass]
  have hinner := (finish_quiet (quiet_of_eq (s := s) (t := requestPose (handRetained (notify (adopted u))))
    (by rw [mode_requestPose, mode_handRetained]; exact hmode) hq)).trans (inner_adopted u)
  obtain ⟨hcontent, hidle, hbusy⟩ := retained_handRetained (notify (adopted u))
  have hwas : u.retained = s.retained := retained_heardFrom ..
  have hnow : (finish (requestPose (handRetained (notify (adopted u))))).retained =
      (handRetained (notify (adopted u))).retained := congrArg Inner.retained hinner
  have hpose := pose_of_request (s := handRetained (notify (adopted u)))
    (by rw [mode_handRetained]; exact fun h' => hroll (hmode.symm.trans h'))
  rw [hnow, hcontent]
  refine ⟨?_, ?_, fun hw => hidle ?_, fun hw => ?_, ?_, ?_, ?_, (congrArg Inner.faults hinner :)⟩
  · rw [outer_finish, outer_requestPose, outer_handRetained, ← hplan]
    rfl
  · unfold retainedNow
    simp only [notify, adopted, hstage, hplan]
  · exact (congrArg Retained.writing hwas).trans hw
  · obtain ⟨hwriting, howed⟩ := hbusy fun h' => hw ((congrArg Retained.writing hwas).symm.trans h')
    exact ⟨hwriting.trans (congrArg Retained.writing hwas), howed⟩
  · rwa [show (finish _).line.posePending = _ from congrArg Inner.posePending hinner,
      show (finish _).line.poseAgain = _ from congrArg Inner.poseAgain hinner]
  · exact (congrArg Inner.mode hinner).trans hmode
  · exact (congrArg Inner.stage hinner).trans hstage

/-! ## What a report and a set command make of the pawl and the stroke (O39, O47, O52) -/

namespace Sys2Proof.Machine

variable {s t u : State}

/-! ### Withdrawals, ends of strokes and requests leave the pawl and the jog alone -/

@[simp] theorem pawl_requestPose (s : State) : (requestPose s).pawl = s.pawl := by
  obtain ⟨a, b, h⟩ := requestPose_eq s; rw [h]
@[simp] theorem engine_requestPose (s : State) : (requestPose s).engine = s.engine := by
  obtain ⟨a, b, h⟩ := requestPose_eq s; rw [h]
@[simp] theorem pendant_requestPose (s : State) : (requestPose s).pendant = s.pendant := by
  obtain ⟨a, b, h⟩ := requestPose_eq s; rw [h]

theorem engine_stopRun (d : Direction) (s : State) :
    (stopRun d s).engine =
      { s.engine with
        stroke := .rest, limit := none, restRef := s.engine.travel, lastDir := d
        lastEnd := Stamp.written s.timeBase, dwell := armed s.timeBase (10 * s.cfg.trev)
        drive := driveOf s.engine.source .rest s.engine.jog } := engine_requestPose _
@[simp] theorem pawl_stopRun (d : Direction) (s : State) : (stopRun d s).pawl = s.pawl := pawl_requestPose _

theorem pawl_causeOfWithdrawal (s : State) : (causeOfWithdrawal s).pawl = s.pawl := by
  unfold causeOfWithdrawal requestWithdrawal
  split
  · split <;> rfl
  · rfl

theorem jog_causeOfWithdrawal (s : State) : (causeOfWithdrawal s).engine.jog = s.engine.jog := by
  unfold causeOfWithdrawal requestWithdrawal
  split
  · split <;> rfl
  · rfl

/-- With no claim in CLAIMING a cause of withdrawal does nothing (R112). -/
theorem causeOfWithdrawal_of_not_claiming (h : s.claiming = false) : causeOfWithdrawal s = s := by
  unfold causeOfWithdrawal
  rw [h]
  rfl

theorem pawl_cutStroke (s : State) : (cutStroke s).pawl = s.pawl := by
  unfold cutStroke
  split
  · split
    · exact pawl_stopRun _ _
    · rfl
  · rfl

theorem jog_cutStroke (s : State) : (cutStroke s).engine.jog = s.engine.jog := by
  unfold cutStroke
  split
  · split
    · rw [engine_stopRun]
    · rfl
  · rfl

/-- Only a lowering stroke is cut (R133). -/
theorem cutStroke_of_not_lowers (h : runLowers s.engine.stroke = false) : cutStroke s = s := by
  unfold cutStroke
  split
  · rename_i r n hr
    rw [hr] at h
    rw [if_neg (by simpa [runLowers] using h)]
  · rfl

/-- A lowering stroke that is cut leaves the engine at REST (R129, R133). -/
theorem stroke_cutStroke_lowers (h : runLowers s.engine.stroke = true) :
    (cutStroke s).engine.stroke = .rest := by
  unfold cutStroke
  split
  · rename_i r n hr
    rw [hr] at h
    rw [if_pos (by simpa [runLowers] using h)]
    rw [engine_stopRun]
  · rename_i hr
    exfalso
    unfold runLowers at h
    split at h
    · exact hr _ _ ‹_›
    · cases h

/-! ### Reports (R139, R147) -/

/-- What the stroke engine's part of a report makes of the pawl: a jog in DOWN ends with a set command (R139). -/
theorem pawl_engineOnPawl (p : PawlState) (s : State) :
    (engineOnPawl p s).pawl =
      if p ≠ .withdrawn ∧ s.engine.jog = .down then
        { s.pawl with commanded := .set, pendingWithdraw := false }
      else s.pawl := by
  unfold engineOnPawl
  by_cases hp : p = .withdrawn
  · rw [if_pos hp, if_neg (show ¬ (p ≠ .withdrawn ∧ s.engine.jog = .down) from fun h => h.1 hp)]
    split <;> rfl
  · simp only [if_neg hp, jog_cutStroke]
    by_cases hj : s.engine.jog = .down
    · rw [if_pos hj, if_pos ⟨hp, hj⟩, pawl_dropJog, pawl_cutStroke]
    · rw [if_neg hj, if_neg fun h => hj h.2, pawl_cutStroke]

theorem pawl_reportPawl (p : PawlState) (s : State) :
    (reportPawl p s).pawl =
      if p ≠ .withdrawn ∧ s.engine.jog = .down then
        { s.pawl with state := p, commanded := .set, pendingWithdraw := false }
      else { s.pawl with state := p } := by
  have hengine : (reportPawl p s).pawl = (engineOnPawl p (causeOfWithdrawal (requestPose (notify
      { s with pawl := { s.pawl with state := p } })))).pawl := by
    unfold reportPawl
    simp only []
    split <;> rfl
  rw [hengine, pawl_engineOnPawl, jog_causeOfWithdrawal, pawl_causeOfWithdrawal, engine_requestPose,
    pawl_requestPose]
  rfl

/-- No report makes a claim, nor a stroke that runs (R147). -/
theorem stroke_engineOnPawl (p : PawlState) (h : runLowers s.engine.stroke = false) :
    (engineOnPawl p s).engine.stroke = s.engine.stroke := by
  unfold engineOnPawl
  rw [cutStroke_of_not_lowers h]
  split
  · split <;> rfl
  · simp only []
    split <;> rfl

theorem stroke_reportPawl (p : PawlState) (hc : s.claiming = false) (hl : runLowers s.engine.stroke = false) :
    (reportPawl p s).engine.stroke = s.engine.stroke := by
  have hpose : (requestPose (notify { s with pawl := { s.pawl with state := p } })).engine = s.engine :=
    engine_requestPose _
  have hcause : causeOfWithdrawal (requestPose (notify { s with pawl := { s.pawl with state := p } })) =
      requestPose (notify { s with pawl := { s.pawl with state := p } }) :=
    causeOfWithdrawal_of_not_claiming (by rw [claiming_eq, hpose, ← claiming_eq]; exact hc)
  have hstroke := stroke_engineOnPawl p
    (s := requestPose (notify { s with pawl := { s.pawl with state := p } })) (by rw [hpose]; exact hl)
  unfold reportPawl
  simp only [hcause]
  rw [hpose] at hstroke
  split <;> exact hstroke

/-- A lowering stroke ends at any report but WITHDRAWN (R133). -/
theorem stroke_reportPawl_lowers {p : PawlState} (hp : p ≠ .withdrawn)
    (hl : runLowers s.engine.stroke = true) : (reportPawl p s).engine.stroke = .rest := by
  have hpose : (requestPose (notify { s with pawl := { s.pawl with state := p } })).engine = s.engine :=
    engine_requestPose _
  have hnot : s.claiming = false := by
    rw [claiming_eq]
    cases h : s.engine.stroke with
    | rest => rfl
    | running => rfl
    | claiming => rw [h] at hl; cases hl
  have hcause : causeOfWithdrawal (requestPose (notify { s with pawl := { s.pawl with state := p } })) =
      requestPose (notify { s with pawl := { s.pawl with state := p } }) :=
    causeOfWithdrawal_of_not_claiming (by rw [claiming_eq, hpose, ← claiming_eq]; exact hnot)
  have hcut := stroke_cutStroke_lowers
    (s := requestPose (notify { s with pawl := { s.pawl with state := p } })) (by rw [hpose]; exact hl)
  unfold reportPawl engineOnPawl
  simp only [hcause, if_neg hp]
  split <;> exact hcut

/-! ### Set commands (R144) -/

/-- The state in which a pawl off SET has begun to set (R144, R146). -/
def beginsSetting (s : State) : State :=
  reportPawl .setting (armPawlLimit (commandPawl .set { s with pawl := { s.pawl with pendingWithdraw := false } }))

/-- What a set command does, by the state of the pawl (R144). -/
theorem pawlSet_cases (s : State) :
    pawlSet s =
      match s.pawl.state with
      | .set | .setting => { s with pawl := { s.pawl with pendingWithdraw := false } }
      | .withdrawing =>
        if (beginsSetting s).pawl.setClosed = true then reportPawl .set (disarmPawlLimit (beginsSetting s))
        else beginsSetting s
      | .withdrawn => beginsSetting s
      | .stuck => commandPawl .set { s with pawl := { s.pawl with pendingWithdraw := false } } := rfl

/-- The state that a set command to a pawl off SET goes to, and what it leaves of the pawl (R144, R146). -/
theorem pawl_pawlSet_withdrawn (h : s.pawl.state = .withdrawn) :
    (pawlSet s).pawl =
      { s.pawl with
        state := .setting, commanded := .set, pendingWithdraw := false
        limit := armed s.timeBase (10 * s.cfg.tpw) } := by
  rw [pawlSet_cases, h]
  simp only []
  unfold beginsSetting
  rw [pawl_reportPawl]
  split <;> rfl

/-- A raising stroke runs on through a set command (R144). -/
theorem stroke_pawlSet (hc : s.claiming = false) (hl : runLowers s.engine.stroke = false) :
    (pawlSet s).engine.stroke = s.engine.stroke := by
  have hset : (beginsSetting s).engine.stroke = s.engine.stroke := stroke_reportPawl .setting hc hl
  have hreach : ∀ t : State, t.engine.stroke = s.engine.stroke →
      (reportPawl .set (disarmPawlLimit t)).engine.stroke = s.engine.stroke := fun t ht =>
    (stroke_reportPawl (s := disarmPawlLimit t) .set
      (by rw [claiming_eq] at hc ⊢; exact (congrArg isClaiming ht).trans hc)
      ((congrArg runLowers ht).trans hl)).trans ht
  rw [pawlSet_cases]
  split
  · rfl
  · rfl
  · split
    · exact hreach _ hset
    · exact hset
  · exact hset
  · rfl

theorem stroke_pawlSet_lowers (hp : s.pawl.state = .withdrawn) (hl : runLowers s.engine.stroke = true) :
    (pawlSet s).engine.stroke = .rest := by
  rw [pawlSet_cases, hp]
  exact stroke_reportPawl_lowers nofun hl

end Sys2Proof.Machine

/-! ## Steps that only wind a stroke and a claim down (O31, O39, O47, O52, O54)

What stops motion, enters a mode, reports a fault or settles runs no stroke; while the gap is not passed it queues no
claim either. What an end of a stroke wrote therefore stands to the end of the command. -/

namespace Sys2Proof.Machine

variable {g : Prop} {s t u : State}

/-- No stroke runs, and the record of the last one stands (R129): at most a jog's end has moved the rest reference to
the present travel (R140). The engine and the contact watch are given before and after. -/
structure StrokeOver (e : Engine) (watch : Bool) (e' : Engine) (watch' : Bool) : Prop where
  stroke : isRunning e'.stroke = false
  limit : e'.limit = e.limit
  lastDir : e'.lastDir = e.lastDir
  lastEnd : e'.lastEnd = e.lastEnd
  dwell : e'.dwell = e.dwell
  restRef : e'.restRef = e.restRef ∨ e'.restRef = e.travel
  watch : watch' = watch

/-- A step that runs no stroke, begins no jog and makes no nudge due; where `g` holds it queues no claim, and leaves a
slot that no claim in CLAIMING goes with as it stands (R107, R114). -/
structure Winding (g : Prop) (s t : State) : Prop where
  outer : t.outer = s.outer
  run : isRunning s.engine.stroke = false → StrokeOver s.engine s.loadMon.watch t.engine t.loadMon.watch
  jog : s.engine.jog = .none → t.engine.jog = .none
  pose : s.line.posePending = true → t.line.posePending = true
  nudge : s.ceiling.nudgeDue = false → t.ceiling.nudgeDue = false
  claim : g → s.claiming = false →
    t.claiming = false ∧ t.line.claim = s.line.claim ∧ t.spacing.withdrawals = s.spacing.withdrawals ∧
      t.spacing.held = s.spacing.held
  engine : g → s.engine.stroke = .rest → s.engine.jog = .none → t.engine = s.engine

/-- Such a step that leaves a pawl in SETTING on its way. -/
structure WindsDown (g : Prop) (s t : State) : Prop extends Winding g s t where
  setting : s.pawl.state = .setting → t.pawl.state = .setting ∧ t.pawl.commanded = s.pawl.commanded

theorem StrokeOver.trans {e e' e'' : Engine} {w w' w'' : Bool} (h : StrokeOver e w e' w')
    (k : StrokeOver e' w' e'' w'') (ht : e'.travel = e.travel) : StrokeOver e w e'' w'' where
  stroke := k.stroke
  limit := k.limit.trans h.limit
  lastDir := k.lastDir.trans h.lastDir
  lastEnd := k.lastEnd.trans h.lastEnd
  dwell := k.dwell.trans h.dwell
  restRef := by
    rcases k.restRef with k | k
    · rw [k]; exact h.restRef
    · exact .inr (k.trans ht)
  watch := k.watch.trans h.watch

theorem travel_of_outer (h : t.outer = s.outer) : t.engine.travel = s.engine.travel := congrArg Outer.travel h

theorem Winding.refl (g : Prop) (s : State) : Winding g s s :=
  ⟨rfl, fun h => ⟨h, rfl, rfl, rfl, rfl, .inl rfl, rfl⟩, id, id, id, fun _ h => ⟨h, rfl, rfl, rfl⟩, fun _ _ _ => rfl⟩

theorem Winding.trans (h : Winding g s t) (k : Winding g t u) : Winding g s u where
  outer := k.outer.trans h.outer
  run hr := (h.run hr).trans (k.run (h.run hr).stroke) (travel_of_outer h.outer)
  jog := k.jog ∘ h.jog
  pose := k.pose ∘ h.pose
  nudge := k.nudge ∘ h.nudge
  claim hg hc := by
    obtain ⟨hclaiming, hslot, hcount, hheld⟩ := h.claim hg hc
    obtain ⟨kclaiming, kslot, kcount, kheld⟩ := k.claim hg hclaiming
    exact ⟨kclaiming, kslot.trans hslot, kcount.trans hcount, kheld.trans hheld⟩
  engine hg hr hj := by
    have he := h.engine hg hr hj
    exact (k.engine hg (by rw [he]; exact hr) (by rw [he]; exact hj)).trans he

theorem WindsDown.refl (g : Prop) (s : State) : WindsDown g s s := ⟨.refl g s, fun h => ⟨h, rfl⟩⟩

theorem WindsDown.trans (h : WindsDown g s t) (k : WindsDown g t u) : WindsDown g s u :=
  ⟨h.toWinding.trans k.toWinding, fun hs =>
    have ht := h.setting hs
    have hu := k.setting ht.1
    ⟨hu.1, hu.2.trans ht.2⟩⟩

/-- With no stroke and no claim the stroke engine is at REST. -/
theorem rest_of_idle (hr : isRunning s.engine.stroke = false) (hc : s.claiming = false) : s.engine.stroke = .rest := by
  rw [claiming_eq] at hc
  cases h : s.engine.stroke with
  | rest => rfl
  | claiming => rw [h] at hc; cases hc
  | running => rw [h] at hr; cases hr

/-! ### Requests and flags -/

theorem windsDown_notify (g : Prop) (s : State) : WindsDown g s (notify s) := { WindsDown.refl g s with }

theorem windsDown_requestPose (g : Prop) (s : State) : WindsDown g s (requestPose s) := by
  have hpose := pose_requestPose (s := s)
  obtain ⟨a, b, h⟩ := requestPose_eq s
  rw [h] at hpose ⊢
  exact { WindsDown.refl g s with pose := hpose }

theorem windsDown_setActive (g : Prop) (k : FaultKind) (on : Bool) (s : State) : WindsDown g s (setActive k on s) :=
  { WindsDown.refl g s with }

theorem windsDown_latchAt (g : Prop) (p : Place) (n : Option Nat) (k : FaultKind) (s : State) :
    WindsDown g s (latchAt p n k s) := by
  have hset : ∀ r, WindsDown g s (setFault k r s) := fun r => { WindsDown.refl g s with }
  unfold latchAt
  simp only []
  split
  · exact hset _
  · exact ((hset _).trans (windsDown_notify g _)).trans (windsDown_requestPose g _)

/-! ### Withdrawals and ends of strokes -/

theorem windsDown_withdrawNow (g : Prop) (h : s.claiming = true) : WindsDown g s (withdrawNow s) where
  outer := rfl
  run _ := ⟨rfl, rfl, rfl, rfl, rfl, .inl rfl, rfl⟩
  jog := id
  pose := id
  nudge := id
  claim _ hc := by rw [h] at hc; cases hc
  engine _ hr _ := by rw [claiming_eq, hr] at h; cases h
  setting hs := ⟨hs, rfl⟩

theorem windsDown_requestWithdrawal (g : Prop) (h : s.claiming = true) : WindsDown g s (requestWithdrawal s) := by
  have hheld : ∀ line held, WindsDown g s
      { s with line := { s.line with claim := line }, spacing := { s.spacing with held := held } } := fun line held =>
    { WindsDown.refl g s with claim := fun _ hc => by rw [h] at hc; cases hc }
  unfold requestWithdrawal
  split
  · exact .refl g s
  · exact windsDown_withdrawNow g h
  · exact { hheld _ s.spacing.held with }
  · exact { hheld s.line.claim true with }

theorem windsDown_causeOfWithdrawal (g : Prop) (s : State) : WindsDown g s (causeOfWithdrawal s) := by
  unfold causeOfWithdrawal
  split
  · exact windsDown_requestWithdrawal g ‹_›
  · exact .refl g s

theorem windsDown_stopRun (g : Prop) (d : Direction) (h : isRunning s.engine.stroke = true) :
    WindsDown g s (stopRun d s) := by
  refine WindsDown.trans (t := notify { s with
    engine :=
      { s.engine with
        stroke := .rest, limit := none, restRef := s.engine.travel, lastDir := d
        lastEnd := Stamp.written s.timeBase, dwell := armed s.timeBase (10 * s.cfg.trev)
        drive := driveOf s.engine.source .rest s.engine.jog }
    loadMon := { s.loadMon with watch := false } }) ?_ (windsDown_requestPose g _)
  exact
    { WindsDown.refl g s with
      outer := rfl
      run := fun hr => by rw [h] at hr; cases hr
      claim := fun _ _ => ⟨rfl, rfl, rfl, rfl⟩
      engine := fun _ hr _ => by rw [hr] at h; cases h }

theorem windsDown_abortStroke (g : Prop) (s : State) : WindsDown g s (abortStroke s) := by
  unfold abortStroke
  split
  · rename_i hr
    exact windsDown_stopRun g _ (by rw [hr]; rfl)
  · exact .refl g s

theorem windsDown_cutStroke (g : Prop) (s : State) : WindsDown g s (cutStroke s) := by
  unfold cutStroke
  split
  · rename_i hr
    split
    · exact windsDown_stopRun g _ (by rw [hr]; rfl)
    · exact .refl g s
  · exact .refl g s

theorem windsDown_shortStop (g : Prop) (s : State) : WindsDown g s (shortStop s) := by
  unfold shortStop
  split
  · rename_i r n hr
    refine WindsDown.trans (t := notify { s with engine := { s.engine with stroke := .running _ _ } }) ?_
      (windsDown_requestPose g _)
    exact
      { WindsDown.refl g s with
        run := fun h => by rw [hr] at h; cases h
        claim := fun _ _ => ⟨rfl, rfl, rfl, rfl⟩
        engine := fun _ h _ => by rw [hr] at h; cases h }
  · exact .refl g s

theorem windsDown_dropJog (g : Prop) (h : s.engine.jog ≠ .none) : WindsDown g s (dropJog s) :=
  { WindsDown.refl g s with
    run := fun hr => ⟨hr, rfl, rfl, rfl, rfl, .inr rfl, rfl⟩
    jog := fun _ => rfl
    engine := fun _ _ hj => absurd hj h }

/-! ### The pawl -/

theorem winding_setPawl (g : Prop) (w : Pawl) (h : w.setClosed = s.pawl.setClosed)
    (h' : w.withdrawnClosed = s.pawl.withdrawnClosed) : Winding g s { s with pawl := w } :=
  { Winding.refl g s with
    outer := by unfold State.outer; rw [h, h'] }

theorem winding_engineOnPawl (g : Prop) (p : PawlState) (s : State) : Winding g s (engineOnPawl p s) := by
  unfold engineOnPawl
  split
  · split
    · rename_i hj
      exact
        { Winding.refl g s with
          run := fun hr => ⟨hr, rfl, rfl, rfl, rfl, .inl rfl, rfl⟩
          jog := fun h => by rw [h] at hj; cases hj.1
          engine := fun _ _ h => by rw [h] at hj; cases hj.1 }
    · exact .refl g s
  · have hcut := (windsDown_cutStroke g s).toWinding
    simp only []
    split
    · rename_i hj
      refine (hcut.trans (winding_setPawl g _ ?_ ?_)).trans (windsDown_dropJog g ?_).toWinding
      · rfl
      · rfl
      · exact fun h => by rw [show (cutStroke s).engine.jog = .none from h] at hj; cases hj
    · exact hcut

theorem winding_reportPawl (g : Prop) (p : PawlState) (s : State) : Winding g s (reportPawl p s) := by
  have h := (((winding_setPawl g (s := s) { s.pawl with state := p } rfl rfl).trans
    (windsDown_notify g _).toWinding).trans (windsDown_requestPose g _).toWinding).trans
    (windsDown_causeOfWithdrawal g _).toWinding
  have h' := h.trans (winding_engineOnPawl g p _)
  unfold reportPawl
  simp only []
  split
  · exact { h' with nudge := fun _ => rfl }
  · exact h'

theorem winding_beginsSetting (g : Prop) (s : State) : Winding g s (beginsSetting s) :=
  (winding_setPawl g
    { s.pawl with
      pendingWithdraw := false, commanded := .set, limit := armed s.timeBase (10 * s.cfg.tpw) } rfl rfl).trans
    (winding_reportPawl g .setting _)

theorem windsDown_pawlSet (g : Prop) (s : State) : WindsDown g s (pawlSet s) := by
  have hpending : WindsDown g s { s with pawl := { s.pawl with pendingWithdraw := false } } :=
    { WindsDown.refl g s with }
  have hset := winding_beginsSetting g s
  have hreach : ∀ t : State, Winding g s t → Winding g s (reportPawl .set (disarmPawlLimit t)) := fun t ht =>
    (ht.trans (winding_setPawl g { t.pawl with limit := none } rfl rfl)).trans (winding_reportPawl g .set _)
  rw [pawlSet_cases]
  split
  · exact hpending
  · exact hpending
  · rename_i hp
    split
    · exact ⟨hreach _ hset, fun h => by rw [hp] at h; cases h⟩
    · exact ⟨hset, fun h => by rw [hp] at h; cases h⟩
  · rename_i hp
    exact ⟨hset, fun h => by rw [hp] at h; cases h⟩
  · rename_i hp
    exact ⟨winding_setPawl g { s.pawl with pendingWithdraw := false, commanded := .set } rfl rfl,
      fun h => by rw [hp] at h; cases h⟩

theorem windsDown_pawlWithdraw (g : Prop) (s : State) : WindsDown g s (pawlWithdraw s) := by
  unfold pawlWithdraw
  split
  · split
    · rename_i hp
      exact
        ⟨(winding_setPawl g
            { s.pawl with commanded := .withdrawn, limit := armed s.timeBase (10 * s.cfg.tpw) } rfl rfl).trans
            (winding_reportPawl g .withdrawing _),
          fun h => by rw [hp] at h; cases h⟩
    · exact { WindsDown.refl g s with }
    · exact .refl g s
  · exact .refl g s

theorem windsDown_endJog (g : Prop) (s : State) : WindsDown g s (endJog s) := by
  unfold endJog
  split
  · exact .refl g s
  · rename_i hj
    split
    · exact (windsDown_dropJog g hj).trans (windsDown_pawlSet g _)
    · exact windsDown_dropJog g hj

/-! ### Mode entries (R166) -/

theorem windsDown_handRetained (g : Prop) (s : State) : WindsDown g s (handRetained s) := by
  obtain ⟨r, h⟩ := handRetained_eq s
  rw [h]
  exact { WindsDown.refl g s with }

theorem windsDown_ceilingIdle (g : Prop) (s : State) : WindsDown g s (ceilingIdle s) := { WindsDown.refl g s with }

theorem windsDown_setMode (g : Prop) (m : Mode) (s : State) : WindsDown g s (setMode m s) := by
  refine WindsDown.trans (t := notify { s with
    modeCtl := { s.modeCtl with mode := m }
    stage := { s.stage with awaitingSet := false } }) ?_ (windsDown_requestPose g _)
  exact { WindsDown.refl g s with }

theorem windsDown_recordStop (g : Prop) (m : Mode) (o : StopOrigin) (k : Option FaultKind) (n : Option Nat)
    (s : State) : WindsDown g s (recordStop m o k n s) := { WindsDown.refl g s with }

theorem windsDown_enterUnstaged (g : Prop) (s : State) : WindsDown g s (enterUnstaged s) := by
  have hm := windsDown_setMode g .unstaged s
  have tail : ∀ t : State, WindsDown g s t → WindsDown g s (pawlSet (ceilingIdle
      { t with ceiling := { t.ceiling with nudgeDue := false, release := false } })) := fun t ht =>
    have hc : WindsDown g t { t with ceiling := { t.ceiling with nudgeDue := false, release := false } } :=
      { WindsDown.refl g t with nudge := fun _ => rfl }
    ((ht.trans hc).trans (windsDown_ceilingIdle g _)).trans (windsDown_pawlSet g _)
  unfold enterUnstaged
  simp only []
  split
  · exact tail _ hm
  · refine tail _ ((hm.trans ?_).trans (windsDown_handRetained g _))
    exact { WindsDown.refl g _ with }

theorem windsDown_enterSettled (g : Prop) (s : State) : WindsDown g s (enterSettled s) :=
  ((windsDown_setMode g .settled s).trans (windsDown_ceilingIdle g _)).trans (windsDown_pawlSet g _)

theorem windsDown_enterIdle (g : Prop) (s : State) : WindsDown g s (enterIdle s) := windsDown_setMode g .idle s

theorem windsDown_enterHold (g : Prop) (s : State) : WindsDown g s (enterHold s) :=
  ((((windsDown_setMode g .hold s).trans (windsDown_shortStop g _)).trans
    (windsDown_causeOfWithdrawal g _)).trans (windsDown_ceilingIdle g _)).trans (windsDown_pawlSet g _)

theorem windsDown_enterHalted (g : Prop) (s : State) : WindsDown g s (enterHalted s) :=
  (((((windsDown_setMode g .halted s).trans (windsDown_endJog g _)).trans (windsDown_abortStroke g _)).trans
    (windsDown_causeOfWithdrawal g _)).trans (windsDown_ceilingIdle g _)).trans (windsDown_pawlSet g _)

/-! ### Occurrences and arrivals (R82, R84, R167, R175) -/

theorem windsDown_placeHalt (g : Prop) (k : FaultKind) (s : State) : WindsDown g s (placeHalt k s) := by
  unfold placeHalt
  split
  · exact .refl g s
  · split
    · exact .refl g s
    · exact { WindsDown.refl g s with }

theorem windsDown_modeOnFault (g : Prop) (k : FaultKind) (s : State) : WindsDown g s (modeOnFault k s) := by
  unfold modeOnFault
  split
  · split
    · exact windsDown_placeHalt g k s
    · exact windsDown_placeHalt g k s
    · exact windsDown_placeHalt g k s
    · exact ((windsDown_enterHalted g s).trans (windsDown_recordStop g _ _ _ _ _)).trans
        (windsDown_placeHalt g k _)
  · split
    · exact (windsDown_enterHold g s).trans (windsDown_recordStop g _ _ _ _ _)
    · exact .refl g s

theorem windsDown_report (g : Prop) (k : FaultKind) (n : Option Nat) (s : State) : WindsDown g s (report k n s) :=
  (windsDown_latchAt g (placeNow s) n k s).trans (windsDown_modeOnFault g k _)

theorem windsDown_endStaging (g : Prop) (s : State) : WindsDown g s (endStaging s) := by
  refine WindsDown.trans (t := notify { s with stage := ⟨.unstaged, .none, false⟩ }) ?_
    ((windsDown_handRetained g _).trans (windsDown_enterUnstaged g _))
  exact { WindsDown.refl g s with }

theorem windsDown_handOverArrival (g : Prop) (s : State) : WindsDown g s (handOverArrival s) := by
  unfold handOverArrival
  split
  · exact windsDown_endStaging g s
  · exact windsDown_enterSettled g s
  · exact .refl g s

theorem windsDown_arrive (g : Prop) (s : State) : WindsDown g s (arrive s) := by
  have hwait : WindsDown g s { s with stage := { s.stage with awaitingSet := true } } := { WindsDown.refl g s with }
  unfold arrive
  split
  · exact windsDown_handOverArrival g s
  · simp only []
    split
    · exact hwait
    · exact hwait.trans (windsDown_pawlSet g _)

theorem windsDown_markLimitReported (g : Prop) (s : State) : WindsDown g s (markLimitReported s) := by
  unfold markLimitReported
  split
  · exact { WindsDown.refl g s with }
  · exact .refl g s

theorem windsDown_arrivalTest (g : Prop) (s : State) : WindsDown g s (arrivalTest s) := by
  unfold arrivalTest
  split
  · split
    · simp only []
      split
      · split
        · exact (windsDown_markLimitReported g s).trans (windsDown_report g _ _ _)
        · exact windsDown_arrive g s
      · split
        · exact .refl g s
        · exact windsDown_report g _ _ s
    · exact .refl g s
  · exact .refl g s

theorem windsDown_shareEval (g : Prop) (s : State) : WindsDown g s (shareEval s) := by
  have hw : WindsDown g s (writeShare s) := { WindsDown.refl g s with }
  unfold shareEval
  simp only []
  split
  · exact (hw.trans (windsDown_setActive g _ _ _)).trans (windsDown_report g _ _ _)
  · split
    · exact hw.trans (windsDown_setActive g _ _ _)
    · exact hw

/-! ### The ceiling unit (R86, R109 to R111) -/

theorem gapPassed_of_outer (h : t.outer = s.outer) : gapPassed t = gapPassed s := by
  have hf : t.spacing.feederStamp = s.spacing.feederStamp := congrArg Outer.feederStamp h
  have hl : t.spacing.lineStamp = s.spacing.lineStamp := congrArg Outer.lineStamp h
  have hc : t.settings = s.settings := congrArg Outer.settings h
  have hn : t.timeBase = s.timeBase := congrArg Outer.timeBase h
  unfold gapPassed State.cfg
  rw [hf, hl, hc, hn]

section
variable (hg : g → gapPassed s = false)
include hg

theorem windsDown_tryQueue : WindsDown g s (tryQueue s) := by
  unfold tryQueue
  split
  · exact .refl g s
  · split
    · rename_i hq
      split
      · rename_i hpass
        have hno : ¬ g := fun h => by rw [hg h] at hpass; cases hpass
        exact
          { WindsDown.refl g s with
            run := fun _ => ⟨rfl, rfl, rfl, rfl, rfl, .inl rfl, rfl⟩
            claim := fun h => absurd h hno
            engine := fun h => absurd h hno }
      · exact { WindsDown.refl g s with }
    · exact .refl g s

theorem windsDown_giveOffer (r : Stroke) : WindsDown g s (giveOffer r s) := by
  have hset : WindsDown g s
      { setReason .spacing s with
        ceiling := { (setReason .spacing s).ceiling with outcome := .offer r }
        spacing := { s.spacing with offer := some r } } := { WindsDown.refl g s with }
  exact hset.trans (windsDown_tryQueue (g := g) hg)

theorem windsDown_offerOrLead (o : Option Stroke) : WindsDown g s (offerOrLead o s) := by
  unfold offerOrLead
  split
  · exact windsDown_giveOffer hg _
  · exact { WindsDown.refl g s with }

end

theorem windsDown_giveWait (g : Prop) (w : WaitReason) (s : State) : WindsDown g s (giveWait w s) :=
  { WindsDown.refl g s with }

theorem windsDown_giveArrived (g : Prop) (s : State) : WindsDown g s (giveArrived s) := { WindsDown.refl g s with }

section
variable (hg : g → gapPassed s = false)
include hg

theorem windsDown_evalTakeUp : WindsDown g s (evalTakeUp s) := by
  unfold evalTakeUp
  split
  · exact (windsDown_giveWait g _ s).trans (windsDown_report g _ _ _)
  · split
    · exact windsDown_giveOffer hg _
    · exact windsDown_giveWait g _ s

theorem windsDown_evalRaise (r : StagedRec) (h : Int) : WindsDown g s (evalRaise r h s) := by
  unfold evalRaise
  split
  · exact windsDown_offerOrLead hg _
  · exact windsDown_giveWait g _ s

theorem windsDown_evalLower (r : StagedRec) (h : Int) : WindsDown g s (evalLower r h s) := by
  have hchoice : WindsDown g s
      (match precondition s .lowering with
        | .none => offerOrLead (chooseStroke s r h (distance s r h) (h - leadFloor s r) .lower) s
        | reason => giveWait reason s) := by
    split
    · exact windsDown_offerOrLead hg _
    · exact windsDown_giveWait g _ s
  unfold evalLower
  simp only []
  split
  · exact hchoice.trans (windsDown_pawlWithdraw g _)
  · exact hchoice

end

theorem windsDown_markRelease (g : Prop) (s : State) : WindsDown g s (markRelease s) := by
  unfold markRelease
  split
  · exact { WindsDown.refl g s with }
  · exact .refl g s

/-- The step before the one that queues leaves the gap as it is. -/
theorem WindsDown.gap (h : WindsDown g s t) (hg : g → gapPassed s = false) : g → gapPassed t = false :=
  fun hh => (gapPassed_of_outer h.outer).trans (hg hh)

section
variable (hg : g → gapPassed s = false)
include hg

theorem windsDown_evalNudge (r : StagedRec) (h : Int) : WindsDown g s (evalNudge r h s) := by
  unfold evalNudge
  split
  · split
    · have hclear : WindsDown g s (notify { s with ceiling := { s.ceiling with nudgeDue := false } }) :=
        { WindsDown.refl g s with nudge := fun _ => rfl }
      have hmark := hclear.trans (windsDown_markRelease g _)
      exact hmark.trans (windsDown_evalLower (hmark.gap hg) _ _)
    · split
      · exact windsDown_giveOffer hg _
      · exact windsDown_giveWait g _ s
  · exact windsDown_giveWait g _ s

theorem windsDown_evalAtRest : WindsDown g s (evalAtRest s) := by
  unfold evalAtRest
  split
  · have hmark := windsDown_markRelease g s
    simp only []
    split
    · exact hmark.trans (windsDown_giveArrived g _)
    · split
      · split
        · exact hmark.trans (windsDown_evalNudge (hmark.gap hg) _ _)
        · exact hmark.trans (windsDown_evalLower (hmark.gap hg) _ _)
      · exact hmark.trans (windsDown_evalRaise (hmark.gap hg) _ _)
  · exact windsDown_evalTakeUp hg

theorem windsDown_evaluate : WindsDown g s (evaluate s) := by
  unfold evaluate
  split
  · split
    · exact windsDown_ceilingIdle g s
    · rename_i c hc
      have hclaiming : s.claiming = true := by rw [claiming_eq, hc]; rfl
      have hadm : ∀ ok, WindsDown g s { s with spacing := { s.spacing with admitted := ok } } := fun ok =>
        { WindsDown.refl g s with }
      simp only []
      split
      · exact hadm _
      · exact (hadm _).trans (windsDown_requestWithdrawal g hclaiming)
    · exact windsDown_evalAtRest hg
  · exact windsDown_ceilingIdle g s

end

/-! ### Settling -/

theorem windsDown_awaitTest (g : Prop) (s : State) : WindsDown g s (awaitTest s) := by
  unfold awaitTest
  split
  · refine WindsDown.trans (t := { s with stage := { s.stage with awaitingSet := false } }) ?_
      (windsDown_handOverArrival g _)
    exact { WindsDown.refl g s with }
  · exact .refl g s

theorem windsDown_restTest (g : Prop) (s : State) : WindsDown g s (restTest s) := by
  rw [restTest_eq]
  split
  · exact windsDown_enterIdle g s
  · exact .refl g s

theorem windsDown_readers (hg : g → gapPassed s = false) : WindsDown g s (readers s) := by
  have h := ((windsDown_shareEval g s).trans (windsDown_awaitTest g _)).trans (windsDown_restTest g _)
  exact h.trans (windsDown_evaluate (h.gap hg))

theorem windsDown_settle (n : Nat) (hg : g → gapPassed s = false) : WindsDown g s (settle n s) := by
  induction n generalizing s with
  | zero => exact .refl g s
  | succ n ih =>
    rw [settle_succ]
    split
    · have hc : WindsDown g s (clearNotice s) := { WindsDown.refl g s with }
      have h := hc.trans (windsDown_readers (hc.gap hg))
      exact h.trans (ih (h.gap hg))
    · exact .refl g s

/-- To the end of a command nothing but a claim can begin, and none does where the gap is not passed. -/
theorem windsDown_finish (hg : g → gapPassed s = false) : WindsDown g s (finish s) := by
  obtain ⟨busy, shown, h⟩ := finish_eq_settled s
  have hs := windsDown_settle settleRounds hg
  have houter : (finish s).outer = s.outer := outer_finish s
  rw [h] at houter ⊢
  exact { hs with outer := houter }

end Sys2Proof.Machine

/-! ## STOP (O39) -/

namespace Sys2Proof.Machine

variable {s t u : State}

/-! ### What an entry to HOLD does with the stroke and the claim (R132, R133, R166) -/

theorem engine_setMode (m : Mode) (s : State) : (setMode m s).engine = s.engine := by
  obtain ⟨a, b, h⟩ := setMode_eq m s; rw [h]
theorem pawl_setMode (m : Mode) (s : State) : (setMode m s).pawl = s.pawl := by
  obtain ⟨a, b, h⟩ := setMode_eq m s; rw [h]
theorem claim_setMode (m : Mode) (s : State) : (setMode m s).line.claim = s.line.claim := by
  obtain ⟨a, b, h⟩ := setMode_eq m s; rw [h]

theorem lift_of_record (hr : t.stage.record = s.stage.record) (ht : t.engine.travel = s.engine.travel) :
    t.lift = s.lift := by
  unfold State.lift State.stagedRec
  rw [hr, ht]

/-- A stroke that is not RUNNING has no short stop (R132). -/
theorem shortStop_of_not_running (h : isRunning s.engine.stroke = false) : shortStop s = s := by
  unfold shortStop
  split
  · rename_i hr
    rw [hr] at h
    cases h
  · rfl

/-- The short stop of a RUNNING stroke (R132). -/
theorem stroke_shortStop {r : Stroke} {n : Nat} (h : s.engine.stroke = .running r n) :
    (shortStop s).engine.stroke =
      .running
        { r with
          stop :=
            if s.lift.isSome then
              r.stop.map fun _ =>
                if r.dir = .lower then s.lift.getD 0 - (min n s.cfg.a : Nat)
                else s.lift.getD 0 + (min n s.cfg.a : Nat)
            else r.stop }
        (min n s.cfg.a) := by
  unfold shortStop
  rw [h]
  simp only [engine_requestPose, engine_notify]
  congr 2
  cases s.lift <;> cases r.stop <;> rfl

theorem pawl_shortStop (s : State) : (shortStop s).pawl = s.pawl := by
  unfold shortStop
  split
  · exact pawl_requestPose _
  · rfl

/-- The state before the set command of an entry to HOLD. -/
def holdBeforePawl (s : State) : State := ceilingIdle (causeOfWithdrawal (shortStop (setMode .hold s)))

theorem enterHold_eq (s : State) : enterHold s = pawlSet (holdBeforePawl s) := rfl

theorem pawl_holdBeforePawl (s : State) : (holdBeforePawl s).pawl = s.pawl := by
  show (causeOfWithdrawal (shortStop (setMode .hold s))).pawl = _
  rw [pawl_causeOfWithdrawal, pawl_shortStop, pawl_setMode]

/-- A claim that waits is withdrawn at once by an entry to HOLD (R113, R166). -/
theorem claim_enterHold {w : WireFrame} (hw : s.line.claim = .waiting w) (hc : s.claiming = true) :
    (enterHold s).line.claim = .empty ∧ (enterHold s).engine.stroke = .rest := by
  have hshort : shortStop (setMode .hold s) = setMode .hold s := shortStop_of_not_running (by
    rw [engine_setMode]
    rw [claiming_eq] at hc
    cases h : s.engine.stroke with
    | running => rw [h] at hc; cases hc
    | rest => rfl
    | claiming => rfl)
  have hc' : (setMode .hold s).claiming = true := by
    rw [claiming_eq, engine_setMode, ← claiming_eq]; exact hc
  have hwas : holdBeforePawl s = ceilingIdle (withdrawNow (setMode .hold s)) := by
    unfold holdBeforePawl causeOfWithdrawal requestWithdrawal
    rw [hshort, if_pos hc', claim_setMode, hw]
  have hset := windsDown_pawlSet True (holdBeforePawl s)
  rw [← enterHold_eq, hwas] at hset
  obtain ⟨hclaiming, hslot, -, -⟩ := hset.claim trivial rfl
  exact ⟨hslot, rest_of_idle (hset.run rfl).stroke hclaiming⟩

theorem stroke_holdBeforePawl {r : Stroke} {n : Nat} (h : s.engine.stroke = .running r n) :
    (holdBeforePawl s).engine.stroke =
      .running
        { r with
          stop :=
            if s.lift.isSome then
              r.stop.map fun _ =>
                if r.dir = .lower then s.lift.getD 0 - (min n s.cfg.a : Nat)
                else s.lift.getD 0 + (min n s.cfg.a : Nat)
            else r.stop }
        (min n s.cfg.a) := by
  have hrun : (setMode .hold s).engine.stroke = .running r n := by rw [engine_setMode]; exact h
  have hshort := stroke_shortStop hrun
  have hlift : (setMode .hold s).lift = s.lift := by
    obtain ⟨a, b, hs⟩ := setMode_eq .hold s
    exact lift_of_record (by rw [hs]) (by rw [hs])
  have hcfg : (setMode .hold s).cfg = s.cfg := by
    obtain ⟨a, b, hs⟩ := setMode_eq .hold s
    rw [hs]
    rfl
  rw [hlift, hcfg] at hshort
  have hnone : causeOfWithdrawal (shortStop (setMode .hold s)) = shortStop (setMode .hold s) :=
    causeOfWithdrawal_of_not_claiming (by rw [claiming_eq, hshort]; rfl)
  show (causeOfWithdrawal (shortStop (setMode .hold s))).engine.stroke = _
  rw [hnone, hshort]

/-- A raising stroke is shortened by an entry to HOLD (R132). -/
theorem raise_enterHold {r : Stroke} {n : Nat} (h : s.engine.stroke = .running r n) (hd : r.dir = .raise) :
    (enterHold s).engine.stroke =
      .running
        { r with
          stop :=
            if s.lift.isSome then r.stop.map fun _ => s.lift.getD 0 + (min n s.cfg.a : Nat) else r.stop }
        (min n s.cfg.a) := by
  have hbefore := stroke_holdBeforePawl h
  rw [enterHold_eq, stroke_pawlSet, hbefore]
  · simp only [hd, reduceCtorEq, if_false]
  · rw [claiming_eq, hbefore]; rfl
  · rw [hbefore, runLowers, hd]; rfl

/-- A lowering stroke is cut by an entry to HOLD, as the pawl is commanded SET (R133). -/
theorem lower_enterHold {r : Stroke} {n : Nat} (h : s.engine.stroke = .running r n) (hd : r.dir = .lower)
    (hp : s.pawl.state = .withdrawn) :
    (enterHold s).engine.stroke = .rest ∧ (enterHold s).pawl.state = .setting ∧
      (enterHold s).pawl.commanded = .set := by
  have hp' : (holdBeforePawl s).pawl.state = .withdrawn := (congrArg Pawl.state (pawl_holdBeforePawl s)).trans hp
  have hlow : runLowers (holdBeforePawl s).engine.stroke = true := by
    rw [stroke_holdBeforePawl h, runLowers, hd]; rfl
  rw [enterHold_eq]
  refine ⟨stroke_pawlSet_lowers hp' hlow, ?_, ?_⟩ <;> rw [pawl_pawlSet_withdrawn hp']

theorem ceilingIdle_enterHold (s : State) : CeilingIdle (enterHold s) := by
  have hset := motionOnly_pawlSet (.refl (holdBeforePawl s))
  exact ⟨hset.outcome, hset.offer⟩

end Sys2Proof.Machine

open Sys2Proof Sys2Proof.Machine in
/-- Settles O39: an entry to HOLD, and what it leaves of the stroke, the claim and the pawl. -/
theorem stopHolds : Obligations.StopHolds := by
  intro s f hprec hpay hroll hbar hm u
  have hexec : exec (.stop f) s = .next (finish (takeStop f.station.toNat u)) :=
    receiveOrder_fromMember rfl hprec hpay ⟨hroll, hbar⟩ hm
  have hmode : u.mode = s.mode := mode_heardFrom ..
  have hengine : u.engine = s.engine := engine_heardFrom ..
  have hpawl : u.pawl = s.pawl := pawl_heardFrom ..
  have hstage : u.stage = s.stage := stage_heardFrom ..
  have hclaim : u.line.claim = s.line.claim := claim_heardFrom ..
  have hcfg : u.cfg = s.cfg := congrArg SettingsMem.inForce (settings_heardFrom ..)
  have hlift : u.lift = s.lift := lift_of_record (congrArg StageCtl.record hstage) (congrArg Engine.travel hengine)
  refine ⟨_, hexec, ?_, fun hmov => ?_, fun hmov => ?_⟩
  · rw [outer_finish]
    unfold takeStop
    split
    · exact outer_enterHold u
    · rfl
  · have htake : takeStop f.station.toNat u =
        recordStop .hold .stopOrder none (some f.station.toNat) (enterHold u) := if_pos (hmode.trans hmov)
    rw [htake]
    have hq : Quiet (recordStop .hold .stopOrder none (some f.station.toNat) (enterHold u)) := by
      unfold Quiet
      rw [mode_recordStop, mode_enterHold]
      exact ⟨nofun, nofun⟩
    have hinner := finish_quiet hq
    have hidle := ceilingIdle_finish hq (ceilingIdle_enterHold u)
    have htime : (enterHold u).timeBase = s.timeBase :=
      (timeBase_of_outer (outer_enterHold u)).trans (timeBase_heardFrom ..)
    have hentered := entered_enterHold u
    have hnow : ∀ {α : Type} (p : Inner → α), p (finish (recordStop .hold .stopOrder none
        (some f.station.toNat) (enterHold u))).inner =
          p (recordStop .hold .stopOrder none (some f.station.toNat) (enterHold u)).inner :=
      fun p => congrArg p hinner
    refine ⟨(hnow Inner.mode).trans (mode_enterHold u), (hnow Inner.lastStop).trans ?_,
      (hnow Inner.stage).trans (hentered.stage.trans (by rw [hstage])), hidle.1, hidle.2, ?_, ?_, ?_⟩
    · show some _ = _
      rw [htime]
      rfl
    · intro w hw hc
      obtain ⟨hempty, hrest⟩ := claim_enterHold (hclaim.trans hw)
        (by rw [claiming_eq, hengine, ← claiming_eq]; exact hc)
      exact ⟨(hnow Inner.claim).trans hempty, (congrArg Engine.stroke (hnow Inner.engine)).trans hrest⟩
    · intro r n hr hd
      have hraise := raise_enterHold (s := u) (r := r) (n := n) (by rw [hengine]; exact hr) hd
      rw [hlift, hcfg] at hraise
      exact (congrArg Engine.stroke (hnow Inner.engine)).trans (hraise.trans (by simp))
    · intro r n hr hd hp
      obtain ⟨hrest, hsetting, hset⟩ := lower_enterHold (s := u) (r := r) (n := n) (by rw [hengine]; exact hr) hd
        (by rw [hpawl]; exact hp)
      have hfin := hnow Inner.pawl
      exact ⟨(congrArg Engine.stroke (hnow Inner.engine)).trans hrest, (congrArg Pawl.state hfin).trans hsetting,
        (congrArg Pawl.commanded hfin).trans hset⟩
  · have htake : takeStop f.station.toNat u = u := if_neg fun h => hmov (hmode.symm.trans h)
    rw [htake]
    refine ⟨?_, fun hq => finish_quiet (quiet_of_eq hmode hq)⟩
    exact (settlesAtRest_finish fun h => hmov (hmode.symm.trans h)).lastStop.trans
      (congrArg ModeCtl.lastStop (modeCtl_heardFrom ..))

/-! ## What an evaluation and a mode entry keep of the stage (O34, O37, O41, O47, O52) -/

namespace Sys2Proof.Machine

variable {s t u : State}

/-! ### The nudge-due and lowering-release flags (R95, R97) -/

/-- The ceiling unit's two flags. -/
def State.flags (s : State) : Bool × Bool := (s.ceiling.nudgeDue, s.ceiling.release)

@[simp] theorem flags_notify (s : State) : (notify s).flags = s.flags := rfl
@[simp] theorem flags_requestPose (s : State) : (requestPose s).flags = s.flags := by
  obtain ⟨a, b, h⟩ := requestPose_eq s; rw [h]; rfl
@[simp] theorem flags_setActive (k : FaultKind) (on : Bool) (s : State) : (setActive k on s).flags = s.flags := rfl
@[simp] theorem flags_latchAt (p : Place) (n : Option Nat) (k : FaultKind) (s : State) :
    (latchAt p n k s).flags = s.flags := by
  obtain ⟨faults, a, b, notice, h⟩ := latchAt_eq p n k s; rw [h]; rfl
@[simp] theorem flags_causeOfWithdrawal (s : State) : (causeOfWithdrawal s).flags = s.flags := by
  unfold causeOfWithdrawal requestWithdrawal
  split
  · split <;> rfl
  · rfl
@[simp] theorem flags_stopRun (d : Direction) (s : State) : (stopRun d s).flags = s.flags := flags_requestPose _
@[simp] theorem flags_abortStroke (s : State) : (abortStroke s).flags = s.flags := by
  unfold abortStroke; split <;> simp
@[simp] theorem flags_cutStroke (s : State) : (cutStroke s).flags = s.flags := by
  unfold cutStroke
  split
  · split <;> simp
  · rfl
@[simp] theorem flags_shortStop (s : State) : (shortStop s).flags = s.flags := by
  unfold shortStop
  split
  · exact flags_requestPose _
  · rfl
@[simp] theorem flags_dropJog (s : State) : (dropJog s).flags = s.flags := rfl
theorem flags_engineOnPawl (p : PawlState) (s : State) : (engineOnPawl p s).flags = s.flags := by
  unfold engineOnPawl
  split
  · split <;> rfl
  · simp only []
    split
    · exact flags_cutStroke s
    · exact flags_cutStroke s
/-- Only a report of WITHDRAWN writes a flag (R97). -/
theorem flags_reportPawl (p : PawlState) (hp : p ≠ .withdrawn) (s : State) : (reportPawl p s).flags = s.flags := by
  unfold reportPawl
  simp only [if_neg hp, flags_engineOnPawl, flags_causeOfWithdrawal, flags_requestPose]
  rfl
@[simp] theorem flags_beginsSetting (s : State) : (beginsSetting s).flags = s.flags :=
  flags_reportPawl .setting nofun _
@[simp] theorem flags_pawlSet (s : State) : (pawlSet s).flags = s.flags := by
  have hreach : ∀ t : State, (reportPawl .set (disarmPawlLimit t)).flags = t.flags := fun t =>
    flags_reportPawl .set nofun _
  rw [pawlSet_cases]
  split
  · rfl
  · rfl
  · split
    · exact (hreach _).trans (flags_beginsSetting s)
    · exact flags_beginsSetting s
  · exact flags_beginsSetting s
  · rfl
@[simp] theorem flags_pawlWithdraw (s : State) : (pawlWithdraw s).flags = s.flags := by
  unfold pawlWithdraw
  split
  · split
    · exact flags_reportPawl .withdrawing nofun _
    · rfl
    · rfl
  · rfl
@[simp] theorem flags_endJog (s : State) : (endJog s).flags = s.flags := by
  unfold endJog
  split
  · rfl
  · split
    · exact flags_pawlSet _
    · rfl
@[simp] theorem flags_ceilingIdle (s : State) : (ceilingIdle s).flags = s.flags := rfl
@[simp] theorem flags_setMode (m : Mode) (s : State) : (setMode m s).flags = s.flags := flags_requestPose _
@[simp] theorem flags_handRetained (s : State) : (handRetained s).flags = s.flags := by
  obtain ⟨r, h⟩ := handRetained_eq s; rw [h]; rfl
@[simp] theorem flags_enterSettled (s : State) : (enterSettled s).flags = s.flags := by simp [enterSettled]
@[simp] theorem flags_enterIdle (s : State) : (enterIdle s).flags = s.flags := flags_setMode _ _
@[simp] theorem flags_enterHold (s : State) : (enterHold s).flags = s.flags := by simp [enterHold]
@[simp] theorem flags_enterHalted (s : State) : (enterHalted s).flags = s.flags := by simp [enterHalted]
@[simp] theorem flags_recordStop (m : Mode) (o : StopOrigin) (k : Option FaultKind) (n : Option Nat) (s : State) :
    (recordStop m o k n s).flags = s.flags := rfl
@[simp] theorem flags_placeHalt (k : FaultKind) (s : State) : (placeHalt k s).flags = s.flags := by
  unfold placeHalt
  split
  · rfl
  · split <;> rfl

/-! ### What an evaluation keeps (R86 to R103) -/

/-- What a full evaluation keeps: the mode, the stage and the retained content; the pawl unless it is SET, for the pawl
request of R101; the nudge-due flag unless the nudge has length 0; and the lowering-release flag unless the lowering
class comes to its turn (R95). -/
structure Evaluates (s t : State) : Prop where
  outer : t.outer = s.outer
  modeCtl : t.modeCtl = s.modeCtl
  stage : t.stage = s.stage
  retained : t.retained = s.retained
  pawl : s.pawl.state ≠ .set → t.pawl = s.pawl
  nudge : nudgeLength s ≠ 0 → t.ceiling.nudgeDue = s.ceiling.nudgeDue
  release : s.stage.dir ≠ .lower ∨ (s.ceiling.nudgeDue = true ∧ nudgeLength s ≠ 0) →
    t.ceiling.release = s.ceiling.release

theorem nudgeLength_of_outer (h : t.outer = s.outer) : nudgeLength t = nudgeLength s := by
  have hc : t.settings = s.settings := congrArg Outer.settings h
  unfold nudgeLength State.cfg
  rw [hc, travel_of_outer h]

theorem Evaluates.refl (s : State) : Evaluates s s :=
  ⟨rfl, rfl, rfl, rfl, fun _ => rfl, fun _ => rfl, fun _ => rfl⟩

theorem Evaluates.trans (h : Evaluates s t) (k : Evaluates t u) : Evaluates s u where
  outer := k.outer.trans h.outer
  modeCtl := k.modeCtl.trans h.modeCtl
  stage := k.stage.trans h.stage
  retained := k.retained.trans h.retained
  pawl hp := (k.pawl (by rw [h.pawl hp]; exact hp)).trans (h.pawl hp)
  nudge hn := (k.nudge (by rw [nudgeLength_of_outer h.outer]; exact hn)).trans (h.nudge hn)
  release hr := by
    refine (k.release ?_).trans (h.release hr)
    rcases hr with hd | ⟨hn, hl⟩
    · exact .inl (by rw [h.stage]; exact hd)
    · exact .inr ⟨(h.nudge hl).trans hn, by rw [nudgeLength_of_outer h.outer]; exact hl⟩

theorem evaluates_tryQueue (s : State) : Evaluates s (tryQueue s) := by
  unfold tryQueue
  split
  · exact .refl s
  · split
    · split <;> exact { Evaluates.refl s with }
    · exact .refl s

theorem evaluates_giveOffer (r : Stroke) (s : State) : Evaluates s (giveOffer r s) := by
  refine Evaluates.trans (t := { setReason .spacing s with
    ceiling := { (setReason .spacing s).ceiling with outcome := .offer r }
    spacing := { s.spacing with offer := some r } }) ?_ (evaluates_tryQueue _)
  exact { Evaluates.refl s with }

theorem evaluates_giveWait (w : WaitReason) (s : State) : Evaluates s (giveWait w s) := { Evaluates.refl s with }

theorem evaluates_giveArrived (s : State) : Evaluates s (giveArrived s) := { Evaluates.refl s with }

theorem evaluates_offerOrLead (o : Option Stroke) (s : State) : Evaluates s (offerOrLead o s) := by
  unfold offerOrLead
  split
  · exact evaluates_giveOffer _ s
  · exact evaluates_giveWait _ s

/-- A pawl request moves a pawl that is SET alone (R101). -/
theorem evaluates_pawlWithdraw (h : s.pawl.state = .set) : Evaluates s (pawlWithdraw s) := by
  have hmotion : MotionOnly s (pawlWithdraw s) := by
    unfold pawlWithdraw
    split
    · split
      · exact motionOnly_reportPawl _ { MotionOnly.refl s with }
      · exact { MotionOnly.refl s with }
      · exact .refl s
    · exact .refl s
  have hflags := flags_pawlWithdraw s
  exact
    { outer := outer_pawlWithdraw s
      modeCtl := hmotion.modeCtl
      stage := hmotion.stage
      retained := hmotion.retained
      pawl := fun hp => absurd h hp
      nudge := fun _ => congrArg Prod.fst hflags
      release := fun _ => congrArg Prod.snd hflags }

theorem evaluates_evalRaise (r : StagedRec) (h : Int) (s : State) : Evaluates s (evalRaise r h s) := by
  unfold evalRaise
  split
  · exact evaluates_offerOrLead _ s
  · exact evaluates_giveWait _ s

/-- An offer or a wait leaves the pawl as it is. -/
theorem pawl_tryQueue (s : State) : (tryQueue s).pawl = s.pawl := by
  unfold tryQueue
  split
  · rfl
  · split
    · split <;> rfl
    · rfl

theorem pawl_offerOrLead (o : Option Stroke) (s : State) : (offerOrLead o s).pawl = s.pawl := by
  unfold offerOrLead
  split
  · exact pawl_tryQueue _
  · rfl

theorem evaluates_evalLower (r : StagedRec) (h : Int) (s : State) : Evaluates s (evalLower r h s) := by
  unfold evalLower
  simp only []
  split
  · rename_i hask
    have hset := mayAskWithdraw_pawl hask
    split
    · exact (evaluates_offerOrLead _ s).trans (evaluates_pawlWithdraw (by rw [pawl_offerOrLead]; exact hset))
    · exact (evaluates_giveWait _ s).trans (evaluates_pawlWithdraw hset)
  · split
    · exact evaluates_offerOrLead _ s
    · exact evaluates_giveWait _ s

/-- The lowering-release flag is set only with direction lower and no nudge due (R95). -/
theorem evaluates_markRelease (s : State) : Evaluates s (markRelease s) := by
  unfold markRelease
  split
  · rename_i hc
    exact
      { Evaluates.refl s with
        release := fun hr => by
          rcases hr with hd | ⟨hn, -⟩
          · exact absurd hc.1 hd
          · rw [hn] at hc; cases hc.2.1 }
  · exact .refl s

theorem evaluates_evalNudge (r : StagedRec) (h : Int) (hl : s.stage.dir = .lower) :
    Evaluates s (evalNudge r h s) := by
  unfold evalNudge
  split
  · split
    · rename_i hlen
      have hclear : Evaluates s (notify { s with ceiling := { s.ceiling with nudgeDue := false } }) :=
        { Evaluates.refl s with nudge := fun hn => absurd hlen hn }
      have hrest := (evaluates_markRelease (notify { s with ceiling := { s.ceiling with nudgeDue := false } })).trans
        (evaluates_evalLower r h _)
      exact
        { hclear.trans hrest with
          nudge := fun hn => absurd hlen hn
          release := fun hr => by
            rcases hr with h' | ⟨-, hn⟩
            · exact absurd hl h'
            · exact absurd hlen hn }
    · split
      · exact evaluates_giveOffer _ s
      · exact evaluates_giveWait _ s
  · exact evaluates_giveWait _ s

/-- Staged, or with room to raise, an evaluation at REST reports nothing (R90, R100). -/
theorem evaluates_evalAtRest (h : s.stagedRec.isSome = true ∨ s.engine.travel < 240000) :
    Evaluates s (evalAtRest s) := by
  unfold evalAtRest
  split
  · have hmark := evaluates_markRelease s
    simp only []
    split
    · exact hmark.trans (evaluates_giveArrived _)
    · split
      · rename_i hd
        split
        · exact hmark.trans (evaluates_evalNudge _ _ hd)
        · exact hmark.trans (evaluates_evalLower _ _ _)
      · exact hmark.trans (evaluates_evalRaise _ _ _)
  · rename_i hnone
    have hroom : s.engine.travel < 240000 := h.resolve_left fun hs => by
      obtain ⟨r, hr⟩ := Option.isSome_iff_exists.mp hs
      exact hnone r _ hr (by unfold State.lift; rw [hr]; rfl)
    have hnot : ¬ topTravel ≤ s.engine.travel := by
      show ¬ 240000 ≤ _
      omega
    unfold evalTakeUp
    rw [if_neg hnot]
    split
    · exact evaluates_giveOffer _ s
    · exact evaluates_giveWait _ s

theorem evaluates_evaluate (h : s.stagedRec.isSome = true ∨ s.engine.travel < 240000) : Evaluates s (evaluate s) := by
  unfold evaluate
  split
  · split
    · exact { Evaluates.refl s with }
    · simp only []
      split
      · exact { Evaluates.refl s with }
      · unfold requestWithdrawal
        split <;> exact { Evaluates.refl s with }
    · exact evaluates_evalAtRest h
  · exact { Evaluates.refl s with }

end Sys2Proof.Machine

/-! ## Settling in MOVING (O34, O37, O41, O47, O52) -/

namespace Sys2Proof.Machine

variable {s t u : State}

/-! ### In band, with no arrival to hand over, the station moves on (R86, R162) -/

/-- The share check reads nothing that an evaluation writes. -/
theorem Evaluates.shareRead (h : Evaluates s t) : ShareRead s t where
  table := congrArg Outer.table h.outer
  record := congrArg StageCtl.record h.stage
  mode := congrArg ModeCtl.mode h.modeCtl
  travel := travel_of_outer h.outer
  straps := congrArg Outer.straps h.outer
  cfg := congrArg (fun o => o.settings.inForce) h.outer
  present := congrArg Outer.present h.outer

/-- The share evaluation of a column in its band keeps what an evaluation keeps. -/
theorem evaluates_shareEval (hnow : outOfBand (shareOf s) = false) : Evaluates s (shareEval s) := by
  obtain ⟨hinner, -, hstands⟩ := inner_shareEval_inBand hnow
  exact
    { outer := outer_shareEval s
      modeCtl := hstands.modeCtl
      stage := hstands.stage
      retained := congrArg Inner.retained hinner
      pawl := fun _ => congrArg Inner.pawl hinner
      nudge := fun _ => congrArg Inner.nudgeDue hinner
      release := fun _ => congrArg Inner.release hinner }

/-- In MOVING, in band, with no arrival waiting or the pawl not SET: the readers but evaluate. -/
structure StaysMoving (s : State) : Prop where
  mode : s.mode = .moving
  band : outOfBand (shareOf s) = false
  waits : s.stage.awaitingSet = true → s.pawl.state ≠ .set
  room : s.stagedRec.isSome = true ∨ s.engine.travel < 240000

theorem StaysMoving.of_evaluates (hs : StaysMoving s) (h : Evaluates s t) : StaysMoving t where
  mode := h.shareRead.mode.trans hs.mode
  band := by rw [h.shareRead.shareOf]; exact hs.band
  waits ha := by
    have hp := hs.waits (by rw [← h.stage]; exact ha)
    rw [h.pawl hp]
    exact hp
  room := by
    rw [h.shareRead.stagedRec, h.shareRead.travel]
    exact hs.room

theorem awaitTest_of_staysMoving (h : StaysMoving s) : awaitTest s = s :=
  if_neg fun hc => h.waits hc.1 hc.2.2

theorem restTest_of_moving (h : s.mode = .moving) : restTest s = s := by
  rw [restTest_eq, if_neg fun hc => by rw [h] at hc; cases hc.1]

theorem readers_of_staysMoving (h : StaysMoving s) : readers s = evaluate (shareEval s) := by
  have hs := h.of_evaluates (evaluates_shareEval h.band)
  unfold readers
  rw [awaitTest_of_staysMoving hs, restTest_of_moving hs.mode]

theorem evaluates_readers (h : StaysMoving s) : Evaluates s (readers s) := by
  have he := evaluates_shareEval h.band
  rw [readers_of_staysMoving h]
  exact he.trans (evaluates_evaluate (h.of_evaluates he).room)

theorem evaluates_settle (n : Nat) (h : StaysMoving s) : Evaluates s (settle n s) := by
  induction n generalizing s with
  | zero => exact .refl s
  | succ n ih =>
    rw [settle_succ]
    split
    · have hc : Evaluates s (clearNotice s) := { Evaluates.refl s with }
      have hr := hc.trans (evaluates_readers (h.of_evaluates hc))
      exact hr.trans (ih (h.of_evaluates hr))
    · exact .refl s

theorem evaluates_finish (h : StaysMoving s) : Evaluates s (finish s) := by
  obtain ⟨busy, shown, hf⟩ := finish_eq_settled s
  have houter : (finish s).outer = s.outer := outer_finish s
  rw [hf] at houter ⊢
  exact { evaluates_settle settleRounds h with outer := houter }

/-! ### An arrival that waits for SET (R82, R90) -/

/-- A station in MOVING, in band, whose lowering arrival waits for a pawl that is not SET. -/
structure AwaitsSet (s : State) : Prop extends StaysMoving s where
  awaiting : s.stage.awaitingSet = true
  staged : s.stagedRec.isSome = true

theorem AwaitsSet.of_evaluates (hs : AwaitsSet s) (h : Evaluates s t) : AwaitsSet t :=
  ⟨hs.toStaysMoving.of_evaluates h, by rw [h.stage]; exact hs.awaiting,
    by rw [h.shareRead.stagedRec]; exact hs.staged⟩

/-- ARRIVED with no wait reason, where the stroke engine is at REST. -/
def ArrivedAtRest (s : State) : Prop :=
  s.engine.stroke = .rest → s.ceiling.outcome = .arrived ∧ s.ceiling.reason = .none

/-- The evaluation of a waiting arrival is ARRIVED at REST; only a withdrawn claim leaves a notice (R90, R113). -/
theorem evaluate_awaits (h : AwaitsSet s) (hn : s.notice = false) :
    ArrivedAtRest (evaluate s) ∧ (evaluate s).notice = false ∨
      ((evaluate s).engine.stroke = .rest ∧ (evaluate s).notice = true) ∧ s.engine.stroke ≠ .rest := by
  obtain ⟨r, hr⟩ := Option.isSome_iff_exists.mp h.staged
  have hlift : s.lift = some ((s.engine.travel : Int) - r.contactZero) := by unfold State.lift; rw [hr]; rfl
  have hcounts : ∀ x, countsArrived (markRelease s) r x = true := fun x => by
    have hw : (markRelease s).stage = s.stage := (evaluates_markRelease s).stage
    unfold countsArrived
    rw [hw, h.awaiting]
    rfl
  have hbusy : ∀ t : State, t.engine.stroke = s.engine.stroke → s.engine.stroke ≠ .rest → ArrivedAtRest t :=
    fun t ht hs hrest => absurd (ht.symm.trans hrest) hs
  unfold evaluate
  rw [if_pos h.mode]
  split
  · rename_i hrun
    exact .inl ⟨hbusy _ rfl (by rw [hrun]; exact nofun), hn⟩
  · rename_i c hc
    have hne : s.engine.stroke ≠ .rest := by rw [hc]; exact nofun
    simp only []
    split
    · exact .inl ⟨hbusy _ rfl hne, hn⟩
    · unfold requestWithdrawal
      split
      · exact .inl ⟨hbusy _ rfl hne, hn⟩
      · exact .inr ⟨⟨rfl, rfl⟩, hne⟩
      · exact .inl ⟨hbusy _ rfl hne, hn⟩
      · exact .inl ⟨hbusy _ rfl hne, hn⟩
  · unfold evalAtRest
    rw [hr, hlift]
    simp only [hcounts, if_true]
    exact .inl ⟨fun _ => ⟨rfl, rfl⟩, (notice_markRelease s).trans hn⟩

theorem readers_awaits (h : AwaitsSet s) (hn : s.notice = false) :
    ArrivedAtRest (readers s) ∧ (readers s).notice = false ∨
      ((readers s).engine.stroke = .rest ∧ (readers s).notice = true) ∧ s.engine.stroke ≠ .rest := by
  have he := evaluates_shareEval h.band
  obtain ⟨-, hnotice, hstands⟩ := inner_shareEval_inBand h.band
  rw [readers_of_staysMoving h.toStaysMoving]
  have hcases := evaluate_awaits (h.of_evaluates he) (hnotice.trans hn)
  rw [hstands.engine] at hcases
  exact hcases

/-- Two rounds of notices settle an arrival that waits: the first may withdraw a claim. -/
theorem arrivedAtRest_settle (n : Nat) (h : AwaitsSet s) (hn : s.notice = true) :
    ArrivedAtRest (settle (n + 2) s) := by
  have hclear : Evaluates s (clearNotice s) := { Evaluates.refl s with }
  have hone := hclear.trans (evaluates_readers (h.of_evaluates hclear).toStaysMoving)
  have hawaits := h.of_evaluates hone
  rw [settle_succ, if_pos hn]
  rcases readers_awaits (h.of_evaluates hclear) rfl with ⟨harrived, hstill⟩ | ⟨⟨hrest, hleft⟩, -⟩
  · rw [settle_still _ hstill]
    exact harrived
  · rw [settle_succ, if_pos hleft]
    have hclear' : Evaluates (readers (clearNotice s)) (clearNotice (readers (clearNotice s))) :=
      { Evaluates.refl _ with }
    rcases readers_awaits (hawaits.of_evaluates hclear') rfl with ⟨harrived, hstill⟩ | ⟨-, hno⟩
    · rw [settle_still _ hstill]
      exact harrived
    · exact absurd hrest hno

end Sys2Proof.Machine

/-! ### How far a command carries a staged station (R82, R84, R166) -/

namespace Sys2Proof.Machine

variable {s t u : State}

/-- What every command that makes no stage entry keeps of a staged station, short of the end of staging: direction and
retained content, the flags of R95 and R97 as `Evaluates` says, and in MOVING the stage record. -/
structure Carried (s t : State) : Prop where
  outer : t.outer = s.outer
  staged : t.stagedRec.isSome = s.stagedRec.isSome
  dir : t.stage.dir = s.stage.dir
  retained : t.retained = s.retained
  nudge : nudgeLength s ≠ 0 → t.ceiling.nudgeDue = s.ceiling.nudgeDue
  release : s.stage.dir ≠ .lower ∨ (s.ceiling.nudgeDue = true ∧ nudgeLength s ≠ 0) →
    t.ceiling.release = s.ceiling.release
  unstaged : t.mode = .unstaged → s.mode = .unstaged
  moving : t.mode = .moving → s.mode = .moving ∧ t.stage.record = s.stage.record

/-- The end of staging (R84). -/
structure Ended (s t : State) : Prop where
  outer : t.outer = s.outer
  mode : t.mode = .unstaged
  stage : t.stage = ⟨.unstaged, .none, false⟩
  content : t.retained.content = ⟨none, .none, s.plan.active⟩
  nudge : t.ceiling.nudgeDue = false
  release : t.ceiling.release = false

/-- Either of the two. -/
def Underway (s t : State) : Prop := Carried s t ∨ Ended s t

theorem Carried.refl (s : State) : Carried s s :=
  ⟨rfl, rfl, rfl, rfl, fun _ => rfl, fun _ => rfl, id, fun h => ⟨h, rfl⟩⟩

theorem Carried.trans (h : Carried s t) (k : Carried t u) : Carried s u where
  outer := k.outer.trans h.outer
  staged := k.staged.trans h.staged
  dir := k.dir.trans h.dir
  retained := k.retained.trans h.retained
  nudge hn := (k.nudge (by rw [nudgeLength_of_outer h.outer]; exact hn)).trans (h.nudge hn)
  release hr := by
    refine (k.release ?_).trans (h.release hr)
    rcases hr with hd | ⟨hn, hl⟩
    · exact .inl (by rw [h.dir]; exact hd)
    · exact .inr ⟨(h.nudge hl).trans hn, by rw [nudgeLength_of_outer h.outer]; exact hl⟩
  unstaged := h.unstaged ∘ k.unstaged
  moving hm := by
    obtain ⟨hmt, hrecord⟩ := k.moving hm
    obtain ⟨hms, hrecord'⟩ := h.moving hmt
    exact ⟨hms, hrecord.trans hrecord'⟩

theorem Ended.after (h : Ended t u) (k : t.outer = s.outer) : Ended s u :=
  { h with
    outer := h.outer.trans k
    content := h.content.trans (by rw [show t.plan = s.plan from congrArg Outer.plan k]) }

theorem Carried.underway (h : Carried s t) (k : Underway t u) : Underway s u :=
  k.imp h.trans fun he => he.after h.outer

theorem isSome_stagedRec (h : t.stage.record = s.stage.record) : t.stagedRec.isSome = s.stagedRec.isSome := by
  unfold State.stagedRec
  rw [h]

theorem Evaluates.carried (h : Evaluates s t) : Carried s t where
  outer := h.outer
  staged := isSome_stagedRec h.shareRead.record
  dir := congrArg StageCtl.dir h.stage
  retained := h.retained
  nudge := h.nudge
  release := h.release
  unstaged := h.shareRead.mode.symm.trans
  moving hm := ⟨h.shareRead.mode.symm.trans hm, h.shareRead.record⟩

/-- A step that writes neither mode, stage, retained content nor flags. -/
theorem carried_of_still (ho : t.outer = s.outer) (hm : t.mode = s.mode) (hs : t.stage = s.stage)
    (hr : t.retained = s.retained) (hf : t.flags = s.flags) : Carried s t where
  outer := ho
  staged := isSome_stagedRec (congrArg StageCtl.record hs)
  dir := congrArg StageCtl.dir hs
  retained := hr
  nudge _ := congrArg Prod.fst hf
  release _ := congrArg Prod.snd hf
  unstaged := hm.symm.trans
  moving h := ⟨hm.symm.trans h, congrArg StageCtl.record hs⟩

/-- An entry to a mode other than UNSTAGED and MOVING. -/
theorem carried_of_entered {m : Mode} (h : Entered m s t) (hu : m ≠ .unstaged) (hm : m ≠ .moving)
    (ho : t.outer = s.outer) (hf : t.flags = s.flags) : Carried s t where
  outer := ho
  staged := isSome_stagedRec (by rw [h.stage])
  dir := by rw [h.stage]
  retained := h.retained
  nudge _ := congrArg Prod.fst hf
  release _ := congrArg Prod.snd hf
  unstaged ht := absurd ((congrArg ModeCtl.mode h.modeCtl).symm.trans ht) hu
  moving ht := absurd ((congrArg ModeCtl.mode h.modeCtl).symm.trans ht) hm

theorem entered_enterSettled (s : State) : Entered .settled s (enterSettled s) := entered_of_motion (.refl _)

theorem entered_enterIdle (s : State) : Entered .idle s (enterIdle s) := by
  obtain ⟨a, b, h⟩ := setMode_eq .idle s
  exact ⟨by unfold enterIdle; rw [h], by unfold enterIdle; rw [h], by unfold enterIdle; rw [h]⟩

theorem carried_enterHold (s : State) : Carried s (enterHold s) :=
  carried_of_entered (entered_enterHold s) nofun nofun (outer_enterHold s) (flags_enterHold s)

theorem carried_enterHalted (s : State) : Carried s (enterHalted s) :=
  carried_of_entered (entered_enterHalted s) nofun nofun (outer_enterHalted s) (flags_enterHalted s)

theorem carried_enterSettled (s : State) : Carried s (enterSettled s) :=
  carried_of_entered (entered_enterSettled s) nofun nofun (outer_enterSettled s) (flags_enterSettled s)

theorem carried_enterIdle (s : State) : Carried s (enterIdle s) :=
  carried_of_entered (entered_enterIdle s) nofun nofun (outer_enterIdle s) (flags_enterIdle s)

theorem carried_pawlSet (s : State) : Carried s (pawlSet s) :=
  have h := motionOnly_pawlSet (.refl s)
  carried_of_still (outer_pawlSet s) (congrArg ModeCtl.mode h.modeCtl) h.stage h.retained (flags_pawlSet s)

theorem carried_latchAt (p : Place) (n : Option Nat) (k : FaultKind) (s : State) : Carried s (latchAt p n k s) := by
  have hf := flags_latchAt p n k s
  have ho := outer_latchAt p n k s
  obtain ⟨faults, a, b, notice, h⟩ := latchAt_eq p n k s
  rw [h] at hf ho ⊢
  exact carried_of_still ho rfl rfl rfl hf

theorem carried_placeHalt (k : FaultKind) (s : State) : Carried s (placeHalt k s) := by
  unfold placeHalt
  split
  · exact .refl s
  · split
    · exact .refl s
    · exact { Carried.refl s with }

theorem carried_modeOnFault (k : FaultKind) (s : State) : Carried s (modeOnFault k s) := by
  have hrecord : ∀ m t, Carried s t → Carried s (recordStop m .fault (some k) none t) := fun m t h => { h with }
  unfold modeOnFault
  split
  · split
    · exact carried_placeHalt k s
    · exact carried_placeHalt k s
    · exact carried_placeHalt k s
    · exact (hrecord _ _ (carried_enterHalted s)).trans (carried_placeHalt k _)
  · split
    · exact hrecord _ _ (carried_enterHold s)
    · exact .refl s

theorem carried_report (k : FaultKind) (n : Option Nat) (s : State) : Carried s (report k n s) :=
  (carried_latchAt (placeNow s) n k s).trans (carried_modeOnFault k _)

theorem carried_shareEval (s : State) : Carried s (shareEval s) := by
  have hw : Carried s (writeShare s) := { Carried.refl s with }
  have ha : ∀ on, Carried s (setActive .loadShare on (writeShare s)) := fun on => { hw with }
  unfold shareEval
  simp only []
  split
  · exact (ha true).trans (carried_report _ _ _)
  · split
    · exact ha false
    · exact hw

theorem carried_restTest (s : State) : Carried s (restTest s) := by
  rw [restTest_eq]
  split
  · exact carried_enterIdle s
  · exact .refl s

/-- The state before the set command of an end of staging (R84). -/
theorem endStaging_eq (s : State) :
    ∃ v, endStaging s = pawlSet (ceilingIdle v) ∧ v.mode = .unstaged ∧ v.stage = ⟨.unstaged, .none, false⟩ ∧
      v.retained.content = ⟨none, .none, s.plan.active⟩ ∧ v.flags = (false, false) := by
  obtain ⟨hcontent, -, -⟩ := retained_handRetained (notify { s with stage := ⟨.unstaged, .none, false⟩ })
  obtain ⟨r, hr⟩ := handRetained_eq (notify { s with stage := ⟨.unstaged, .none, false⟩ })
  obtain ⟨a, b, hm⟩ := setMode_eq .unstaged
    { notify { s with stage := ⟨.unstaged, .none, false⟩ } with retained := r }
  rw [hr] at hcontent
  refine ⟨{ s with
    stage := ⟨.unstaged, .none, false⟩
    retained := r
    modeCtl := { s.modeCtl with mode := .unstaged }
    line := { s.line with posePending := a, poseAgain := b }
    ceiling := { s.ceiling with nudgeDue := false, release := false }
    notice := true }, ?_, rfl, rfl, hcontent, rfl⟩
  unfold endStaging enterUnstaged
  rw [hr, hm]
  rfl

/-- The end of staging leaves no stage, no direction and no flag (R78, R84, R95, R97). -/
theorem ended_endStaging (s : State) : Ended s (endStaging s) := by
  obtain ⟨v, heq, hmode, hstage, hcontent, hflags⟩ := endStaging_eq s
  have hkept := motionOnly_pawlSet (.refl (ceilingIdle v))
  have hpawl := flags_pawlSet (ceilingIdle v)
  rw [← heq] at hkept hpawl
  exact
    { outer := outer_endStaging s
      mode := (congrArg ModeCtl.mode hkept.modeCtl).trans hmode
      stage := hkept.stage.trans hstage
      content := (congrArg Retained.content hkept.retained).trans hcontent
      nudge := congrArg Prod.fst (hpawl.trans hflags)
      release := congrArg Prod.snd (hpawl.trans hflags) }

theorem underway_handOverArrival (s : State) : Underway s (handOverArrival s) := by
  unfold handOverArrival
  split
  · exact .inr (ended_endStaging s)
  · exact .inl (carried_enterSettled s)
  · exact .inl (.refl s)

theorem underway_awaitTest (s : State) : Underway s (awaitTest s) := by
  unfold awaitTest
  split
  · refine Carried.underway (t := { s with stage := { s.stage with awaitingSet := false } }) ?_
      (underway_handOverArrival _)
    exact { Carried.refl s with }
  · exact .inl (.refl s)

theorem underway_arrive (s : State) : Underway s (arrive s) := by
  have hwait : Carried s { s with stage := { s.stage with awaitingSet := true } } := { Carried.refl s with }
  unfold arrive
  split
  · exact underway_handOverArrival s
  · simp only []
    split
    · exact .inl hwait
    · exact .inl (hwait.trans (carried_pawlSet _))

/-- The limit-reported flag is set as the station leaves MOVING (R80). -/
theorem carried_limited (hm : s.mode = .moving) : Carried s (report .travelLimit none (markLimitReported s)) := by
  have hmode : (markLimitReported s).mode = .moving := by
    unfold markLimitReported
    split <;> exact hm
  have hhold : (report .travelLimit none (markLimitReported s)).mode = .hold := by
    rw [mode_holdReport rfl, if_pos hmode]
  have hreport := carried_report .travelLimit none (markLimitReported s)
  have hmark : (markLimitReported s).outer = s.outer ∧
      (markLimitReported s).stagedRec.isSome = s.stagedRec.isSome ∧
      (markLimitReported s).stage.dir = s.stage.dir ∧ (markLimitReported s).retained = s.retained ∧
      (markLimitReported s).ceiling = s.ceiling := by
    unfold markLimitReported
    split
    · rename_i r hr
      refine ⟨rfl, ?_, rfl, rfl, rfl⟩
      unfold State.stagedRec
      rw [hr]
      rfl
    · exact ⟨rfl, rfl, rfl, rfl, rfl⟩
  obtain ⟨ho, hs, hd, hr, hc⟩ := hmark
  have hlen := nudgeLength_of_outer ho
  have hnudge := hreport.nudge
  have hrelease := hreport.release
  rw [hlen, hc] at hnudge
  rw [hlen, hd, hc] at hrelease
  exact
    { outer := hreport.outer.trans ho
      staged := hreport.staged.trans hs
      dir := hreport.dir.trans hd
      retained := hreport.retained.trans hr
      nudge := hnudge
      release := hrelease
      unstaged := fun h => by rw [hhold] at h; cases h
      moving := fun h => by rw [hhold] at h; cases h }

theorem underway_arrivalTest (s : State) : Underway s (arrivalTest s) := by
  unfold arrivalTest
  split
  · split
    · rename_i hm
      simp only []
      split
      · split
        · exact .inl (carried_limited hm)
        · exact underway_arrive s
      · split
        · exact .inl (.refl s)
        · exact .inl (carried_report _ _ s)
    · exact .inl (.refl s)
  · exact .inl (.refl s)

theorem Ended.of_inner {v : State} (h : Ended s t) (hi : v.inner = t.inner) (ho : v.outer = t.outer) : Ended s v where
  outer := ho.trans h.outer
  mode := (congrArg Inner.mode hi).trans h.mode
  stage := (congrArg Inner.stage hi).trans h.stage
  content := (congrArg (fun i => i.retained.content) hi).trans h.content
  nudge := (congrArg Inner.nudgeDue hi).trans h.nudge
  release := (congrArg Inner.release hi).trans h.release

theorem Ended.quiet (h : Ended s t) : Quiet t :=
  ⟨by rw [h.mode]; exact nofun, by rw [h.mode]; exact nofun⟩

theorem underway_readers (h : s.stagedRec.isSome = true) : Underway s (readers s) := by
  have hshare := carried_shareEval s
  rcases hshare.underway (underway_awaitTest _) with hc | he
  · have hrest := hc.trans (carried_restTest _)
    exact .inl (hrest.trans (evaluates_evaluate (.inl (hrest.staged.trans h))).carried)
  · unfold readers evaluate
    rw [restTest_quiet he.quiet, if_neg he.quiet.1]
    exact .inr (he.of_inner rfl (outer_ceilingIdle _))

theorem underway_settle (n : Nat) (h : s.stagedRec.isSome = true) : Underway s (settle n s) := by
  induction n generalizing s with
  | zero => exact .inl (.refl s)
  | succ n ih =>
    rw [settle_succ]
    split
    · have hclear : Carried s (clearNotice s) := { Carried.refl s with }
      rcases hclear.underway (underway_readers (hclear.staged.trans h)) with hc | he
      · exact hc.underway (ih (hc.staged.trans h))
      · exact .inr (he.of_inner (settle_quiet n he.quiet) (outer_settle n _))
    · exact .inl (.refl s)

/-- A staged station ends a command as it began it, but for the entry that the command makes; or its staging has
ended. -/
theorem underway_finish (h : s.stagedRec.isSome = true) : Underway s (finish s) := by
  obtain ⟨busy, shown, hf⟩ := finish_eq_settled s
  have houter : (finish s).outer = s.outer := outer_finish s
  rw [hf] at houter ⊢
  exact (underway_settle settleRounds h).imp (fun hc => { hc with outer := houter })
    fun he => { he with outer := houter }

end Sys2Proof.Machine

/-! ### What an arrival test comes to (R80 to R82, R84, R90) -/

namespace Sys2Proof.Machine

variable {r : StagedRec} {dir : Direction} {h : Int} {s t u v : State}

/-- The arrival test of a staged station in MOVING, case by case (R80, R81). -/
theorem arrivalTest_eq (hm : v.mode = .moving) (hr : v.stage.record = .staged r) (hl : v.lift = some h) :
    arrivalTest v =
      if -(v.cfg.a : Int) ≤ r.effTarget - h ∧ r.effTarget - h ≤ v.cfg.a then
        if r.effTarget ≠ r.target ∧ r.limitReported = false then report .travelLimit none (markLimitReported v)
        else arrive v
      else if (v.stage.dir = .raise ∧ (v.cfg.a : Int) < r.effTarget - h) ∨
          (v.stage.dir = .lower ∧ r.effTarget - h < -(v.cfg.a : Int)) then v
      else report .drift none v := by
  unfold arrivalTest
  rw [(stagedRec_eq_some v r).mpr hr, hl]
  simp only [if_pos hm]

theorem arrive_hands (h : v.stage.dir ≠ .lower ∨ v.pawl.state = .set) : arrive v = handOverArrival v := if_pos h

theorem handOverArrival_setdown (hr : v.stage.record = .staged r) (hs : r.stage = .setdown) :
    handOverArrival v = endStaging v := by
  unfold handOverArrival State.stageIx
  rw [(stagedRec_eq_some v r).mpr hr, Option.map_some, hs]

theorem handOverArrival_stage (hr : v.stage.record = .staged r) (hs : r.stage ≠ .setdown) :
    handOverArrival v = enterSettled v := by
  unfold handOverArrival State.stageIx
  rw [(stagedRec_eq_some v r).mpr hr, Option.map_some]
  cases hk : r.stage with
  | setdown => exact absurd hk hs
  | stage k => rfl

theorem finish_endStaging (s : State) : Ended s (finish (endStaging s)) :=
  have h := ended_endStaging s
  h.of_inner (finish_quiet h.quiet) (outer_finish _)

/-- A settled arrival stays SETTLED or finds rest, at its stage (R82, R173). -/
theorem finish_enterSettled (s : State) :
    ((finish (enterSettled s)).mode = .settled ∨ (finish (enterSettled s)).mode = .idle) ∧
      (finish (enterSettled s)).stage = { s.stage with awaitingSet := false } ∧
      (finish (enterSettled s)).engine = (enterSettled s).engine ∧
      (finish (enterSettled s)).retained = s.retained := by
  have he := entered_enterSettled s
  have hf := settlesAtRest_finish (s := enterSettled s) (by rw [mode_enterSettled]; exact nofun)
  refine ⟨?_, ?_, hf.engine, hf.retained.trans he.retained⟩
  · rcases hf.mode with hm | ⟨-, hm⟩
    · exact .inl (hm.trans (mode_enterSettled s))
    · exact .inr hm
  · rw [hf.stage_of_not_awaiting (by rw [he.stage]), he.stage]

/-- The wait for SET: the pawl goes or stays off SET, and an evaluation is asked for (R82). -/
theorem arrive_waits (hd : v.stage.dir = .lower) (hp : v.pawl.state = .withdrawn ∨ v.pawl.state = .setting) :
    (arrive v).mode = v.mode ∧ (arrive v).stage = { v.stage with awaitingSet := true } ∧
      (arrive v).pawl.state ≠ .set ∧ (v.notice = true → (arrive v).notice = true) := by
  have hset : v.pawl.state ≠ .set := by rcases hp with hp | hp <;> rw [hp] <;> exact nofun
  have hnot : ¬ (v.stage.dir ≠ .lower ∨ v.pawl.state = .set) := fun hc =>
    hc.elim (fun h => h hd) hset
  unfold arrive
  rw [if_neg hnot]
  simp only []
  split
  · exact ⟨rfl, rfl, hset, id⟩
  · have hm := motionOnly_pawlSet (.refl { v with stage := { v.stage with awaitingSet := true } })
    refine ⟨congrArg ModeCtl.mode hm.modeCtl, hm.stage, ?_,
      fun hn => (steady_pawlSet { v with stage := { v.stage with awaitingSet := true } }).notice hn⟩
    rcases hp with hp | hp
    · rw [pawl_pawlSet_withdrawn (s := { v with stage := { v.stage with awaitingSet := true } }) hp]
      exact nofun
    · rw [(pawlSet_still (s := { v with stage := { v.stage with awaitingSet := true } }) (.inr hp)).1]
      exact hset

/-- An arrival that waits has settled at the end of its command (R82, R90). -/
theorem finish_awaits (hs : AwaitsSet s) (hn : s.notice = true) (hp : s.pawl.state ≠ .set) :
    (finish s).mode = .moving ∧ (finish s).stage = s.stage ∧ (finish s).pawl.state ≠ .set ∧
      ArrivedAtRest (finish s) := by
  have he := evaluates_finish hs.toStaysMoving
  have harrived := arrivedAtRest_settle 10 hs hn
  refine ⟨he.shareRead.mode.trans hs.mode, he.stage, by rw [he.pawl hp]; exact hp, ?_⟩
  obtain ⟨busy, shown, hf⟩ := finish_eq_settled s
  rw [hf]
  exact harrived

/-! ### What an occurrence leaves of the stage (R167, R175) -/

@[simp] theorem stage_latchAt (p : Place) (n : Option Nat) (k : FaultKind) (s : State) :
    (latchAt p n k s).stage = s.stage := by
  obtain ⟨faults, a, b, notice, h⟩ := latchAt_eq p n k s; rw [h]
@[simp] theorem retained_latchAt (p : Place) (n : Option Nat) (k : FaultKind) (s : State) :
    (latchAt p n k s).retained = s.retained := by
  obtain ⟨faults, a, b, notice, h⟩ := latchAt_eq p n k s; rw [h]
@[simp] theorem stage_placeHalt (k : FaultKind) (s : State) : (placeHalt k s).stage = s.stage := by
  unfold placeHalt
  split
  · rfl
  · split <;> rfl
@[simp] theorem retained_placeHalt (k : FaultKind) (s : State) : (placeHalt k s).retained = s.retained := by
  unfold placeHalt
  split
  · rfl
  · split <;> rfl

/-- A hold-class occurrence in MOVING ends the wait for SET and keeps the rest of the stage (R82, R175). -/
theorem stage_holdReport {k : FaultKind} (hk : holdClass k = true) (n : Option Nat) (hm : s.mode = .moving) :
    (report k n s).stage = { s.stage with awaitingSet := false } ∧ (report k n s).retained = s.retained := by
  have hnot : haltClass k = false := by revert hk; cases k <;> decide
  have hentered := entered_enterHold (latchAt (placeNow s) n k s)
  have hcond : (holdClass k && (latchAt (placeNow s) n k s).mode == .moving) = true := by
    rw [mode_latchAt, hm, hk]; rfl
  unfold report reportAt modeOnFault
  rw [hnot, if_neg nofun, if_pos hcond]
  exact ⟨hentered.stage.trans (by rw [stage_latchAt]), hentered.retained.trans (retained_latchAt ..)⟩

/-- A halt-class occurrence ends the wait for SET where it halts, and keeps the rest of the stage (R82, R167). -/
theorem stage_haltReport {k : FaultKind} (hk : haltClass k = true) (n : Option Nat) (s : State) :
    (report k n s).stage =
        (if s.mode = .rollcall ∨ s.mode = .barred ∨ s.mode = .halted then s.stage
         else { s.stage with awaitingSet := false }) ∧
      (report k n s).retained = s.retained := by
  have hentered := entered_enterHalted (latchAt (placeNow s) n k s)
  unfold report reportAt
  rw [modeOnFault_halt hk, mode_latchAt]
  split
  · exact ⟨by rw [stage_placeHalt, stage_latchAt], by rw [retained_placeHalt, retained_latchAt]⟩
  · refine ⟨?_, ?_⟩
    · rw [stage_placeHalt]
      exact hentered.stage.trans (by rw [stage_latchAt])
    · rw [retained_placeHalt]
      exact hentered.retained.trans (retained_latchAt ..)

/-- A report of DRIFT halts a station in MOVING (R80, R167). -/
theorem finish_drift (hm : v.mode = .moving) :
    (finish (report .drift none v)).mode = .halted ∧ (finish (report .drift none v)).latched .drift = true ∧
      (finish (report .drift none v)).stage = { v.stage with awaitingSet := false } := by
  obtain ⟨hfault, -, hmode, -, -, -⟩ := finish_haltReportAt (k := .drift) rfl (placeNow v) none v
  have hinner := finish_quiet (quiet_haltReportAt (k := .drift) rfl (placeNow v) none v)
  have hstage := (stage_haltReport (k := .drift) rfl none v).1
  rw [hm] at hmode hstage
  refine ⟨hmode, ?_, (congrArg Inner.stage hinner).trans hstage⟩
  show ((finish (reportAt (placeNow v) .drift none v)).fault .drift).latched = true
  rw [hfault]
  rfl

/-- TRAVEL_LIMIT in MOVING holds the station (R80, R175). -/
theorem finish_travelLimit (hm : v.mode = .moving) :
    (finish (report .travelLimit none v)).mode = .hold ∧
      (finish (report .travelLimit none v)).latched .travelLimit = true ∧
      (finish (report .travelLimit none v)).stage = { v.stage with awaitingSet := false } := by
  have hmode : (report .travelLimit none v).mode = .hold := by rw [mode_holdReport rfl, if_pos hm]
  have hinner := finish_quiet (s := report .travelLimit none v)
    (by unfold Quiet; rw [hmode]; exact ⟨nofun, nofun⟩)
  refine ⟨(congrArg Inner.mode hinner).trans hmode, ?_,
    (congrArg Inner.stage hinner).trans (stage_holdReport rfl none hm).1⟩
  refine (congrArg (fun i => (i.faults .travelLimit).1) hinner).trans ?_
  show ((report .travelLimit none v).fault .travelLimit).latched = true
  rw [fault_report, if_pos rfl]
  rfl

/-- TRAVEL_LIMIT at an effective target that is not the target is reported once (R80). -/
theorem finish_limited (hm : v.mode = .moving) (hr : v.stage.record = .staged r) :
    (finish (report .travelLimit none (markLimitReported v))).mode = .hold ∧
      (finish (report .travelLimit none (markLimitReported v))).latched .travelLimit = true ∧
      (finish (report .travelLimit none (markLimitReported v))).stage.record =
        .staged { r with limitReported := true } := by
  have hmark : markLimitReported v =
      { v with stage := { v.stage with record := .staged { r with limitReported := true } } } := by
    unfold markLimitReported; rw [hr]
  have hmode : (markLimitReported v).mode = .moving := by rw [hmark]; exact hm
  have hrecord : (markLimitReported v).stage.record = .staged { r with limitReported := true } := by rw [hmark]
  obtain ⟨hhold, hlatched, hstage⟩ := finish_travelLimit hmode
  exact ⟨hhold, hlatched, by rw [hstage]; exact hrecord⟩

/-- What a state that has its arrival test comes to, told of the state `s` whose plan, band and pawl it has. -/
theorem arrivalTested (hm : v.mode = .moving) (hst : v.stage = ⟨.staged r, dir, false⟩) (hl : v.lift = some h)
    (hn : v.notice = true) (hcfg : v.cfg = s.cfg) (hplan : v.plan = s.plan)
    (hset : s.pawl.state = .set → v.pawl.state = .set)
    (hoff : s.pawl.state = .withdrawn ∨ s.pawl.state = .setting →
      v.pawl.state = .withdrawn ∨ v.pawl.state = .setting)
    (hband : InBand s → outOfBand (shareOf v) = false) : ArrivalTested s (finish (arrivalTest v)) r dir h := by
  have hr : v.stage.record = .staged r := by rw [hst]
  have hd : v.stage.dir = dir := by rw [hst]
  have hstaged : v.stagedRec.isSome = true := by rw [(stagedRec_eq_some v r).mpr hr]; rfl
  have heq := arrivalTest_eq hm hr hl
  rw [hcfg, hd] at heq
  refine ⟨fun h₁ h₂ hne hnot => ?_, fun h₁ h₂ hat hnow => ?_, fun h₁ h₂ hat hlow hp hb => ?_, fun hshort hb => ?_,
    fun hover => ?_, fun hmode => ?_⟩
  · rw [heq, if_pos ⟨h₁, h₂⟩, if_pos ⟨hne, hnot⟩]
    exact finish_limited hm hr
  · have harrive : arrivalTest v = handOverArrival v := by
      rw [heq, if_pos ⟨h₁, h₂⟩, if_neg (fun hc => hat.elim hc.1 fun ht => by rw [hc.2] at ht; cases ht)]
      exact arrive_hands (by rw [hd]; exact hnow.imp_right hset)
    rw [harrive]
    split
    · rename_i hs
      rw [handOverArrival_setdown hr hs]
      have he := finish_endStaging v
      exact ⟨he.mode, he.stage, he.content.trans (by rw [hplan])⟩
    · rename_i hs
      rw [handOverArrival_stage hr hs]
      obtain ⟨hmode, hstage, -, -⟩ := finish_enterSettled v
      exact ⟨hmode, by rw [hstage]; exact hr⟩
  · have harrive : arrivalTest v = arrive v := by
      rw [heq, if_pos ⟨h₁, h₂⟩, if_neg (fun hc => hat.elim hc.1 fun ht => by rw [hc.2] at ht; cases ht)]
    obtain ⟨hmode, hstage, hp', hnotice⟩ := arrive_waits (v := v) (hd.trans hlow) (hoff hp)
    rw [harrive]
    have hrecord : (arrive v).stage.record = v.stage.record := by rw [hstage]
    have houter := outer_arrive v
    have hread : ShareRead v (arrive v) :=
      ⟨congrArg Outer.table houter, hrecord, hmode, travel_of_outer houter, congrArg Outer.straps houter,
        congrArg (fun o => o.settings.inForce) houter, congrArg Outer.present houter⟩
    have hstaged' : (arrive v).stagedRec.isSome = true := (isSome_stagedRec hrecord).trans hstaged
    obtain ⟨hm', hstage', hpawl', harrived⟩ := finish_awaits (s := arrive v)
      { mode := hmode.trans hm
        band := by rw [hread.shareOf]; exact hband hb
        waits := fun _ => hp'
        room := .inl hstaged'
        awaiting := by rw [hstage]
        staged := hstaged' }
      (hnotice hn) hp'
    exact ⟨hm', hstage'.trans (by rw [hstage, hst]), hpawl', harrived⟩
  · have hstays : arrivalTest v = v := by
      rw [heq, if_neg (fun hc => by rcases hshort with ⟨-, hx⟩ | ⟨-, hx⟩ <;> omega), if_pos hshort]
    have he := evaluates_finish (s := v)
      ⟨hm, hband hb, fun hw => absurd hw (by rw [hst]; exact nofun), .inl hstaged⟩
    rw [hstays]
    exact ⟨he.shareRead.mode.trans hm, he.shareRead.record.trans hr, (congrArg StageCtl.dir he.stage).trans hd⟩
  · have hdrift : arrivalTest v = report .drift none v := by
      rw [heq, if_neg (fun hc => by rcases hover with ⟨-, hx⟩ | ⟨-, hx⟩ <;> omega), if_neg (fun hc => by
        rcases hover with ⟨hno, hx⟩ | ⟨hno, hx⟩ <;> rcases hc with ⟨hyes, hy⟩ | ⟨hyes, hy⟩
        · exact hno hyes
        · omega
        · omega
        · exact hno hyes)]
    obtain ⟨hmode, hlatched, hstage⟩ := finish_drift hm
    rw [hdrift]
    exact ⟨hmode, hlatched, by rw [hstage]; exact hr⟩
  · rcases underway_arrivalTest v with hc | he
    · rcases hc.underway (underway_finish (hc.staged.trans hstaged)) with hc' | he'
      · exact hc'.dir.trans hd
      · exact absurd he'.mode hmode
    · exact absurd ((congrArg Inner.mode (finish_quiet he.quiet)).trans he.mode) hmode

end Sys2Proof.Machine

/-! ## Entry to MOVING (O34, O37, O41) -/

namespace Sys2Proof.Machine

variable {r : StagedRec} {dir : Direction} {h : Int} {s t u v w : State}

/-! ### The band, read of a stage entry's record (R64, R160, R161) -/

/-- The part of the table that the band is told from: the self row's reported fields are the station's own state. -/
def bandTable (s : State) : Option (RowFixed × Liveness × List Row) :=
  s.table.map fun a => (a.selfFixed, a.selfMarks.live, a.peers)

/-- The band of two states is the same: it is not told of the stage record, the mode or the height of the column. -/
structure BandRead (s t : State) : Prop where
  table : bandTable t = bandTable s
  lift : t.lift.isSome = s.lift.isSome
  straps : t.straps = s.straps
  cfg : t.cfg = s.cfg
  present : t.loadMon.present = s.loadMon.present

theorem BandRead.cases (h : BandRead s t) :
    s.table = none ∧ t.table = none ∨
      ∃ a b, s.table = some a ∧ t.table = some b ∧ b.selfFixed = a.selfFixed ∧
        b.selfMarks.live = a.selfMarks.live ∧ b.peers = a.peers := by
  have ht := h.table
  unfold bandTable at ht
  cases ha : s.table with
  | none =>
    rw [ha] at ht
    exact .inl ⟨rfl, Option.map_eq_none_iff.mp ht⟩
  | some a =>
    rw [ha] at ht
    obtain ⟨b, hb, hab⟩ := Option.map_eq_some_iff.mp ht
    simp only [Prod.mk.injEq] at hab
    exact .inr ⟨a, b, rfl, hb, hab.1, hab.2.1, hab.2.2⟩

theorem BandRead.carRows (h : BandRead s t) :
    (carRows t).map (fun r => (r.report.load, r.fixed.share)) =
      (carRows s).map fun r => (r.report.load, r.fixed.share) := by
  unfold Machine.carRows
  rw [h.straps]
  rcases h.cases with ⟨hs, ht⟩ | ⟨a, b, hs, ht, hfixed, hmarks, hpeers⟩
  · rw [allRows_of_none ht, allRows_of_none hs]
  · have hstaged : (selfRow t b).isStaged = (selfRow s a).isStaged := h.lift
    have hlive : (selfRow t b).isLive = (selfRow s a).isLive := congrArg (· == Liveness.live) hmarks
    have hcar : (selfRow t b).fixed = (selfRow s a).fixed := hfixed
    rw [allRows_of_some ht, allRows_of_some hs, List.filter_cons, List.filter_cons, hlive, hstaged, hcar, hpeers]
    split
    · have hself : ((selfRow t b).report.load, (selfRow t b).fixed.share) =
          ((selfRow s a).report.load, (selfRow s a).fixed.share) := by
        rw [hcar]
        exact congrArg (fun x => (x, (selfRow s a).fixed.share)) h.present
      rw [List.map_cons, List.map_cons, hself]
    · rfl

theorem BandRead.inBand (h : BandRead s t) (hs : InBand s) : InBand t := by
  have hload := congrArg (fun l => (l.map Prod.fst).sum) h.carRows
  have hshare := congrArg (fun l => (l.map Prod.snd).sum) h.carRows
  simp only [List.map_map] at hload hshare
  have hw : totalW t = totalW s := hload
  have hu : totalU t = totalU s := hshare
  have hlive : selfLive t = selfLive s := by
    unfold Machine.selfLive
    rcases h.cases with ⟨hs, ht⟩ | ⟨a, b, hs, ht, -, hmarks, -⟩
    · rw [hs, ht]
    · rw [hs, ht]; exact congrArg (· == Liveness.live) hmarks
  unfold InBand
  rw [h.lift, hlive, h.cfg, hw, hu, h.present, h.straps]
  exact hs

theorem bandRead_of_outer (ho : t.outer = s.outer) (hs : t.stage.record = s.stage.record) : BandRead s t where
  table := congrArg (Option.map _) (congrArg Outer.table ho : t.table = s.table)
  lift := congrArg Option.isSome (lift_of_record hs (travel_of_outer ho))
  straps := congrArg Outer.straps ho
  cfg := congrArg (fun o => o.settings.inForce) ho
  present := congrArg Outer.present ho

theorem BandRead.symm (h : BandRead s t) : BandRead t s :=
  ⟨h.table.symm, h.lift.symm, h.straps.symm, h.cfg.symm, h.present.symm⟩

/-- In MOVING a column that is not in its band is found out of band (R161, R162). -/
theorem shareOf_of_not_inBand (hm : s.mode = .moving) (h : ¬ InBand s) : outOfBand (shareOf s) = true := by
  unfold InBand at h
  simp only [Classical.not_imp] at h
  obtain ⟨hlift, hlive, hw, hout⟩ := h
  rw [shareOf_active hlift (.inl hm) hlive hw]
  split
  · rfl
  · split
    · rfl
    · exact absurd ⟨by omega, by omega⟩ hout

/-! ### The state in which the share is evaluated (R97, R166) -/

/-- The state of an entry to MOVING before its share evaluation. -/
def beforeMoving (s : State) : State :=
  if (setMode .moving (endJog s)).stagedRec.isSome ∧ (setMode .moving (endJog s)).stage.dir = .lower then
    { setMode .moving (endJog s) with ceiling := { (setMode .moving (endJog s)).ceiling with nudgeDue := true } }
  else setMode .moving (endJog s)

theorem enterMoving_eq (s : State) : enterMoving s = arrivalTest (shareEval (beforeMoving s)) := rfl

/-- A set command leaves a pawl at SET, and one that goes or is WITHDRAWN goes to SET (R144). -/
theorem pawlState_pawlSet (s : State) :
    (s.pawl.state = .set → (pawlSet s).pawl.state = .set) ∧
      (s.pawl.state = .withdrawn ∨ s.pawl.state = .setting → (pawlSet s).pawl.state = .setting) := by
  refine ⟨fun h => ?_, fun h => ?_⟩
  · rw [(pawlSet_still (.inl h)).1]
    exact h
  · rcases h with h | h
    · rw [pawl_pawlSet_withdrawn h]
    · rw [(pawlSet_still (.inr h)).1]
      exact h

theorem pawlState_endJog (s : State) :
    (s.pawl.state = .set → (endJog s).pawl.state = .set) ∧
      (s.pawl.state = .withdrawn ∨ s.pawl.state = .setting →
        (endJog s).pawl.state = .withdrawn ∨ (endJog s).pawl.state = .setting) := by
  unfold endJog
  split
  · exact ⟨id, id⟩
  · split
    · obtain ⟨hset, hoff⟩ := pawlState_pawlSet (dropJog s)
      exact ⟨hset, fun h => .inr (hoff h)⟩
    · exact ⟨id, id⟩

theorem jog_endJog (s : State) : (endJog s).engine.jog = .none := by
  unfold endJog
  split
  · assumption
  · split
    · exact (windsDown_pawlSet False (dropJog s)).jog rfl
    · rfl

/-- What an entry to MOVING has written before its share evaluation (R97, R140, R166). -/
structure BeforeMoving (s v : State) : Prop where
  outer : v.outer = s.outer
  mode : v.mode = .moving
  stage : v.stage = { s.stage with awaitingSet := false }
  retained : v.retained = s.retained
  record : v.record = s.record
  share : v.loadMon.share = s.loadMon.share
  notice : v.notice = true
  jog : v.engine.jog = .none
  set : s.pawl.state = .set → v.pawl.state = .set
  off : s.pawl.state = .withdrawn ∨ s.pawl.state = .setting → v.pawl.state = .withdrawn ∨ v.pawl.state = .setting
  nudge : s.stagedRec.isSome = true → s.stage.dir = .lower → v.ceiling.nudgeDue = true
  release : v.ceiling.release = s.ceiling.release

theorem flags_of_eq (h : t.flags = s.flags) :
    t.ceiling.nudgeDue = s.ceiling.nudgeDue ∧ t.ceiling.release = s.ceiling.release :=
  ⟨congrArg Prod.fst h, congrArg Prod.snd h⟩

theorem beforeMoving_spec (s : State) : BeforeMoving s (beforeMoving s) := by
  have hjog := motionOnly_endJog (.refl s)
  obtain ⟨a, b, hm⟩ := setMode_eq .moving (endJog s)
  have hbase : ∀ nudge, (nudge = true ∨ ¬ (s.stagedRec.isSome = true ∧ s.stage.dir = .lower)) →
      BeforeMoving s { setMode .moving (endJog s) with
        ceiling := { (setMode .moving (endJog s)).ceiling with nudgeDue := nudge } } := fun nudge hn =>
    { outer := (outer_setMode ..).trans (outer_endJog s)
      mode := mode_setMode ..
      stage := by
        rw [hm]
        show { (endJog s).stage with awaitingSet := false } = _
        rw [hjog.stage]
      retained := by
        rw [hm]
        exact hjog.retained
      record := (record_setMode ..).trans (record_endJog s)
      share := ((steady_endJog s).trans (steady_setMode ..)).share
      notice := by rw [hm]
      jog := by
        rw [hm]
        exact jog_endJog s
      set := by
        rw [hm]
        exact (pawlState_endJog s).1
      off := by
        rw [hm]
        exact (pawlState_endJog s).2
      nudge := fun hs hd => hn.resolve_right fun hc => hc ⟨hs, hd⟩
      release := (flags_of_eq ((flags_setMode ..).trans (flags_endJog s))).2 }
  have hcond : (setMode .moving (endJog s)).stagedRec.isSome = s.stagedRec.isSome ∧
      (setMode .moving (endJog s)).stage.dir = s.stage.dir := by
    rw [hm]
    refine ⟨isSome_stagedRec ?_, ?_⟩
    · exact (congrArg StageCtl.record hjog.stage :)
    · exact (congrArg StageCtl.dir hjog.stage :)
  unfold beforeMoving
  rw [hcond.1, hcond.2]
  split
  · exact hbase true (.inl rfl)
  · exact hbase (setMode .moving (endJog s)).ceiling.nudgeDue (.inr ‹_›)

/-! ### What the entry comes to -/

theorem record_beforeMoving (hr : w.stage.record = .staged r) : (beforeMoving w).stage.record = .staged r := by
  rw [(beforeMoving_spec w).stage]
  exact hr

theorem staged_beforeMoving (hr : w.stage.record = .staged r) : (beforeMoving w).stagedRec.isSome = true := by
  rw [(stagedRec_eq_some _ r).mpr (record_beforeMoving hr)]
  rfl

/-- An entry of a staged station to MOVING carries it, or ends its staging. -/
theorem underway_enterMoving (hr : w.stage.record = .staged r) :
    Underway (beforeMoving w) (finish (enterMoving w)) := by
  have hshare := carried_shareEval (beforeMoving w)
  rw [enterMoving_eq]
  rcases hshare.underway (underway_arrivalTest _) with hc | he
  · exact hc.underway (underway_finish (hc.staged.trans (staged_beforeMoving hr)))
  · exact .inr (he.of_inner (finish_quiet he.quiet) (outer_finish _))

/-- A share evaluation that leaves the band ends an entry to MOVING in HOLD (R132, R162, R163, R175). -/
theorem heldForShare (hm : v.mode = .moving) (hr : v.stage.record = .staged r)
    (hwas : outOfBand v.loadMon.share = false) (hnow : outOfBand (shareOf v) = true)
    (hlatched : v.latched .loadShare = false) (hplace : columnPlace v = columnPlace s)
    (htime : v.timeBase = s.timeBase) (hcount : (v.fault .loadShare).count = (s.fault .loadShare).count)
    (hsnap : (v.fault .loadShare).snapshot = (s.fault .loadShare).snapshot) :
    HeldForShare s (finish (arrivalTest (shareEval v))) r := by
  have hmode : (setActive .loadShare true (writeShare v)).mode = .moving := hm
  have heval := shareEval_leaves hwas hnow
  have hhold : (shareEval v).mode = .hold := by rw [heval, mode_holdReport rfl, if_pos hmode]
  have hnone : arrivalTest (shareEval v) = shareEval v := by
    unfold arrivalTest
    split
    · rw [hhold, if_neg nofun]
    · rfl
  have hq : Quiet (shareEval v) := by rw [Quiet, hhold]; exact ⟨nofun, nofun⟩
  have hnotice : (shareEval v).notice = true := by rw [heval]; exact notice_holdReport rfl none hmode
  have hshare : outOfBand (shareEval v).loadMon.share = true := by
    rw [heval, (steady_report ..).share]
    exact hnow
  obtain ⟨hends, hfault⟩ := finish_endsShare hq hnotice hshare
  have hin := finish_quiet hq
  have hfirst : (v.fault .loadShare).latched = false := hlatched
  rw [hnone]
  refine ⟨(congrArg Inner.mode hin).trans hhold, ?_, hends, ?_, ?_⟩
  · refine (congrArg (fun i => i.stage.record) hin).trans ?_
    show (shareEval v).stage.record = _
    rw [heval, (stage_holdReport rfl none hmode).1]
    exact hr
  · rw [hfault, fault_shareEval_share, if_pos hnow, if_neg (by rw [hwas]; exact nofun)]
    unfold recordAfter recordAfterAt
    rw [hfirst, if_neg nofun, hplace, htime, hcount, hsnap]
  · refine (congrArg Inner.lastStop hin).trans ?_
    show (shareEval v).modeCtl.lastStop = _
    rw [heval, lastStop_holdReport rfl, if_pos hmode]
    show some _ = _
    rw [show (setActive .loadShare true (writeShare v)).timeBase = s.timeBase from htime]

/-- A state `w` that enters MOVING has the rows, the lift and the pawl of `u`, and of LOAD_SHARE the counts of `s` with
no latch; `u` has the time base, the settings and the travel of `s`. -/
structure EntryFrom (s u w : State) : Prop where
  outer : w.outer = u.outer
  lift : w.lift = u.lift
  pawl : w.pawl = u.pawl
  share : w.loadMon.share = s.loadMon.share
  place : columnPlace w = columnPlace s
  latched : w.latched .loadShare = false
  count : (w.fault .loadShare).count = (s.fault .loadShare).count
  snapshot : (w.fault .loadShare).snapshot = (s.fault .loadShare).snapshot
  timeBase : u.timeBase = s.timeBase
  cfg : u.cfg = s.cfg
  travel : u.engine.travel = s.engine.travel

theorem EntryFrom.bandRead (k : EntryFrom s u w) : BandRead u (beforeMoving w) := by
  have hb := beforeMoving_spec w
  have houter := hb.outer.trans k.outer
  exact
    { table := congrArg (Option.map _) (congrArg Outer.table houter : (beforeMoving w).table = u.table)
      lift := congrArg Option.isSome ((lift_of_record (by rw [hb.stage]) (travel_of_outer hb.outer)).trans k.lift)
      straps := congrArg Outer.straps houter
      cfg := congrArg (fun o => o.settings.inForce) houter
      present := congrArg Outer.present houter }

/-- The entry of a staged station to MOVING (R80, R81, R97, R162, R163). -/
theorem entersMoving (k : EntryFrom s u w) (hr : w.stage.record = .staged r) (hd : w.stage.dir = dir)
    (hl : w.lift = some h) : EntersMoving s u (finish (enterMoving w)) r dir h := by
  have hb := beforeMoving_spec w
  have hband := k.bandRead
  have hstaged : w.stagedRec.isSome = true := by rw [(stagedRec_eq_some w r).mpr hr]; rfl
  have houter := hb.outer.trans k.outer
  have hunder := underway_enterMoving hr
  refine ⟨fun hin => ?_, fun hout hwas => ?_, fun hmode hlow hn ht => ?_, fun hmode => ?_⟩
  · have hnow := inBand_shareOf (hband.inBand hin)
    have he := evaluates_shareEval hnow
    obtain ⟨hinner, hnotice, hstands⟩ := inner_shareEval_inBand hnow
    have hpawl : (shareEval (beforeMoving w)).pawl = (beforeMoving w).pawl := congrArg Inner.pawl hinner
    refine arrivalTested (v := shareEval (beforeMoving w)) (he.shareRead.mode.trans hb.mode) ?_ ?_
      (hnotice.trans hb.notice) ?_ ?_ ?_ ?_ fun _ => by rw [he.shareRead.shareOf]; exact hnow
    · rw [he.stage, hb.stage, ← hr, ← hd]
    · exact he.shareRead.lift.trans ((lift_of_record (by rw [hb.stage]) (travel_of_outer hb.outer)).trans hl)
    · exact congrArg (fun o => o.settings.inForce) (he.outer.trans houter)
    · exact congrArg Outer.plan (he.outer.trans houter)
    · rw [hpawl, ← k.pawl]
      exact hb.set
    · rw [hpawl, ← k.pawl]
      exact hb.off
  · have hfault := fault_of_record hb.record .loadShare
    rw [enterMoving_eq]
    refine heldForShare (v := beforeMoving w) hb.mode (record_beforeMoving hr) ?_
      (shareOf_of_not_inBand hb.mode fun hin => hout (hband.symm.inBand hin)) ?_ ?_ ?_ ?_ ?_
    · rw [hb.share, k.share]
      rcases hwas with h | h <;> rw [h] <;> rfl
    · exact (congrArg FaultRec.latched hfault).trans k.latched
    · rw [← k.place]
      unfold columnPlace
      rw [hb.stage, travel_of_outer hb.outer]
    · exact (timeBase_of_outer houter).trans k.timeBase
    · exact (congrArg FaultRec.count hfault).trans k.count
    · exact (congrArg FaultRec.snapshot hfault).trans k.snapshot
  · rcases hunder with hc | he
    · refine (hc.nudge ?_).trans (hb.nudge hstaged (hd.trans hlow))
      rw [nudgeLength_of_outer houter]
      unfold nudgeLength
      rw [k.cfg, k.travel]
      show ¬ min s.cfg.n (240000 - s.engine.travel) = 0
      omega
    · exact absurd he.mode hmode
  · rcases hunder with hc | he
    · exact absurd ((hb.mode).symm.trans (hc.unstaged hmode)) nofun
    · exact he.nudge

end Sys2Proof.Machine

/-! ### ADVANCE in UNSTAGED (O37) -/

namespace Sys2Proof.Machine

variable {r : StagedRec} {s t u v w : State}

/-- The state that take-up enters MOVING from (R77). -/
def takesUp (s : State) : State := handRetained (notify { s with stage := { s.stage with dir := .raise } })

theorem takeUp_eq (s : State) : takeUp s = enterMoving (takesUp s) := rfl

/-- A station that takes up is neither tested for arrival nor checked for its share (R80, R160). -/
theorem takingUp (hr : v.stage.record = .unstaged) :
    outOfBand (shareOf v) = false ∧ arrivalTest v = v := by
  have hnone : v.stagedRec = none := by unfold State.stagedRec; rw [hr]
  constructor
  · unfold shareOf shareActive
    rw [hnone]
    rfl
  · unfold arrivalTest
    rw [hnone]

/-- An entry of a station that takes up to MOVING: nothing is tested, and no jog goes on (R77, R140). -/
theorem finish_enterMoving_unstaged (hr : w.stage.record = .unstaged) (ht : w.engine.travel < 240000) :
    (finish (enterMoving w)).mode = .moving ∧
      (finish (enterMoving w)).stage = { w.stage with awaitingSet := false } ∧
      (finish (enterMoving w)).engine.jog = .none ∧ (finish (enterMoving w)).retained = w.retained := by
  have hb := beforeMoving_spec w
  rw [enterMoving_eq]
  obtain ⟨hband, -⟩ := takingUp (v := beforeMoving w) (by rw [hb.stage]; exact hr)
  have he := evaluates_shareEval hband
  obtain ⟨hinner, -, hstands⟩ := inner_shareEval_inBand hband
  have hmode : (shareEval (beforeMoving w)).mode = .moving := he.shareRead.mode.trans hb.mode
  have hstage : (shareEval (beforeMoving w)).stage = { w.stage with awaitingSet := false } := by
    rw [he.stage, hb.stage]
  obtain ⟨hband', hnone⟩ := takingUp (v := shareEval (beforeMoving w)) (by rw [hstage]; exact hr)
  rw [hnone]
  have hfin := evaluates_finish (s := shareEval (beforeMoving w))
    { mode := hmode
      band := hband'
      waits := fun hw => by rw [hstage] at hw; cases hw
      room := .inr (by rw [travel_of_outer (he.outer.trans hb.outer)]; exact ht) }
  refine ⟨hfin.shareRead.mode.trans hmode, hfin.stage.trans hstage, ?_, ?_⟩
  · exact (windsDown_finish (g := False) False.elim).jog (by rw [hstands.engine]; exact hb.jog)
  · rw [hfin.retained, he.retained, hb.retained]

/-- Take-up: MOVING with no stage and direction raise, and no jog (R77, R140). -/
theorem finish_takeUp (hr : u.stage.record = .unstaged) (ht : u.engine.travel < 240000) :
    (finish (takeUp u)).mode = .moving ∧ (finish (takeUp u)).stage = ⟨.unstaged, .raise, false⟩ ∧
      (finish (takeUp u)).engine.jog = .none ∧
      (finish (takeUp u)).retained.content = ⟨none, .raise, u.plan.active⟩ := by
  obtain ⟨ret, hret⟩ := handRetained_eq (notify { u with stage := { u.stage with dir := .raise } })
  obtain ⟨hcontent, -, -⟩ := retained_handRetained (notify { u with stage := { u.stage with dir := .raise } })
  have hstage : (takesUp u).stage = ⟨.unstaged, .raise, u.stage.awaitingSet⟩ := by
    unfold takesUp
    rw [hret, ← hr]
    rfl
  have htravel : (takesUp u).engine.travel < 240000 := by
    unfold takesUp
    rw [hret]
    exact ht
  have hnow : retainedNow (notify { u with stage := { u.stage with dir := .raise } }) =
      ⟨none, .raise, u.plan.active⟩ := by
    unfold retainedNow
    simp only [notify, hr]
  obtain ⟨hmode, hstage', hjog, hretained⟩ := finish_enterMoving_unstaged (w := takesUp u) (by rw [hstage]) htravel
  rw [takeUp_eq]
  refine ⟨hmode, by rw [hstage', hstage], hjog, ?_⟩
  rw [hretained]
  exact hcontent.trans hnow

end Sys2Proof.Machine

open Sys2Proof Sys2Proof.Machine in
/-- Settles O37: take-up, entered from UNSTAGED. -/
theorem advanceTakesUp : Obligations.AdvanceTakesUp := by
  intro s f hprec hpay hmode hm hr ht hall hfault
  have hexec : exec (.advance f) s = .next (finish (takeAdvance f.station.toNat (heardFrom s (wireOrder 0 f)))) :=
    receiveOrder_fromMember rfl hprec hpay ⟨by rw [hmode]; exact nofun, by rw [hmode]; exact nofun⟩ hm
  have htake : takeAdvance f.station.toNat (heardFrom s (wireOrder 0 f)) = takeUp (heardFrom s (wireOrder 0 f)) := by
    unfold takeAdvance
    rw [mode_heardFrom, hmode, hall, hfault]
    rfl
  obtain ⟨hmoving, hstage, hjog, hcontent⟩ := finish_takeUp (u := heardFrom s (wireOrder 0 f))
    (by rw [stage_heardFrom]; exact hr) (by rw [engine_heardFrom]; exact ht)
  rw [plan_heardFrom] at hcontent
  rw [htake] at hexec
  refine ⟨_, hexec, hmoving, hstage, hjog, ?_, hcontent, ?_⟩
  · unfold State.lift State.stagedRec
    rw [hstage]
    rfl
  · exact (congrArg Outer.lastRefused ((outer_finish _).trans (outer_takeUp _))).trans
      (congrArg ModeCtl.lastRefused (modeCtl_heardFrom ..))

/-! ### Stage entry (O34) -/

namespace Sys2Proof.Machine

variable {r : StagedRec} {s t u v w : State}

/-- The target of R74's table. -/
theorem stageTarget_eq (s : State) (k : StageIx) :
    stageTarget s k =
      match k with
      | .setdown => -(s.cfg.d : Int)
      | .stage 0 => 0
      | .stage (j + 1) => ((s.plan.active[j]?).map fun e => (e.target : Int)).getD 0 := by
  unfold stageTarget stageEntryOf
  cases k with
  | setdown => rfl
  | stage n =>
    cases n with
    | zero => rfl
    | succ j => cases h : s.plan.active[j]? <;> simp [h]

/-- The effective target is the target held to the screw (R79). -/
theorem clampTarget_eq (z : Nat) (x : Int) :
    clampTarget z x = max (-(z : Int)) (min x (240000 - z)) := by
  unfold clampTarget
  show (if (240000 : Int) - z < x then (240000 : Int) - z else if x < -(z : Int) then -(z : Int) else x) = _
  split
  · omega
  · split <;> omega

/-- A stage entry from a stage record (R41, R76, R95). -/
theorem stageEntry_eq (k : StageIx) (hr : u.stage.record = .staged r) :
    ∃ ret, stageEntry k u =
        { u with
          stage :=
            { u.stage with
              record := .staged (stagedAt u r.contactZero k), dir := directionTo r.target (stageTarget u k) }
          ceiling := { u.ceiling with release := false }
          notice := true
          retained := ret } ∧
      ret.content = ⟨some ⟨r.contactZero, k⟩, directionTo r.target (stageTarget u k), u.plan.active⟩ := by
  obtain ⟨ret, hret⟩ := handRetained_eq (notify { u with
    stage :=
      { u.stage with
        record := .staged (stagedAt u r.contactZero k), dir := directionTo r.target (stageTarget u k) }
    ceiling := { u.ceiling with release := false } })
  obtain ⟨hcontent, -, -⟩ := retained_handRetained (notify { u with
    stage :=
      { u.stage with
        record := .staged (stagedAt u r.contactZero k), dir := directionTo r.target (stageTarget u k) }
    ceiling := { u.ceiling with release := false } })
  refine ⟨ret, ?_, ?_⟩
  · unfold stageEntry
    rw [hr]
    exact hret
  · rw [hret] at hcontent
    exact hcontent

/-- With no own fault no kind of the hold class is latched (R168). -/
theorem latched_of_ownFault {j : FaultKind} (h : ownFault s = false) (hj : holdClass j = true) :
    s.latched j = false := by
  unfold ownFault at h
  rw [List.any_eq_false] at h
  have hk := h j (mem_allKinds j)
  cases hl : s.latched j with
  | false => rfl
  | true => rw [hl, hj, Bool.or_true] at hk; exact absurd rfl hk

theorem fault_heardFrom {j : FaultKind} (hs : j ≠ .peerSilent) (hl : j ≠ .line) (f : WireFrame) (s : State) :
    (heardFrom s f).fault j = s.fault j :=
  (fault_signOfLife hs _ _).trans (fault_frameArrives hl f s)

theorem columnPlace_of_staged (hr : s.stage.record = .staged r) :
    columnPlace s = .lift ((s.engine.travel : Int) - r.contactZero) := by
  unfold columnPlace; rw [hr]

/-- What a stage entry has of the state that the command found, for the entry to MOVING. -/
theorem entryFrom_stageEntry (f : WireFrame) (k : StageIx) (hr : s.stage.record = .staged r)
    (hfault : ownFault (heardFrom s f) = false) :
    EntryFrom s (heardFrom s f) (stageEntry k (heardFrom s f)) := by
  have hr' : (heardFrom s f).stage.record = .staged r := by rw [stage_heardFrom]; exact hr
  have hrec := record_stageEntry k (heardFrom s f)
  have hsame := (fault_of_record hrec .loadShare).trans (fault_heardFrom (j := .loadShare) nofun nofun f s)
  have houter := outer_stageEntry k (heardFrom s f)
  obtain ⟨ret, heq, -⟩ := stageEntry_eq k hr'
  have hlift : ∀ x : State, x.stage.record = .staged (stagedAt (heardFrom s f) r.contactZero k) →
      x.lift = some ((x.engine.travel : Int) - r.contactZero) := fun x hx => (lift_of_staged hx :)
  refine ⟨houter, ?_, ?_, ?_, ?_, ?_, ?_, ?_, timeBase_heardFrom .., ?_, ?_⟩
  · rw [lift_of_staged hr', hlift _ (by rw [heq]), heq]
  · rw [heq]
  · rw [heq]
    exact congrArg LoadMon.share (loadMon_heardFrom ..)
  · rw [columnPlace_of_staged hr, heq, columnPlace_of_staged rfl]
    show Place.lift (((heardFrom s f).engine.travel : Int) - r.contactZero) = _
    rw [engine_heardFrom]
  · have hl := latched_of_ownFault (j := .loadShare) hfault rfl
    exact (congrArg FaultRec.latched (fault_of_record hrec .loadShare)).trans hl
  · rw [hsame]
  · rw [hsame]
  · exact congrArg SettingsMem.inForce (settings_heardFrom ..)
  · rw [engine_heardFrom]

/-- A stage entry with its entry to MOVING, as R74's table has its target. -/
theorem entersStage (f : WireFrame) (k : StageIx) (hr : s.stage.record = .staged r)
    (hfault : ownFault (heardFrom s f) = false) :
    EntersStage s (heardFrom s f) (finish (moveTo k (heardFrom s f))) r k := by
  have hr' : (heardFrom s f).stage.record = .staged r := by rw [stage_heardFrom]; exact hr
  have hplan : (heardFrom s f).plan = s.plan := plan_heardFrom ..
  have hcfg : (heardFrom s f).cfg = s.cfg := congrArg SettingsMem.inForce (settings_heardFrom ..)
  have hentry := entryFrom_stageEntry f k hr hfault
  obtain ⟨ret, heq, hcontent⟩ := stageEntry_eq k hr'
  have htarget := stageTarget_eq (heardFrom s f) k
  rw [hplan, hcfg] at htarget
  have hrecord : (stageEntry k (heardFrom s f)).stage.record =
      .staged (stagedAt (heardFrom s f) r.contactZero k) := by rw [heq]
  have hdir : (stageEntry k (heardFrom s f)).stage.dir =
      directionTo r.target (stageTarget (heardFrom s f) k) := by rw [heq]
  have hretained : (stageEntry k (heardFrom s f)).retained.content =
      ⟨some ⟨r.contactZero, k⟩, directionTo r.target (stageTarget (heardFrom s f) k), s.plan.active⟩ := by
    rw [heq, ← hplan]
    exact hcontent
  have hrelease : (stageEntry k (heardFrom s f)).ceiling.release = false := by rw [heq]
  have hlift := lift_of_staged hrecord
  have htravel : (stageEntry k (heardFrom s f)).engine.travel = s.engine.travel := by
    rw [travel_of_outer hentry.outer, engine_heardFrom]
  rw [htravel] at hlift
  have hmoves := entersMoving hentry hrecord hdir hlift
  have hunder := underway_enterMoving hrecord
  have hb := beforeMoving_spec (stageEntry k (heardFrom s f))
  have houter := hb.outer.trans hentry.outer
  have hall : (finish (enterMoving (stageEntry k (heardFrom s f)))).outer = (heardFrom s f).outer :=
    (outer_finish _).trans ((outer_enterMoving _).trans hentry.outer)
  unfold EntersStage
  intro target r' dir
  have ht : target = stageTarget (heardFrom s f) k := htarget.symm
  have hr'eq : r' = stagedAt (heardFrom s f) r.contactZero k := by
    show StagedRec.mk r.contactZero k target (max (-(r.contactZero : Int)) (min target (240000 - r.contactZero))) false
      = _
    rw [ht, ← clampTarget_eq]
    rfl
  have hdireq : dir = directionTo r.target (stageTarget (heardFrom s f) k) := by
    show (if r.target < target then Direction.raise else if target < r.target then .lower else .none) = _
    rw [ht]
    rfl
  clear_value r' dir
  subst hr'eq hdireq
  refine ⟨hmoves, ?_, ?_, fun hm => ?_, fun hm => ?_, fun hm => ?_, fun hclear => ?_⟩
  · exact (congrArg Outer.lastRefused hall).trans (congrArg ModeCtl.lastRefused (modeCtl_heardFrom ..))
  · exact (congrArg Outer.plan hall).trans hplan
  · rcases hunder with hc | he
    · rw [show (finish (moveTo k (heardFrom s f))).stage.record = _ from (hc.moving hm).2, hb.stage]
      exact hrecord
    · exact absurd (he.mode.symm.trans hm) nofun
  · rcases hunder with hc | he
    · refine ⟨hc.dir.trans (by rw [hb.stage]; exact hdir), ?_⟩
      rw [show (finish (moveTo k (heardFrom s f))).retained = _ from hc.retained, hb.retained]
      exact hretained
    · exact absurd he.mode hm
  · rcases hunder with hc | he
    · exact absurd (hb.mode.symm.trans (hc.unstaged hm)) nofun
    · rw [show (finish (moveTo k (heardFrom s f))).retained.content = _ from he.content,
        show (beforeMoving (stageEntry k (heardFrom s f))).plan = s.plan from (congrArg Outer.plan houter).trans hplan]
  · rcases hunder with hc | he
    · refine (hc.release ?_).trans (hb.release.trans hrelease)
      rw [hb.stage, hdir]
      by_cases hlow : directionTo r.target (stageTarget (heardFrom s f) k) = .lower
      · obtain ⟨hn, htr⟩ := hclear.resolve_left fun hno => hno hlow
        refine .inr ⟨hb.nudge (by rw [(stagedRec_eq_some _ _).mpr hrecord]; rfl) (hdir.trans hlow), ?_⟩
        rw [nudgeLength_of_outer houter]
        unfold nudgeLength
        rw [hcfg, engine_heardFrom]
        show ¬ min s.cfg.n (240000 - s.engine.travel) = 0
        omega
      · exact .inl hlow
    · exact he.release

/-- What the checks of R169 find in IDLE. -/
theorem groupCheck_passed (hl : allLive s = true) (hp : planAgreed s = true) (hf : ownFault s = false) :
    groupCheck s = none := by
  unfold groupCheck
  rw [hl, hp, hf]
  rfl

theorem stageIx_of_staged (hr : s.stage.record = .staged r) : s.stageIx = some r.stage := by
  unfold State.stageIx
  rw [(stagedRec_eq_some s r).mpr hr]
  rfl

end Sys2Proof.Machine

open Sys2Proof Sys2Proof.Machine in
/-- Settles O34: a stage entry up or down, and its entry to MOVING. -/
theorem ordersMoveStage : Obligations.OrdersMoveStage := by
  intro s f r k hprec hpay hmode hm hr hk up down agrees
  have htable : HasTable s := ⟨by rw [hmode]; exact nofun, by rw [hmode]; exact nofun⟩
  have hix : ∀ w, (heardFrom s w).stageIx = some (.stage k) := fun w =>
    (stageIx_of_stage (stage_heardFrom s w)).trans ((stageIx_of_staged hr).trans (by rw [hk]))
  have hidle : ∀ w, (heardFrom s w).mode = .idle := fun w => (mode_heardFrom w s).trans hmode
  refine ⟨?_, ?_⟩
  · intro hagrees hlt _
    obtain ⟨hlive, hplan, hfault⟩ := hagrees
    have htake : takeAdvance f.station.toNat (heardFrom s up) = moveTo (.stage (k + 1)) (heardFrom s up) := by
      have habove : stageAbove (heardFrom s up) = some (.stage (k + 1)) := by
        unfold stageAbove
        rw [hix, plan_heardFrom]
        exact if_pos hlt
      unfold takeAdvance
      rw [hidle, habove, groupCheck_passed hlive hplan hfault]
    have hexec : exec (.advance f) s = .next (finish (takeAdvance f.station.toNat (heardFrom s up))) :=
      receiveOrder_fromMember rfl hprec hpay htable hm
    rw [htake] at hexec
    exact ⟨_, hexec, entersStage up _ hr hfault⟩
  · intro hagrees _
    obtain ⟨hlive, hplan, hfault⟩ := hagrees
    have htake : takeRetreat f.station.toNat (heardFrom s down) =
        moveTo (if k = 0 then .setdown else .stage (k - 1)) (heardFrom s down) := by
      have hbelow : stageBelow (heardFrom s down) = some (if k = 0 then .setdown else .stage (k - 1)) := by
        unfold stageBelow
        rw [hix]
        cases k <;> rfl
      unfold takeRetreat
      rw [hidle, hbelow, groupCheck_passed hlive hplan hfault]
    have hexec : exec (.retreat f) s = .next (finish (takeRetreat f.station.toNat (heardFrom s down))) :=
      receiveOrder_fromMember rfl hprec hpay htable hm
    rw [htake] at hexec
    exact ⟨_, hexec, entersStage down _ hr hfault⟩

/-! ### RESUME in HOLD (O41) -/

namespace Sys2Proof.Machine

variable {s t u w : State}

/-! ### What an acknowledgement leaves of the views (R59, R171) -/

theorem allLive_of_table (h : t.table = s.table) : allLive t = allLive s := by
  unfold allLive viewTest allRows
  rw [h]
  cases s.table <;> rfl

theorem planAgreed_of_table (h : t.table = s.table) (hp : t.plan = s.plan) : planAgreed t = planAgreed s := by
  unfold planAgreed viewTest allRows
  rw [h]
  cases s.table with
  | none => rfl
  | some a =>
    simp only [selfRow, selfReport, hp]
    rfl

theorem stopConditionActive_iff (s : State) :
    stopConditionActive s = true ↔ ∃ k, (haltClass k = true ∨ holdClass k = true) ∧ s.active k = true := by
  unfold stopConditionActive
  simp [List.any_eq_true, mem_allKinds]

theorem fault_acknowledge (s : State) (k : FaultKind) :
    (acknowledge s).fault k =
      if s.latched k && !(conditionKind k && s.active k) then { s.fault k with latched := false } else s.fault k :=
  fault_unlatch _ s k

theorem active_acknowledge (s : State) (k : FaultKind) : (acknowledge s).active k = s.active k := by
  unfold State.active
  rw [fault_acknowledge]
  split <;> rfl

theorem count_acknowledge (s : State) (k : FaultKind) :
    ((acknowledge s).fault k).count = (s.fault k).count ∧
      ((acknowledge s).fault k).snapshot = (s.fault k).snapshot := by
  rw [fault_acknowledge]
  split <;> exact ⟨rfl, rfl⟩

/-- A condition that is not active is acknowledged (R171). -/
theorem latched_acknowledge {k : FaultKind} (h : s.active k = false) : (acknowledge s).latched k = false := by
  unfold State.latched
  rw [fault_acknowledge, h, Bool.and_false, Bool.not_false, Bool.and_true]
  split
  · rfl
  · rename_i hl
    exact Bool.eq_false_iff.mpr hl

theorem acknowledge_eq (s : State) :
    ∃ faults a b notice, acknowledge s =
      { s with
        faults := faults
        line := { s.line with posePending := a, poseAgain := b }
        notice := notice } := unlatch_eq _ s

/-- What an acknowledgement leaves of everything that it does not write. -/
structure Acknowledged (s t : State) : Prop where
  outer : t.outer = s.outer
  modeCtl : t.modeCtl = s.modeCtl
  stage : t.stage = s.stage
  engine : t.engine = s.engine
  pawl : t.pawl = s.pawl
  loadMon : t.loadMon = s.loadMon

theorem acknowledged_acknowledge (s : State) : Acknowledged s (acknowledge s) := by
  obtain ⟨faults, a, b, notice, h⟩ := acknowledge_eq s
  rw [h]
  exact ⟨rfl, rfl, rfl, rfl, rfl, rfl⟩

/-- What RESUME in HOLD does, check by check (R171). -/
theorem resumeMode_hold (n : Nat) (hm : w.mode = .hold) :
    resumeMode n w =
      if allLive w = false then refuseOrder .resume .notAllLive n w
      else if planAgreed w = false then refuseOrder .resume .planDisagree n w
      else if stopConditionActive w = true then refuseOrder .resume .conditionActive n w
      else enterMoving w := by
  unfold resumeMode
  rw [hm]
  simp only [Bool.not_eq_true']

/-! ### Refusals (R168, R171) -/

/-- A refused order writes the record of R168, and for plan disagreement an occurrence of PLAN_MISMATCH. -/
theorem finish_refuseOrder (kind : RefusedKind) (why : Reason) (n : Nat) (hq : Quiet w) :
    (finish (refuseOrder kind why n w)).mode = w.mode ∧
      (finish (refuseOrder kind why n w)).modeCtl.lastRefused = some ⟨kind, why, n, ⟨w.timeBase, false⟩⟩ ∧
      (finish (refuseOrder kind why n w)).stage = w.stage ∧ (finish (refuseOrder kind why n w)).engine = w.engine ∧
      (why = .planDisagree →
        ((finish (refuseOrder kind why n w)).fault .planMismatch).count =
          oneMore 255 (w.fault .planMismatch).count) := by
  have hreport : ∀ m, report .planMismatch m (refuse kind why n w) =
      latchAt (placeNow (refuse kind why n w)) m .planMismatch (refuse kind why n w) := fun m =>
    report_resting rfl m hq.1
  have hmode : (refuseOrder kind why n w).mode = w.mode := by
    unfold refuseOrder
    simp only []
    split
    · rw [hreport, mode_latchAt]
      rfl
    · rfl
  have hcol : ColumnStands (refuse kind why n w) (refuseOrder kind why n w) := by
    unfold refuseOrder
    simp only []
    split
    · rw [hreport]
      exact columnStands_latchAt ..
    · exact .refl _
  have hinner := finish_quiet (quiet_of_eq hmode hq)
  refine ⟨(congrArg Inner.mode hinner).trans hmode, ?_, (congrArg Inner.stage hinner).trans hcol.stage,
    (congrArg Inner.engine hinner).trans hcol.engine, fun hwhy => ?_⟩
  · exact (congrArg Outer.lastRefused (outer_finish (refuseOrder kind why n w))).trans
      (congrArg ModeCtl.lastRefused hcol.modeCtl)
  · have hfault : (refuseOrder kind why n w).fault .planMismatch =
        occurred w.timeBase (placeNow (refuse kind why n w)) (firstDisagreeing (refuse kind why n w))
          (w.fault .planMismatch) := by
      unfold refuseOrder
      simp only [if_pos hwhy]
      rw [fault_report, if_pos rfl]
      rfl
    rw [fault_finish (k := .planMismatch) nofun nofun, hfault]
    rfl

end Sys2Proof.Machine

open Sys2Proof Sys2Proof.Machine in
/-- Settles O41: the refusals of R171 in order, and past them the entry to MOVING. -/
theorem resumeFromHold : Obligations.ResumeFromHold := by
  intro s f hprec hpay hmode hstuck hm u blocked refusal
  have hexec : exec (.resume f) s = .next (finish (takeResume f.station.toNat u)) :=
    receiveOrder_fromMember rfl hprec hpay ⟨by rw [hmode]; exact nofun, by rw [hmode]; exact nofun⟩ hm
  have hu : u.mode = .hold := (mode_heardFrom ..).trans hmode
  have htake : takeResume f.station.toNat u = resumeMode f.station.toNat (acknowledge u) := by
    have hpawl : u.pawl.state ≠ .stuck := by rw [show u.pawl = s.pawl from pawl_heardFrom ..]; exact hstuck
    have hnone : pawlOnResume u = u := if_neg hpawl
    unfold takeResume
    rw [hnone]
  rw [htake] at hexec
  have ha := acknowledged_acknowledge u
  have hhold : (acknowledge u).mode = .hold := (congrArg ModeCtl.mode ha.modeCtl).trans hu
  have hq : Quiet (acknowledge u) := by rw [Quiet, hhold]; exact ⟨nofun, nofun⟩
  have htable : (acknowledge u).table = u.table := congrArg Outer.table ha.outer
  have hblocked : stopConditionActive (acknowledge u) = true ↔ blocked := by
    rw [stopConditionActive_iff]
    simp only [active_acknowledge]
    exact Iff.rfl
  have hcases := resumeMode_hold f.station.toNat hhold
  rw [allLive_of_table htable, planAgreed_of_table htable (congrArg Outer.plan ha.outer)] at hcases
  have htime : (acknowledge u).timeBase = s.timeBase :=
    (timeBase_of_outer ha.outer).trans (timeBase_heardFrom ..)
  have hstage : (acknowledge u).stage = s.stage := ha.stage.trans (stage_heardFrom ..)
  have hengine : (acknowledge u).engine = s.engine := ha.engine.trans (engine_heardFrom ..)
  have hrefused : ∀ why, resumeMode f.station.toNat (acknowledge u) =
      refuseOrder .resume why f.station.toNat (acknowledge u) →
      refusal why (finish (resumeMode f.station.toNat (acknowledge u))) := fun why hwhy => by
    obtain ⟨hm', hlast, hst, he, -⟩ := finish_refuseOrder .resume why f.station.toNat hq
    rw [hwhy]
    exact ⟨hm'.trans hhold, by rw [hlast, htime], hst.trans hstage, he.trans hengine⟩
  refine ⟨_, hexec, fun hl => ?_, fun hl hp => ?_, fun hl hp hb => ?_, fun hl hp hb => ?_⟩
  · exact hrefused _ (by rw [hcases, if_pos hl])
  · have hdis : resumeMode f.station.toNat (acknowledge u) =
        refuseOrder .resume .planDisagree f.station.toNat (acknowledge u) := by
      rw [hcases, if_neg (by rw [hl]; exact nofun), if_pos hp]
    refine ⟨hrefused _ hdis, ?_⟩
    obtain ⟨-, -, -, -, hcount⟩ := finish_refuseOrder .resume .planDisagree f.station.toNat hq
    rw [hdis, hcount rfl, (count_acknowledge u .planMismatch).1,
      fault_heardFrom (j := .planMismatch) nofun nofun]
  · exact hrefused _ (by
      rw [hcases, if_neg (by rw [hl]; exact nofun), if_neg (by rw [hp]; exact nofun), if_pos (hblocked.mpr hb)])
  · have henter : resumeMode f.station.toNat (acknowledge u) = enterMoving (acknowledge u) := by
      rw [hcases, if_neg (by rw [hl]; exact nofun), if_neg (by rw [hp]; exact nofun),
        if_neg fun hc => hb (hblocked.mp hc)]
    rw [henter]
    refine ⟨?_, fun r hr => ?_, fun hr ht => ?_⟩
    · exact (congrArg Outer.lastRefused ((outer_finish _).trans ((outer_enterMoving _).trans ha.outer))).trans
        (congrArg ModeCtl.lastRefused (modeCtl_heardFrom ..))
    · have hinactive : u.active .loadShare = false :=
        Bool.eq_false_iff.mpr fun hc => hb ⟨.loadShare, .inr rfl, hc⟩
      have hsame : u.fault .loadShare = s.fault .loadShare := fault_heardFrom (j := .loadShare) nofun nofun _ _
      have hrecord : (acknowledge u).stage.record = .staged r := by rw [hstage]; exact hr
      have hlift := lift_of_staged hrecord
      rw [hengine] at hlift
      refine entersMoving (u := u) ?_ hrecord (by rw [hstage]) hlift
      exact
        { outer := ha.outer
          lift := lift_of_record (by rw [ha.stage]) (by rw [ha.engine])
          pawl := ha.pawl
          share := congrArg LoadMon.share (ha.loadMon.trans (loadMon_heardFrom ..))
          place := by
            unfold columnPlace
            rw [hstage, hengine]
          latched := latched_acknowledge hinactive
          count := by rw [(count_acknowledge u .loadShare).1, hsame]
          snapshot := by rw [(count_acknowledge u .loadShare).2, hsame]
          timeBase := timeBase_heardFrom ..
          cfg := congrArg SettingsMem.inForce (settings_heardFrom ..)
          travel := congrArg Engine.travel (engine_heardFrom ..) }
    · obtain ⟨hmoving, hst, -, -⟩ := finish_enterMoving_unstaged (w := acknowledge u)
        (by rw [hstage]; exact hr) (by rw [hengine]; exact ht)
      exact ⟨hmoving, by rw [hst, hstage]⟩

/-! ## The end of a stroke, to the end of the command (O31, O47, O54) -/

namespace Sys2Proof.Machine

variable {g : Prop} {d : Direction} {r : StagedRec} {s t u x y : State}

/-- What every end of a stroke writes (R129 to R134, R157). -/
theorem stopRun_eq (d : Direction) (s : State) :
    ∃ a b, stopRun d s =
      { s with
        engine :=
          { s.engine with
            stroke := .rest, limit := none, restRef := s.engine.travel, lastDir := d
            lastEnd := ⟨s.timeBase, false⟩, dwell := some (s.timeBase + BitVec.ofNat 32 (10 * s.cfg.trev))
            drive := driveOf s.engine.source .rest s.engine.jog }
        loadMon := { s.loadMon with watch := false }
        line := { s.line with posePending := a, poseAgain := b }
        notice := true } := by
  obtain ⟨a, b, h⟩ := requestPose_eq (notify { s with
    engine :=
      { s.engine with
        stroke := .rest, limit := none, restRef := s.engine.travel, lastDir := d
        lastEnd := Stamp.written s.timeBase, dwell := armed s.timeBase (10 * s.cfg.trev)
        drive := driveOf s.engine.source .rest s.engine.jog }
    loadMon := { s.loadMon with watch := false } })
  exact ⟨a, b, h⟩

/-- No stroke runs, and the record of the last one is that of an end in direction `d` in the state `s`. -/
structure StrokeEnded (d : Direction) (s x : State) : Prop where
  stroke : isRunning x.engine.stroke = false
  travel : x.engine.travel = s.engine.travel
  limit : x.engine.limit = none
  restRef : x.engine.restRef = s.engine.travel
  lastDir : x.engine.lastDir = d
  lastEnd : x.engine.lastEnd = ⟨s.timeBase, false⟩
  dwell : x.engine.dwell = some (s.timeBase + BitVec.ofNat 32 (10 * s.cfg.trev))
  watch : x.loadMon.watch = false

theorem strokeEnded_stopRun (d : Direction) (s : State) : StrokeEnded d s (stopRun d s) := by
  obtain ⟨a, b, h⟩ := stopRun_eq d s
  rw [h]
  exact ⟨rfl, rfl, rfl, rfl, rfl, rfl, rfl, rfl⟩

theorem StrokeEnded.of_windsDown (h : StrokeEnded d s x) (k : WindsDown g x y) : StrokeEnded d s y := by
  have ho := k.run h.stroke
  exact
    { stroke := ho.stroke
      travel := (travel_of_outer k.outer).trans h.travel
      limit := ho.limit.trans h.limit
      restRef := ho.restRef.elim (fun e => e.trans h.restRef) fun e => e.trans h.travel
      lastDir := ho.lastDir.trans h.lastDir
      lastEnd := ho.lastEnd.trans h.lastEnd
      dwell := ho.dwell.trans h.dwell
      watch := ho.watch.trans h.watch }

theorem StrokeEnded.finish (h : StrokeEnded d s x) : StrokeEnded d s (finish x) :=
  h.of_windsDown (windsDown_finish (g := False) False.elim)

/-! ### No offer where the station has left MOVING or its arrival waits (R82, R86, R90) -/

/-- At REST, and out of MOVING or with an arrival that waits: no claim can be queued. -/
structure RestsArrived (s : State) : Prop where
  stroke : s.engine.stroke = .rest
  waits : s.mode = .moving → s.stage.awaitingSet = true ∧ s.stagedRec.isSome = true

theorem WindsDown.rest (k : WindsDown True x y) (h : x.engine.stroke = .rest) : y.engine.stroke = .rest :=
  rest_of_idle (k.run (by rw [h]; rfl)).stroke (k.claim trivial (by rw [claiming_eq, h]; rfl)).1

/-- The share evaluation keeps mode and stage, or puts a station in MOVING in HOLD (R175). -/
theorem shareEval_cases (s : State) :
    ColumnStands s (shareEval s) ∨ s.mode = .moving ∧ (shareEval s).mode = .hold := by
  by_cases hm : s.mode = .moving
  · cases hnow : outOfBand (shareOf s) with
    | false =>
      obtain ⟨-, -, hstands⟩ := inner_shareEval_inBand hnow
      exact .inl hstands
    | true =>
      cases hwas : outOfBand s.loadMon.share with
      | true =>
        rw [shareEval_stays (hwas.trans hnow.symm)]
        exact .inl (columnStands_writeShare s)
      | false =>
        refine .inr ⟨hm, ?_⟩
        rw [shareEval_leaves hwas hnow, mode_holdReport rfl]
        exact if_pos hm
  · exact .inl (columnStands_shareEval hm)

theorem restsArrived_shareEval (h : RestsArrived s) : RestsArrived (shareEval s) where
  stroke := (windsDown_shareEval True s).rest h.stroke
  waits hm := by
    rcases shareEval_cases s with hc | ⟨-, hhold⟩
    · have hw := h.waits (hc.mode.symm.trans hm)
      exact ⟨by rw [hc.stage]; exact hw.1, by rw [hc.shareRead.stagedRec]; exact hw.2⟩
    · rw [hhold] at hm
      cases hm

/-- A hand-over of a staged station leaves MOVING (R82, R84). -/
theorem mode_handOverArrival (hs : s.stagedRec.isSome = true) : (handOverArrival s).mode ≠ .moving := by
  obtain ⟨r, hr⟩ := Option.isSome_iff_exists.mp hs
  have hrecord := (stagedRec_eq_some s r).mp hr
  by_cases hsd : r.stage = .setdown
  · rw [handOverArrival_setdown hrecord hsd, mode_endStaging]
    exact nofun
  · rw [handOverArrival_stage hrecord hsd, mode_enterSettled]
    exact nofun

theorem restsArrived_awaitTest (h : RestsArrived s) : RestsArrived (awaitTest s) where
  stroke := (windsDown_awaitTest True s).rest h.stroke
  waits hm := by
    unfold awaitTest at hm ⊢
    split
    · rename_i hc
      rw [if_pos hc] at hm
      exact absurd hm (mode_handOverArrival (s := { s with stage := { s.stage with awaitingSet := false } })
        (h.waits hc.2.1).2)
    · rename_i hc
      rw [if_neg hc] at hm
      exact h.waits hm

theorem restsArrived_restTest (h : RestsArrived s) : RestsArrived (restTest s) where
  stroke := (windsDown_restTest True s).rest h.stroke
  waits hm := by
    rw [restTest_eq] at hm ⊢
    split
    · rename_i hc
      rw [if_pos hc, mode_enterIdle] at hm
      cases hm
    · rename_i hc
      rw [if_neg hc] at hm
      exact h.waits hm

theorem restsArrived_evaluate (h : RestsArrived s) : RestsArrived (evaluate s) := by
  by_cases hm : s.mode = .moving
  · obtain ⟨hawaits, hstaged⟩ := h.waits hm
    have he := evaluates_evaluate (s := s) (.inl hstaged)
    refine ⟨?_, fun _ => ⟨by rw [he.stage]; exact hawaits, by rw [he.shareRead.stagedRec]; exact hstaged⟩⟩
    obtain ⟨r, hr⟩ := Option.isSome_iff_exists.mp hstaged
    have hcounts : ∀ z, countsArrived (markRelease s) r z = true := fun z => by
      unfold countsArrived
      rw [(evaluates_markRelease s).stage, hawaits]
      rfl
    have hlift : s.lift = some ((s.engine.travel : Int) - r.contactZero) := by unfold State.lift; rw [hr]; rfl
    unfold evaluate
    rw [if_pos hm, h.stroke]
    simp only []
    unfold evalAtRest
    rw [hr, hlift]
    simp only [hcounts, if_true]
    exact ((windsDown_markRelease True s).trans (windsDown_giveArrived True _)).rest h.stroke
  · unfold evaluate
    rw [if_neg hm]
    exact ⟨h.stroke, h.waits⟩

theorem restsArrived_settle (n : Nat) (h : RestsArrived s) : RestsArrived (settle n s) := by
  induction n generalizing s with
  | zero => exact h
  | succ n ih =>
    rw [settle_succ]
    split
    · have hc : RestsArrived (clearNotice s) := ⟨h.stroke, h.waits⟩
      exact ih (restsArrived_evaluate (restsArrived_restTest (restsArrived_awaitTest (restsArrived_shareEval hc))))
    · exact h

theorem restsArrived_finish (h : RestsArrived s) : RestsArrived (finish s) := by
  obtain ⟨busy, shown, hf⟩ := finish_eq_settled s
  have hs := restsArrived_settle settleRounds h
  rw [hf]
  exact ⟨hs.stroke, hs.waits⟩

/-! ### The stage of a station that is not on its way to SETDOWN (R82, R84) -/

/-- Staged at stage 0 to n, with the record given. -/
def StagedAt (r : StagedRec) (s : State) : Prop := s.stage.record = .staged r ∧ r.stage ≠ .setdown

theorem StagedAt.staged (h : StagedAt r s) : s.stagedRec.isSome = true := by
  rw [(stagedRec_eq_some s r).mpr h.1]; rfl

theorem stagedAt_of_stage (h : StagedAt r s) (hs : t.stage.record = s.stage.record) : StagedAt r t :=
  ⟨hs.trans h.1, h.2⟩

theorem stagedAt_shareEval (h : StagedAt r s) : StagedAt r (shareEval s) := by
  refine stagedAt_of_stage h ?_
  by_cases hm : s.mode = .moving
  · cases hnow : outOfBand (shareOf s) with
    | false =>
      obtain ⟨-, -, hstands⟩ := inner_shareEval_inBand hnow
      rw [hstands.stage]
    | true =>
      cases hwas : outOfBand s.loadMon.share with
      | true => rw [shareEval_stays (hwas.trans hnow.symm)]; rfl
      | false =>
        rw [shareEval_leaves hwas hnow,
          (stage_holdReport (s := setActive .loadShare true (writeShare s)) rfl none hm).1]
        rfl
  · rw [(columnStands_shareEval hm).stage]

theorem stagedAt_handOverArrival (h : StagedAt r s) : StagedAt r (handOverArrival s) := by
  rw [handOverArrival_stage h.1 h.2]
  exact stagedAt_of_stage h (by rw [(entered_enterSettled s).stage])

theorem stagedAt_readers (h : StagedAt r s) : StagedAt r (readers s) := by
  have hshare := stagedAt_shareEval h
  have hawait : StagedAt r (awaitTest (shareEval s)) := by
    unfold awaitTest
    split
    · exact stagedAt_handOverArrival ⟨hshare.1, hshare.2⟩
    · exact hshare
  have hrest : StagedAt r (restTest (awaitTest (shareEval s))) := by
    rw [restTest_eq]
    split
    · exact stagedAt_of_stage hawait (by rw [(entered_enterIdle _).stage])
    · exact hawait
  exact stagedAt_of_stage hrest (by rw [readers, (evaluates_evaluate (.inl hrest.staged)).stage])

theorem stagedAt_settle (n : Nat) (h : StagedAt r s) : StagedAt r (settle n s) := by
  induction n generalizing s with
  | zero => exact h
  | succ n ih =>
    rw [settle_succ]
    split
    · exact ih (stagedAt_readers (s := clearNotice s) ⟨h.1, h.2⟩)
    · exact h

/-- A station staged at stage 0 to n keeps its record and its retained content to the end of a command. -/
theorem stagedAt_finish (h : StagedAt r s) : StagedAt r (finish s) ∧ (finish s).retained = s.retained := by
  have hs : StagedAt r (finish s) := by
    obtain ⟨busy, shown, hf⟩ := finish_eq_settled s
    have hs := stagedAt_settle settleRounds h
    rw [hf]
    exact ⟨hs.1, hs.2⟩
  refine ⟨hs, ?_⟩
  rcases underway_finish h.staged with hc | he
  · exact hc.retained
  · have hrecord := hs.1
    rw [he.stage] at hrecord
    cases hrecord

end Sys2Proof.Machine

/-! ### Contact capture (R77, R130) -/

namespace Sys2Proof.Machine

variable {d : Direction} {r : StagedRec} {s t c u x y : State}

/-- An arrival at stage 0 to n is handed over or waits: nothing moves, and the stage record stands (R82). -/
theorem arrive_atStage (h : StagedAt r y) :
    StagedAt r (arrive y) ∧ (arrive y).retained = y.retained ∧
      ((arrive y).mode = .settled ∨
        (arrive y).mode = y.mode ∧ (arrive y).stage.awaitingSet = true ∧ y.stage.dir = .lower) := by
  unfold arrive
  split
  · have he := entered_enterSettled y
    rw [handOverArrival_stage h.1 h.2]
    exact ⟨stagedAt_of_stage h (by rw [he.stage]), he.retained, .inl (mode_enterSettled y)⟩
  · rename_i hd
    have hlow : y.stage.dir = .lower := by
      by_contra hno
      exact hd (.inl hno)
    simp only []
    split
    · exact ⟨⟨h.1, h.2⟩, rfl, .inr ⟨rfl, rfl, hlow⟩⟩
    · have hm := motionOnly_pawlSet (.refl { y with stage := { y.stage with awaitingSet := true } })
      exact ⟨stagedAt_of_stage h (by rw [hm.stage]), hm.retained,
        .inr ⟨congrArg ModeCtl.mode hm.modeCtl, by rw [hm.stage], hlow⟩⟩

/-- The record of a station staged by contact (R77). -/
def contactRec (s : State) : StagedRec := ⟨s.engine.travel, .stage 0, 0, 0, false⟩

/-- The state in which contact has been captured, before the arrival test. -/
def contactStaged (c : State) : State :=
  handRetained (notify { stopRun .raise c with
    stage := { (stopRun .raise c).stage with record := .staged (contactRec (stopRun .raise c)) } })

theorem captureContact_eq (c : State) : captureContact c = arrivalTest (contactStaged c) := rfl

/-- What a capture of contact in `c` leaves (R77, R82, R130). -/
structure ContactCaptured (c x : State) : Prop where
  outer : x.outer = c.outer
  ended : StrokeEnded .raise c x
  rests : RestsArrived x
  staged : StagedAt (contactRec c) x
  content : x.retained.content = ⟨some ⟨c.engine.travel, .stage 0⟩, c.stage.dir, c.plan.active⟩
  mode : x.mode = c.mode ∨ c.mode = .moving ∧ x.mode = .settled
  settles : c.mode = .moving → c.stage.dir = .raise → x.mode = .settled

theorem contactStaged_eq (c : State) :
    ∃ ret a b, contactStaged c =
        { c with
          engine :=
            { c.engine with
              stroke := .rest, limit := none, restRef := c.engine.travel, lastDir := .raise
              lastEnd := ⟨c.timeBase, false⟩, dwell := some (c.timeBase + BitVec.ofNat 32 (10 * c.cfg.trev))
              drive := driveOf c.engine.source .rest c.engine.jog }
          loadMon := { c.loadMon with watch := false }
          line := { c.line with posePending := a, poseAgain := b }
          stage := { c.stage with record := .staged (contactRec c) }
          retained := ret
          notice := true } ∧
      ret.content = ⟨some ⟨c.engine.travel, .stage 0⟩, c.stage.dir, c.plan.active⟩ := by
  obtain ⟨a, b, hstop⟩ := stopRun_eq .raise c
  obtain ⟨ret, hret⟩ := handRetained_eq (notify { stopRun .raise c with
    stage := { (stopRun .raise c).stage with record := .staged (contactRec (stopRun .raise c)) } })
  obtain ⟨hcontent, -, -⟩ := retained_handRetained (notify { stopRun .raise c with
    stage := { (stopRun .raise c).stage with record := .staged (contactRec (stopRun .raise c)) } })
  rw [hret, hstop] at hcontent
  refine ⟨ret, a, b, ?_, hcontent⟩
  unfold contactStaged
  rw [hret, hstop]
  rfl

/-- Outside MOVING a capture has no arrival test (R79). -/
theorem captureContact_of_not_moving (hm : c.mode ≠ .moving) : captureContact c = contactStaged c := by
  obtain ⟨ret, a, b, heq, -⟩ := contactStaged_eq c
  have hmode : (contactStaged c).mode = c.mode := by rw [heq]; rfl
  rw [captureContact_eq]
  unfold arrivalTest
  split
  · exact if_neg fun h => hm (hmode.symm.trans h)
  · rfl

theorem contactCaptured (c : State) : ContactCaptured c (captureContact c) := by
  obtain ⟨ret, a, b, heq, hcontent⟩ := contactStaged_eq c
  have hmode : (contactStaged c).mode = c.mode := by rw [heq]; rfl
  have hdir : (contactStaged c).stage.dir = c.stage.dir := by rw [heq]
  have hrest : (contactStaged c).engine.stroke = .rest := by rw [heq]
  have hstaged : StagedAt (contactRec c) (contactStaged c) := ⟨by rw [heq], nofun⟩
  have hret : (contactStaged c).retained.content =
      ⟨some ⟨c.engine.travel, .stage 0⟩, c.stage.dir, c.plan.active⟩ := by rw [heq]; exact hcontent
  have hended : StrokeEnded .raise c (contactStaged c) := by
    rw [heq]
    exact ⟨rfl, rfl, rfl, rfl, rfl, rfl, rfl, rfl⟩
  have hlift : (contactStaged c).lift = some 0 := by
    rw [lift_of_staged hstaged.1, hended.travel]
    exact congrArg some (Int.sub_self _)
  have hwind := windsDown_arrivalTest True (contactStaged c)
  have hout : (captureContact c).outer = c.outer := outer_captureContact c
  by_cases hm : c.mode = .moving
  · have harrive : captureContact c = arrive (contactStaged c) := by
      rw [captureContact_eq, arrivalTest_eq (hmode.trans hm) hstaged.1 hlift, if_pos, if_neg]
      · exact fun hc => hc.1 rfl
      · exact ⟨by show -((contactStaged c).cfg.a : Int) ≤ 0 - 0; omega,
          by show (0 : Int) - 0 ≤ (contactStaged c).cfg.a; omega⟩
    rw [← captureContact_eq] at hwind
    obtain ⟨hat, hkept, hends⟩ := arrive_atStage hstaged
    rw [← harrive] at hat hkept hends
    refine ⟨hout, hended.of_windsDown hwind, ⟨hwind.rest hrest, fun h => ?_⟩, hat, by rw [hkept]; exact hret, ?_,
      fun _ hd => ?_⟩
    · rcases hends with hset | ⟨-, hawait, -⟩
      · rw [hset] at h; cases h
      · exact ⟨hawait, hat.staged⟩
    · rcases hends with hset | ⟨hsame, -, -⟩
      · exact .inr ⟨hm, hset⟩
      · exact .inl (hsame.trans hmode)
    · rcases hends with hset | ⟨-, -, hlow⟩
      · exact hset
      · rw [hdir, hd] at hlow; cases hlow
  · rw [captureContact_of_not_moving hm] at hout ⊢
    exact ⟨hout, hended, ⟨hrest, fun h => absurd (hmode.symm.trans h) hm⟩, hstaged, hret, .inl hmode,
      fun h => absurd h hm⟩

/-! ### What a reading leaves after its tests (R138, R154) -/

/-- The rest of a reading's command: the load test of a jog up and the share evaluation. -/
def afterTests (x : State) : State := finish (shareEval (jogLoadTest x))

theorem windsDown_jogLoadTest (g : Prop) (x : State) : WindsDown g x (jogLoadTest x) := by
  unfold jogLoadTest
  split
  · exact windsDown_endJog g x
  · exact .refl g x

theorem motionOnly_jogLoadTest (x : State) : MotionOnly x (jogLoadTest x) := by
  unfold jogLoadTest
  split
  · exact motionOnly_endJog (.refl x)
  · exact .refl x

theorem mode_jogLoadTest (x : State) : (jogLoadTest x).mode = x.mode :=
  congrArg ModeCtl.mode (motionOnly_jogLoadTest x).modeCtl

theorem outer_afterTests (x : State) : (afterTests x).outer = x.outer := by
  unfold afterTests
  rw [outer_finish, outer_shareEval, (windsDown_jogLoadTest False x).outer]

theorem strokeEnded_afterTests (h : StrokeEnded d s x) : StrokeEnded d s (afterTests x) :=
  ((h.of_windsDown (windsDown_jogLoadTest False x)).of_windsDown (windsDown_shareEval False _)).finish

theorem rest_afterTests (h : RestsArrived x) : (afterTests x).engine.stroke = .rest := by
  have hj : RestsArrived (jogLoadTest x) :=
    { stroke := (windsDown_jogLoadTest True x).rest h.stroke
      waits := fun hm => by
        have hs := (motionOnly_jogLoadTest x).stage
        have hw := h.waits ((mode_jogLoadTest x).symm.trans hm)
        exact ⟨by rw [hs]; exact hw.1, (isSome_stagedRec (by rw [hs])).trans hw.2⟩ }
  exact (restsArrived_finish (restsArrived_shareEval hj)).stroke

theorem stagedAt_afterTests (h : StagedAt r x) :
    StagedAt r (afterTests x) ∧ (afterTests x).retained = x.retained := by
  have hm := motionOnly_jogLoadTest x
  have hj : StagedAt r (jogLoadTest x) := stagedAt_of_stage h (by rw [hm.stage])
  obtain ⟨hs, hr⟩ := stagedAt_finish (stagedAt_shareEval hj)
  exact ⟨hs, hr.trans ((carried_shareEval _).retained.trans hm.retained)⟩

/-- Outside MOVING and SETTLED the rest of the command keeps mode and stage. -/
theorem quiet_afterTests (hq : Quiet x) : (afterTests x).mode = x.mode ∧ (afterTests x).stage = x.stage := by
  have hj : Quiet (jogLoadTest x) := quiet_of_eq (mode_jogLoadTest x) hq
  obtain ⟨hi, -⟩ := inner_shareEval hj
  have hin := finish_quiet (quiet_of_eq (congrArg Inner.mode hi) hj)
  exact ⟨(congrArg Inner.mode (hin.trans hi)).trans (mode_jogLoadTest x),
    (congrArg Inner.stage (hin.trans hi)).trans (motionOnly_jogLoadTest x).stage⟩

theorem settled_afterTests (hm : x.mode = .settled) : (afterTests x).mode = .settled ∨ (afterTests x).mode = .idle := by
  have hj : (jogLoadTest x).mode = .settled := (mode_jogLoadTest x).trans hm
  have hs := columnStands_shareEval (s := jogLoadTest x) (by rw [hj]; exact nofun)
  have hmode : (shareEval (jogLoadTest x)).mode = .settled := hs.mode.trans hj
  rcases (settlesAtRest_finish (s := shareEval (jogLoadTest x)) (by rw [hmode]; exact nofun)).mode with h | ⟨-, h⟩
  · exact .inl (h.trans hmode)
  · exact .inr h

theorem fault_afterTests {k : FaultKind} (h₁ : k ≠ .loadShare) (h₂ : k ≠ .travelLimit) (x : State) :
    (afterTests x).fault k = x.fault k := by
  have hrec : (jogLoadTest x).record = x.record := by
    unfold jogLoadTest
    split
    · exact record_endJog x
    · rfl
  unfold afterTests
  rw [fault_finish h₁ h₂, fault_shareEval h₁, fault_of_record hrec]

end Sys2Proof.Machine

/-! ### A reading of W_c or more during a contact stroke (O54) -/

namespace Sys2Proof.Machine

variable {d : Direction} {r : Stroke} {n v : Nat} {s t c u x y : State}

/-- The contact watch disarmed as the contact report is sent (R157). -/
def unwatched (y : State) : State := { y with loadMon := { y.loadMon with watch := false } }

theorem contactTest_captures (hr : y.engine.stroke = .running r n) (hk : r.kind = .contact)
    (hw : y.loadMon.watch = true) (hv : y.cfg.wc ≤ y.loadMon.present) :
    contactTest y = captureContact (unwatched y) := by
  unfold contactTest
  rw [if_pos ⟨hw, hv⟩]
  unfold contactReport
  simp only [hr]
  exact if_pos hk

theorem contactTest_unwatched (hw : y.loadMon.watch = false) : contactTest y = y :=
  if_neg fun h => by rw [hw] at h; cases h.1

/-- A capture in a state with another's engine travel, stage, plan and time base is a capture told of that other. -/
theorem ContactCaptured.of_eq (h : ContactCaptured c x) (ht : c.engine.travel = s.engine.travel)
    (hn : c.timeBase = s.timeBase) (hc : c.cfg = s.cfg) (hs : c.stage.dir = s.stage.dir) (hp : c.plan = s.plan) :
    StrokeEnded .raise s x ∧ StagedAt (contactRec s) x ∧
      x.retained.content = ⟨some ⟨s.engine.travel, .stage 0⟩, s.stage.dir, s.plan.active⟩ := by
  obtain ⟨houter, ⟨h₁, h₂, h₃, h₄, h₅, h₆, h₇, h₈⟩, -, hstaged, hcontent, -, -⟩ := h
  have hrec : contactRec c = contactRec s := by unfold contactRec; rw [ht]
  refine ⟨⟨h₁, h₂.trans ht, h₃, h₄.trans ht, h₅, by rw [h₆, hn], by rw [h₇, hn, hc], h₈⟩, hrec ▸ hstaged, ?_⟩
  rw [hcontent, ht, hs, hp]

theorem StrokeEnded.of_start (h : StrokeEnded d c x) (ho : c.outer = s.outer) : StrokeEnded d s x := by
  have ht := travel_of_outer ho
  have hn := timeBase_of_outer ho
  have hc : c.cfg = s.cfg := congrArg (fun o => o.settings.inForce) ho
  obtain ⟨h₁, h₂, h₃, h₄, h₅, h₆, h₇, h₈⟩ := h
  exact ⟨h₁, h₂.trans ht, h₃, h₄.trans ht, h₅, by rw [h₆, hn], by rw [h₇, hn, hc], h₈⟩

/-- A raising stroke that runs is ended by an entry to HALTED (R134, R166). -/
theorem strokeEnded_enterHalted (hr : s.engine.stroke = .running r n) (hd : r.dir ≠ .lower) :
    StrokeEnded r.dir s (enterHalted s) ∧ (enterHalted s).engine.stroke = .rest := by
  have hlow : ∀ t : State, t.engine.stroke = .running r n → runLowers t.engine.stroke = false := fun t ht => by
    rw [ht, runLowers]
    simpa using hd
  have hset : (setMode .halted s).engine.stroke = .running r n := by rw [engine_setMode]; exact hr
  have hdrop : (dropJog (setMode .halted s)).engine.stroke = .running r n := hset
  have hjog : (endJog (setMode .halted s)).engine.stroke = .running r n := by
    unfold endJog
    split
    · exact hset
    · split
      · rw [stroke_pawlSet (by rw [claiming_eq, hdrop]; rfl) (hlow _ hdrop)]
        exact hset
      · exact hset
  have habort : abortStroke (endJog (setMode .halted s)) = stopRun r.dir (endJog (setMode .halted s)) := by
    unfold abortStroke; rw [hjog]
  have hout : (endJog (setMode .halted s)).outer = s.outer := (outer_endJog _).trans (outer_setMode ..)
  have hended := (strokeEnded_stopRun r.dir (endJog (setMode .halted s))).of_start hout
  have hwind := ((windsDown_causeOfWithdrawal True (stopRun r.dir (endJog (setMode .halted s)))).trans
    (windsDown_ceilingIdle True _)).trans (windsDown_pawlSet True _)
  rw [← habort] at hwind hended
  refine ⟨hended.of_windsDown hwind, hwind.rest ?_⟩
  rw [habort, engine_stopRun]

/-! ### The two orders of R159 -/

/-- The state with one more free order drawn (R159). -/
def drawn (s : State) : State := { s with openOrders := s.openOrders + 1 }

theorem takeReading_drawn (v : Nat) (s : State) : drawn (takeReading v s) = takeReading v (drawn s) := by
  unfold takeReading drawn
  simp only []
  split
  · rfl
  · rfl

section
variable (hr : s.engine.stroke = .running r n) (hk : r.kind = .contact) (hw : s.loadMon.watch = true)
  (hv : s.cfg.wc ≤ v)
include hr hk hw hv

/-- With no OVERLOAD begun the reading captures contact. -/
theorem loadTests_contact (h : ¬ beginsOverload v s) :
    loadTests (takeReading v s) = captureContact (unwatched (readIn v s)) := by
  obtain ⟨notice, hu⟩ := takeReading_eq v s
  obtain ⟨notice', faults, hread⟩ := readIn_other h
  have hopen : orderOpen (takeReading v s) = false := by
    rw [hu]
    show (decide (s.cfg.wr < v) && !s.loadMon.above && s.loadMon.watch && decide (s.cfg.wc ≤ v)) = false
    have hno : (decide (s.cfg.wr < v) && !s.loadMon.above) = false := by
      rw [Bool.eq_false_iff]
      simpa using h
    rw [hno]
    rfl
  unfold loadTests
  rw [hopen, if_neg nofun]
  exact contactTest_captures (y := readIn v s) (by rw [hread]; exact hr) hk (by rw [hread]; exact hw)
    (by rw [hread]; exact hv)

/-- Where OVERLOAD begins too, the free value says which comes first (R159). -/
theorem loadTests_open (h : beginsOverload v s) :
    loadTests (takeReading v s) =
      if Config.contactBeforeHalt s.openOrders = true then
        overloadTest (captureContact (unwatched (takeReading v (drawn s))))
      else contactTest (readIn v (drawn s)) := by
  obtain ⟨notice, hu⟩ := takeReading_eq v s
  obtain ⟨notice', hu'⟩ := takeReading_eq v (drawn s)
  have hopen : orderOpen (takeReading v s) = true := by
    rw [hu]
    show (decide (s.cfg.wr < v) && !s.loadMon.above && s.loadMon.watch && decide (s.cfg.wc ≤ v)) = true
    rw [h.2, hw, decide_eq_true hv, decide_eq_true h.1]
    rfl
  have horder : (takeReading v s).openOrders = s.openOrders := by rw [hu]
  have hcontact : contactTest (takeReading v (drawn s)) = captureContact (unwatched (takeReading v (drawn s))) :=
    contactTest_captures (by rw [hu']; exact hr) hk (by rw [hu']; exact hw) (by rw [hu']; exact hv)
  unfold loadTests
  rw [hopen, if_pos rfl]
  show (if Config.contactBeforeHalt (takeReading v s).openOrders = true then
      overloadTest (contactTest (drawn (takeReading v s)))
    else contactTest (overloadTest (drawn (takeReading v s)))) = _
  rw [takeReading_drawn, hcontact, horder]
  rfl

end

/-- What a reading leaves that ends a contact stroke, before the rest of its command. -/
structure ContactEnds (s x : State) : Prop where
  ended : StrokeEnded .raise s x
  rests : RestsArrived x

/-- The capture itself, as the statement has it. -/
structure ContactHeld (s x : State) : Prop where
  staged : StagedAt (contactRec s) x
  content : x.retained.content = ⟨some ⟨s.engine.travel, .stage 0⟩, s.stage.dir, s.plan.active⟩

theorem ContactHeld.afterTests (h : ContactHeld s x) (he : StrokeEnded .raise s x) :
    (afterTests x).stage.record = .staged ⟨s.engine.travel, .stage 0, 0, 0, false⟩ ∧ (afterTests x).lift = some 0 ∧
      (afterTests x).retained.content = ⟨some ⟨s.engine.travel, .stage 0⟩, s.stage.dir, s.plan.active⟩ := by
  obtain ⟨hs, hret⟩ := stagedAt_afterTests h.staged
  refine ⟨hs.1, ?_, by rw [hret]; exact h.content⟩
  rw [lift_of_staged hs.1, (strokeEnded_afterTests he).travel]
  exact congrArg some (Int.sub_self _)

/-- A reading that ends a contact stroke without OVERLOAD (R77, R130, R157). -/
theorem contact_plain (h : ¬ beginsOverload v s) :
    ContactEnds s (captureContact (unwatched (readIn v s))) ∧
      ContactHeld s (captureContact (unwatched (readIn v s))) ∧
      (captureContact (unwatched (readIn v s))).openOrders = s.openOrders ∧
      (s.mode = .moving → s.stage.dir = .raise → (captureContact (unwatched (readIn v s))).mode = .settled) := by
  obtain ⟨notice, faults, hread⟩ := readIn_other h
  have hc := contactCaptured (unwatched (readIn v s))
  have hmode : (unwatched (readIn v s)).mode = s.mode := by rw [hread]; rfl
  have hdir : (unwatched (readIn v s)).stage.dir = s.stage.dir := by rw [hread]; rfl
  have horders : (unwatched (readIn v s)).openOrders = s.openOrders := by rw [hread]; rfl
  obtain ⟨he, hst, hcontent⟩ := hc.of_eq (s := s) (by rw [hread]; rfl) (by rw [hread]; rfl) (by rw [hread]; rfl) hdir
    (by rw [hread]; rfl)
  refine ⟨⟨he, hc.rests⟩, ⟨hst, hcontent⟩, (congrArg Outer.openOrders hc.outer).trans horders, fun hm hd => ?_⟩
  exact hc.settles (hmode.trans hm) (hdir.trans hd)

/-- What a reading that begins OVERLOAD leaves besides (R155, R177). -/
structure Overloaded (s x : State) : Prop where
  orders : x.openOrders = s.openOrders + 1
  mode : x.mode = if s.mode = .rollcall ∨ s.mode = .barred then s.mode else .halted
  latched : (x.fault .overload).latched = true
  active : (x.fault .overload).active = true

theorem Overloaded.quiet (h : Overloaded s x) : Quiet x := by
  unfold Quiet
  rw [h.mode]
  split
  · rename_i hm
    rcases hm with hm | hm <;> rw [hm] <;> exact ⟨nofun, nofun⟩
  · exact ⟨nofun, nofun⟩

/-- The occurrence of OVERLOAD, with its condition active (R155). -/
def overReported (s : State) : State := report .overload none (setActive .overload true s)

theorem windsDown_overReported (g : Prop) (s : State) : WindsDown g s (overReported s) :=
  (windsDown_setActive g .overload true s).trans (windsDown_report g .overload none _)

theorem stage_overReported (s : State) :
    (overReported s).stage.record = s.stage.record ∧ (overReported s).retained = s.retained := by
  obtain ⟨hstage, hret⟩ := stage_haltReport (k := .overload) rfl none (setActive .overload true s)
  refine ⟨?_, hret⟩
  unfold overReported
  rw [hstage]
  split <;> rfl

theorem overloaded_overReported (ho : x.openOrders = s.openOrders + 1)
    (hm : x.mode = s.mode ∨ s.mode = .moving ∧ x.mode = .settled) : Overloaded s (overReported x) where
  orders := (congrArg Outer.openOrders (windsDown_overReported False x).outer).trans ho
  mode := by
    unfold overReported
    rw [mode_haltReport rfl]
    show (if x.mode = .rollcall ∨ x.mode = .barred then x.mode else .halted) = _
    rcases hm with hm | ⟨hm, hx⟩
    · rw [hm]
    · rw [hm, hx]; rfl
  latched := by unfold overReported; rw [fault_report_same]; rfl
  active := by
    unfold overReported
    rw [fault_report_same]
    show ((setActive .overload true x).fault .overload).active = true
    rw [fault_setActive, if_pos rfl]

/-- OVERLOAD latched with its condition active, before mode control acts (R181). -/
def overLatched (s : State) : State :=
  latchAt (placeNow (setActive .overload true s)) none .overload (setActive .overload true s)

theorem overLatched_eq (s : State) : ∃ faults a b notice, overLatched s =
    { s with faults := faults, line := { s.line with posePending := a, poseAgain := b }, notice := notice } := by
  obtain ⟨faults, a, b, notice, h⟩ :=
    latchAt_eq (placeNow (setActive .overload true s)) none .overload (setActive .overload true s)
  exact ⟨faults, a, b, notice, h⟩

theorem overReported_eq (s : State) :
    overReported s =
      if s.mode = .rollcall ∨ s.mode = .barred ∨ s.mode = .halted then placeHalt .overload (overLatched s)
      else placeHalt .overload
        (recordStop .halted .fault (some .overload) none (enterHalted (overLatched s))) := by
  unfold overReported report reportAt
  rw [modeOnFault_halt rfl, mode_latchAt, mode_setActive]
  rfl

theorem placeHalt_eq (k : FaultKind) (s : State) :
    ∃ slot, placeHalt k s = { s with line := { s.line with haltSlot := slot } } := by
  unfold placeHalt
  split
  · exact ⟨s.line.haltSlot, rfl⟩
  · split
    · exact ⟨s.line.haltSlot, rfl⟩
    · exact ⟨_, rfl⟩

/-- Without a mode of its own to leave, the station takes the occurrence in its records alone (R177). -/
theorem overReported_stays (hm : s.mode = .rollcall ∨ s.mode = .barred ∨ s.mode = .halted) :
    (overReported s).engine = s.engine ∧ (overReported s).loadMon = s.loadMon ∧ (overReported s).stage = s.stage ∧
      (overReported s).plan = s.plan ∧ (overReported s).outer = s.outer := by
  obtain ⟨faults, a, b, notice, hlatch⟩ := overLatched_eq s
  obtain ⟨slot, hplace⟩ := placeHalt_eq .overload (overLatched s)
  rw [overReported_eq, if_pos hm, hplace, hlatch]
  exact ⟨rfl, rfl, rfl, rfl, rfl⟩

/-- A raising stroke is ended by the halt (R134, R177). -/
theorem overReported_halts (hr : s.engine.stroke = .running r n) (hd : r.dir ≠ .lower)
    (hm : ¬ (s.mode = .rollcall ∨ s.mode = .barred ∨ s.mode = .halted)) :
    StrokeEnded r.dir s (overReported s) ∧ (overReported s).engine.stroke = .rest := by
  obtain ⟨faults, a, b, notice, hlatch⟩ := overLatched_eq s
  obtain ⟨hended, hrest⟩ := strokeEnded_enterHalted (s := overLatched s) (by rw [hlatch]; exact hr) hd
  have hwind := (windsDown_recordStop True .halted .fault (some .overload) none (enterHalted (overLatched s))).trans
    (windsDown_placeHalt True .overload _)
  rw [overReported_eq, if_neg hm]
  exact ⟨(hended.of_start (by rw [hlatch]; rfl)).of_windsDown hwind, hwind.rest hrest⟩

/-- Contact is captured first, and OVERLOAD then halts a staged station (R159). -/
theorem contact_first (h : beginsOverload v s) :
    ContactEnds s (overloadTest (captureContact (unwatched (takeReading v (drawn s))))) ∧
      ContactHeld s (overloadTest (captureContact (unwatched (takeReading v (drawn s))))) ∧
      Overloaded s (overloadTest (captureContact (unwatched (takeReading v (drawn s))))) := by
  obtain ⟨notice, hu⟩ := takeReading_eq v (drawn s)
  have hc := contactCaptured (unwatched (takeReading v (drawn s)))
  obtain ⟨he, hst, hcontent⟩ := hc.of_eq (s := s) (by rw [hu]; rfl) (by rw [hu]; rfl) (by rw [hu]; rfl)
    (by rw [hu]; rfl) (by rw [hu]; rfl)
  have hmode : (unwatched (takeReading v (drawn s))).mode = s.mode := by rw [hu]; rfl
  have hcm := hc.mode
  have hrests := hc.rests
  have houter := hc.outer
  rw [hmode] at hcm
  generalize captureContact (unwatched (takeReading v (drawn s))) = x at he hst hcontent hcm hrests houter ⊢
  have hnow : aboveRated x = true := by
    have hcfg : x.cfg = s.cfg := (congrArg (fun o => o.settings.inForce) houter).trans (by rw [hu]; rfl)
    have hpresent : x.loadMon.present = v := (congrArg Outer.present houter).trans (by rw [hu]; rfl)
    unfold aboveRated
    rw [hcfg, hpresent]
    exact decide_eq_true h.1
  have hwas : x.loadMon.above = false := (congrArg Outer.above houter).trans (by rw [hu]; exact h.2)
  have htest : overloadTest x = overReported { x with loadMon := { x.loadMon with above := true } } := by
    unfold overloadTest
    simp only [hnow, hwas, Bool.not_false, Bool.and_true, if_true]
    rfl
  rw [htest]
  obtain ⟨hstroke, hawait⟩ := hrests
  have habove : ∀ z : State, z = { x with loadMon := { x.loadMon with above := true } } →
      StrokeEnded .raise s (overReported z) ∧ (overReported z).engine.stroke = .rest ∧
        StagedAt (contactRec s) (overReported z) ∧ (overReported z).retained = x.retained := fun z hz => by
    have hz' : StrokeEnded .raise s z := by
      obtain ⟨h₁, h₂, h₃, h₄, h₅, h₆, h₇, h₈⟩ := he
      rw [hz]
      exact ⟨h₁, h₂, h₃, h₄, h₅, h₆, h₇, h₈⟩
    have hwind := windsDown_overReported True z
    obtain ⟨hrecord, hret⟩ := stage_overReported z
    exact ⟨hz'.of_windsDown hwind, hwind.rest (by rw [hz]; exact hstroke),
      ⟨hrecord.trans (by rw [hz]; exact hst.1), hst.2⟩, hret.trans (by rw [hz])⟩
  have hover : Overloaded s (overReported { x with loadMon := { x.loadMon with above := true } }) :=
    overloaded_overReported
      (show x.openOrders = s.openOrders + 1 from (congrArg Outer.openOrders houter).trans (by rw [hu]; rfl)) hcm
  obtain ⟨hended, hrest, hkept, hret⟩ := habove _ rfl
  exact ⟨⟨hended, ⟨hrest, fun hm => absurd hm hover.quiet.1⟩⟩, ⟨hkept, by rw [hret]; exact hcontent⟩, hover⟩

/-- OVERLOAD halts the station first: the contact report that follows finds a contact stroke only where the halt has
ended none (R159, R177). -/
theorem halt_first (hr : s.engine.stroke = .running r n) (hk : r.kind = .contact) (hd : r.dir = .raise)
    (hw : s.loadMon.watch = true) (hv : s.cfg.wc ≤ v) (h : beginsOverload v s) :
    ContactEnds s (contactTest (readIn v (drawn s))) ∧ Overloaded s (contactTest (readIn v (drawn s))) ∧
      (s.mode ≠ .rollcall → s.mode ≠ .barred → s.mode ≠ .halted →
        (contactTest (readIn v (drawn s))).stage.record = s.stage.record) := by
  obtain ⟨notice, hu⟩ := ratedIn_eq v (drawn s)
  have hread : readIn v (drawn s) = overReported (ratedIn v (drawn s)) := readIn_over (s := drawn s) h
  have hover : Overloaded s (readIn v (drawn s)) := by
    rw [hread]
    exact overloaded_overReported (by rw [hu]; rfl) (.inl (by rw [hu]; rfl))
  have hmode : (ratedIn v (drawn s)).mode = s.mode := by rw [hu]; rfl
  by_cases hstays : s.mode = .rollcall ∨ s.mode = .barred ∨ s.mode = .halted
  · have hkept := overReported_stays (s := ratedIn v (drawn s)) (by rw [hmode]; exact hstays)
    rw [← hread] at hkept
    obtain ⟨hengine, hload, hstage, hplan, houter⟩ := hkept
    have hcfg : (readIn v (drawn s)).cfg = s.cfg :=
      (congrArg (fun o => o.settings.inForce) houter).trans (by rw [hu]; rfl)
    have htravel : (readIn v (drawn s)).engine.travel = s.engine.travel := by rw [hengine, hu]; rfl
    have htest : contactTest (readIn v (drawn s)) = captureContact (unwatched (readIn v (drawn s))) :=
      contactTest_captures (by rw [hengine, hu]; exact hr) hk (by rw [hload, hu]; exact hw)
        (by rw [hcfg, hload, hu]; exact hv)
    have hnot : (unwatched (readIn v (drawn s))).mode ≠ .moving := hover.quiet.1
    have hc := contactCaptured (unwatched (readIn v (drawn s)))
    obtain ⟨he, -, -⟩ := hc.of_eq (s := s) htravel ((congrArg Outer.timeBase houter).trans (by rw [hu]; rfl)) hcfg
      (by show (readIn v (drawn s)).stage.dir = _; rw [hstage, hu]; rfl)
      (by show (readIn v (drawn s)).plan = _; rw [hplan, hu]; rfl)
    have hfault : ∀ k, (captureContact (unwatched (readIn v (drawn s)))).fault k = (readIn v (drawn s)).fault k :=
      fun k => by
        obtain ⟨ret, a, b, heq, -⟩ := contactStaged_eq (unwatched (readIn v (drawn s)))
        rw [captureContact_of_not_moving hnot, heq]
        rfl
    have hend : (captureContact (unwatched (readIn v (drawn s)))).mode = (readIn v (drawn s)).mode :=
      hc.mode.resolve_right fun hmv => hnot hmv.1
    rw [htest]
    refine ⟨⟨he, hc.rests⟩, ⟨(congrArg Outer.openOrders hc.outer).trans hover.orders, hend.trans hover.mode, ?_, ?_⟩,
      fun h₁ h₂ h₃ => absurd hstays (by simp [h₁, h₂, h₃])⟩
    · rw [hfault]; exact hover.latched
    · rw [hfault]; exact hover.active
  · have hran : (ratedIn v (drawn s)).engine.stroke = .running r n := by rw [hu]; exact hr
    obtain ⟨hended, hrest⟩ := overReported_halts (s := ratedIn v (drawn s)) hran (by rw [hd]; exact nofun)
      (by rw [hmode]; exact hstays)
    rw [← hread] at hended hrest
    have hended' : StrokeEnded .raise s (readIn v (drawn s)) := by
      obtain ⟨h₁, h₂, h₃, h₄, h₅, h₆, h₇, h₈⟩ := hended
      rw [hu] at h₂ h₄ h₆ h₇
      exact ⟨h₁, h₂, h₃, h₄, h₅.trans hd, h₆, h₇, h₈⟩
    rw [contactTest_unwatched hended'.watch]
    refine ⟨⟨hended', ⟨hrest, fun hm => absurd hm hover.quiet.1⟩⟩, hover, fun _ _ _ => ?_⟩
    rw [hread, (stage_overReported _).1, hu]
    rfl

/-! ### The statement -/

/-- Settles O54: the reading captures contact, or begins OVERLOAD too and then takes either order of R159; what each
leaves stands to the end of the command. -/
theorem contactCapture : Obligations.ContactCapture := by
  unfold Obligations.ContactCapture
  intro s v r n hr hk hd hw hv hun haw captured
  have hexec : exec (.loadReading v) s = .next (afterTests (loadTests (takeReading v.val s))) := rfl
  refine ⟨_, hexec, ?_⟩
  have hcommon : ∀ x, ContactEnds s x →
      (afterTests x).engine.stroke = .rest ∧ (afterTests x).engine.limit = none ∧
        (afterTests x).loadMon.watch = false ∧ (afterTests x).engine.restRef = s.engine.travel ∧
        (afterTests x).engine.lastDir = .raise ∧ (afterTests x).engine.lastEnd = ⟨s.timeBase, false⟩ := fun x hx => by
    have he := strokeEnded_afterTests hx.ended
    exact ⟨rest_afterTests hx.rests, he.limit, he.watch, he.restRef, he.lastDir, he.lastEnd⟩
  have hover : ∀ x, Overloaded s x →
      (afterTests x).openOrders = s.openOrders + 1 ∧
        (afterTests x).mode = (if s.mode = .rollcall ∨ s.mode = .barred then s.mode else .halted) ∧
        (afterTests x).latched .overload = true ∧ (afterTests x).active .overload = true := fun x hx => by
    have hfault := fault_afterTests (k := .overload) nofun nofun x
    refine ⟨(congrArg Outer.openOrders (outer_afterTests x)).trans hx.orders,
      (quiet_afterTests hx.quiet).1.trans hx.mode, ?_, ?_⟩
    · unfold State.latched; rw [hfault]; exact hx.latched
    · unfold State.active; rw [hfault]; exact hx.active
  by_cases hb : beginsOverload v.val s
  · have hno : ¬ (v.val ≤ s.cfg.wr ∨ s.loadMon.above = true) := by
      rintro (h | h)
      · exact absurd hb.1 (by omega)
      · rw [hb.2] at h; cases h
    rw [loadTests_open hr hk hw hv hb]
    split
    · rename_i hfirst
      obtain ⟨hends, hheld, hov⟩ := contact_first hb
      obtain ⟨horders, hm, hl, ha⟩ := hover _ hov
      obtain ⟨h₁, h₂, h₃, h₄, h₅, h₆⟩ := hcommon _ hends
      exact ⟨h₁, h₂, h₃, h₄, h₅, h₆, fun h => absurd h hno, fun _ _ =>
        ⟨horders, hm, hl, ha, fun _ => hheld.afterTests hends.ended, fun h => by rw [hfirst] at h; cases h⟩⟩
    · rename_i hfirst
      obtain ⟨hends, hov, hrecord⟩ := halt_first hr hk hd hw hv hb
      obtain ⟨horders, hm, hl, ha⟩ := hover _ hov
      obtain ⟨h₁, h₂, h₃, h₄, h₅, h₆⟩ := hcommon _ hends
      refine ⟨h₁, h₂, h₃, h₄, h₅, h₆, fun h => absurd h hno, fun _ _ =>
        ⟨horders, hm, hl, ha, fun h => absurd h hfirst, fun _ hn₁ hn₂ hn₃ => ?_⟩⟩
      rw [(quiet_afterTests hov.quiet).2, hrecord hn₁ hn₂ hn₃, hun]
  · rw [loadTests_contact hr hk hw hv hb]
    obtain ⟨hends, hheld, horders, hsettles⟩ := contact_plain (v := v.val) hb
    obtain ⟨h₁, h₂, h₃, h₄, h₅, h₆⟩ := hcommon _ hends
    exact ⟨h₁, h₂, h₃, h₄, h₅, h₆, fun _ => ⟨hheld.afterTests hends.ended,
      (congrArg Outer.openOrders (outer_afterTests _)).trans horders,
      fun hm hraise => settled_afterTests (hsettles hm hraise)⟩, fun h₁ h₂ => absurd ⟨h₁, h₂⟩ hb⟩

end Sys2Proof.Machine

/-! ### The own claim taken (O31) -/

namespace Sys2Proof.Machine

variable {g : Prop} {d : Direction} {r : Stroke} {n : Nat} {s t e u x y : State}

/-- The state with the own CLAIM off the line and out of its slot (R13, R118). -/
def claimOff (s : State) : State :=
  completeOwn kindClaim { lineBusy s with line := { (lineBusy s).line with claim := .empty } }

/-- The state in which the stroke engine takes the claim: the self row is heard and the stamps have moved (R49, R51,
R108). -/
def claimArrived (s : State) : State :=
  let heard := stampRowClaim (claimOff s).own (signOfLife (claimOff s).own (claimOff s))
  let stamped := stampClaim heard.straps.feeder.val heard
  { stamped with spacing := { stamped.spacing with withdrawals := 0, held := false } }

theorem claimIsTaken_eq (h : s.mode ≠ .rollcall) (h' : s.mode ≠ .barred) :
    claimIsTaken s = engineOnClaim s.spacing.held (claimArrived s) := by
  have hno : ¬ ((claimOff s).mode = .rollcall ∨ (claimOff s).mode = .barred) := fun hm => hm.elim h h'
  exact if_neg hno

/-- The marks of a self row whose own claim has just been taken (R49, R51). -/
def claimedMarks (s : State) (m : RowMarks) : RowMarks := { heardMarks s m with lastClaim := ⟨s.timeBase, false⟩ }

/-- An own row's marks are the self row's (R48). -/
theorem map_mapMarks_own (ht : TableOwn s) (f : RowMarks → RowMarks) :
    s.table.map (mapMarks s.own f) = s.table.map fun a => { a with selfMarks := f a.selfMarks } :=
  Option.map_congr fun a ha => if_pos (ht a ha).1

theorem claimOff_eq (s : State) :
    ∃ faults, claimOff s =
        { s with
          line := { s.line with idle := false, attempt := none, failures := 0, claim := .empty }, faults := faults } ∧
      ∀ k, k ≠ .line → (claimOff s).fault k = s.fault k := by
  refine ⟨_, rfl, fun k hk => ?_⟩
  unfold claimOff
  rw [fault_completeOwn, if_neg hk]
  rfl

/-- A claim of the own feeder moves both stamps (R108). -/
theorem stampClaim_own (s : State) :
    stampClaim s.straps.feeder.val s =
      { s with spacing :=
          { s.spacing with lineStamp := ⟨s.timeBase, false⟩, feederStamp := ⟨s.timeBase, false⟩ } } := by
  simp only [stampClaim, if_true]
  rfl

/-- The state an own claim leaves to the stroke engine, written out with the fault records given. -/
def claimWrote (faults : Vector FaultRec 16) (s : State) : State :=
  { s with
    line := { s.line with idle := false, attempt := none, failures := 0, claim := .empty }
    table := s.table.map fun a => { a with selfMarks := claimedMarks s a.selfMarks }
    spacing :=
      { s.spacing with
        lineStamp := ⟨s.timeBase, false⟩, feederStamp := ⟨s.timeBase, false⟩, withdrawals := 0, held := false }
    faults := faults
    notice := true }

theorem claimArrived_eq (ht : TableOwn s) :
    (∃ faults, claimArrived s = claimWrote faults s) ∧
      ∀ k, k ≠ .line → k ≠ .peerSilent → (claimArrived s).fault k = s.fault k := by
  obtain ⟨faults, hoff, hkept⟩ := claimOff_eq s
  refine ⟨?_, fun k h₁ h₂ => (fault_signOfLife h₂ (claimOff s).own (claimOff s)).trans (hkept k h₁)⟩
  have htable : (s.table.map (mapMarks s.own (heardMarks s))).map
      (mapMarks s.own fun m => { m with lastClaim := ⟨s.timeBase, false⟩ }) =
      s.table.map fun a => { a with selfMarks := claimedMarks s a.selfMarks } := by
    rw [Option.map_map, ← map_mapMarks_own ht (claimedMarks s)]
    exact congrArg (fun f => s.table.map f) (funext fun a => mapMarks_mapMarks ..)
  unfold claimWrote claimArrived
  rw [← htable]
  generalize claimOff s = c at hoff
  simp only [stampClaim_own]
  rcases signOfLife_cases c.own c with hl | hl <;> rw [hl, hoff]
  · exact ⟨_, rfl⟩
  · exact ⟨_, rfl⟩

/-- What the claim's arrival leaves to the stroke engine, told field by field. -/
structure ClaimGiven (s e : State) : Prop where
  outer : e.outer =
    { s.outer with
      idle := false, attempt := none, failures := 0, table := e.table
      lineStamp := ⟨s.timeBase, false⟩, feederStamp := ⟨s.timeBase, false⟩ }
  table : e.table = s.table.map fun a => { a with selfMarks := claimedMarks s a.selfMarks }
  engine : e.engine = s.engine
  stage : e.stage = s.stage
  pawl : e.pawl = s.pawl
  modeCtl : e.modeCtl = s.modeCtl
  watch : e.loadMon = s.loadMon
  slot : e.line.claim = .empty
  withdrawals : e.spacing.withdrawals = 0
  held : e.spacing.held = false
  notice : e.notice = true
  drift : e.fault .drift = s.fault .drift

theorem claimGiven (ht : TableOwn s) : ClaimGiven s (claimArrived s) := by
  obtain ⟨⟨faults, h⟩, hfault⟩ := claimArrived_eq ht
  have hdrift := hfault .drift nofun nofun
  rw [h] at hdrift ⊢
  exact ⟨rfl, rfl, rfl, rfl, rfl, rfl, rfl, rfl, rfl, rfl, rfl, hdrift⟩

section
variable (k : ClaimGiven s e)
include k

theorem ClaimGiven.mode : e.mode = s.mode := congrArg ModeCtl.mode k.modeCtl
theorem ClaimGiven.timeBase : e.timeBase = s.timeBase := congrArg Outer.timeBase k.outer
theorem ClaimGiven.cfg : e.cfg = s.cfg := congrArg (fun o => o.settings.inForce) k.outer
theorem ClaimGiven.plan : e.plan = s.plan := congrArg Outer.plan k.outer
theorem ClaimGiven.lift : e.lift = s.lift := by
  unfold State.lift State.stagedRec
  rw [k.stage, k.engine]

theorem ClaimGiven.startingCount (r : Stroke) : startingCount e r = startingCount s r := by
  unfold Machine.startingCount movedSince
  rw [k.lift, k.engine]

theorem ClaimGiven.columnPlace : columnPlace e = columnPlace s := by
  unfold Machine.columnPlace
  rw [k.stage, k.engine]

/-- The band is that after the own sign of life alone: the claim's stamp is not read. -/
theorem ClaimGiven.inBand (ht : TableOwn s) (h : InBand (signOfLife s.own s)) : InBand e := by
  have ho := outer_signOfLife s.own s
  refine BandRead.inBand (s := signOfLife s.own s) ?_ h
  refine ⟨?_, ?_, ?_, ?_, ?_⟩
  · unfold bandTable
    rw [k.table, table_signOfLife, map_mapMarks_own ht, Option.map_map, Option.map_map]
    rfl
  · have hs : (signOfLife s.own s).lift = s.lift := by
      rcases signOfLife_cases s.own s with hl | hl <;> rw [hl] <;> rfl
    rw [hs, k.lift]
  · exact (congrArg Outer.straps k.outer).trans (straps_signOfLife s.own s).symm
  · exact k.cfg.trans (congrArg (fun o : Outer => o.settings.inForce) ho).symm
  · exact (congrArg Outer.present k.outer).trans (congrArg Outer.present ho).symm

/-- The gap has not passed: the feeder's stamp has just moved (R109). -/
theorem ClaimGiven.gap (hgl : 0 < s.cfg.gl) : gapPassed e = false := by
  have hf : e.spacing.feederStamp = ⟨s.timeBase, false⟩ := congrArg Outer.feederStamp k.outer
  unfold gapPassed
  rw [hf, k.timeBase, k.cfg]
  have hyoung : (⟨s.timeBase, false⟩ : Stamp).atLeast s.timeBase (10 * s.cfg.gl) = false := by
    simp [Stamp.atLeast, Stamp.age]
    omega
  rw [hyoung, Bool.false_and]

theorem ClaimGiven.peers (n : Nat) : peerOf e n = peerOf s n := by
  unfold peerOf peerRows
  rw [k.table]
  cases s.table <;> rfl

theorem ClaimGiven.selfMarks {a : PeerTable} (ha : s.table = some a) :
    e.table.map (·.selfMarks) =
      some
        { live := .live, lastHeard := ⟨s.timeBase, false⟩, lastClaim := ⟨s.timeBase, false⟩
          silence := some (s.timeBase + BitVec.ofNat 32 (s.cfg.s * s.cfg.p * 10)) } := by
  rw [k.table, ha]
  rfl

end

/-! ### What the stroke engine makes of the claim (R126, R127, R129) -/

/-- The end of a nudge clears nudge-due (R97). -/
def nudgeEnded (r : Stroke) (s : State) : State :=
  if r.kind = .nudge then { s with ceiling := { s.ceiling with nudgeDue := false } } else s

/-- The end of a final lowering stroke commands the pawl SET (R129). -/
def autoSet (r : Stroke) (s : State) : State := if r.dir = .lower ∧ r.final then pawlSet s else s

theorem strokeEnd_eq (r : Stroke) (s : State) :
    strokeEnd r s =
      if s.mode = .moving then arrivalTest (autoSet r (nudgeEnded r (stopRun r.dir s))) else stopRun r.dir s := by
  have hm : (stopRun r.dir s).mode = s.mode := by
    obtain ⟨a, b, h⟩ := stopRun_eq r.dir s
    rw [h]
    rfl
  unfold strokeEnd
  simp only [hm]
  rfl

theorem windsDown_nudgeEnded (g : Prop) (r : Stroke) (s : State) : WindsDown g s (nudgeEnded r s) := by
  unfold nudgeEnded
  split
  · exact { WindsDown.refl g s with nudge := fun _ => rfl }
  · exact .refl g s

theorem windsDown_autoSet (g : Prop) (r : Stroke) (s : State) : WindsDown g s (autoSet r s) := by
  unfold autoSet
  split
  · exact windsDown_pawlSet g s
  · exact .refl g s

/-- After the stroke is stopped the rest of a stroke end only winds down. -/
theorem windsDown_strokeEnd (g : Prop) (r : Stroke) (s : State) : WindsDown g (stopRun r.dir s) (strokeEnd r s) := by
  rw [strokeEnd_eq]
  split
  · exact ((windsDown_nudgeEnded g r _).trans (windsDown_autoSet g r _)).trans (windsDown_arrivalTest g _)
  · exact .refl g _

/-- The state of a void claim before its DRIFT (R127). -/
def voided (s : State) : State := requestPose (notify { s with engine := { s.engine with stroke := .rest } })

theorem voidClaim_eq (tooFar : Bool) (s : State) :
    voidClaim tooFar s = if tooFar = true then report .drift none (voided s) else voided s := rfl

theorem windsDown_voidClaim (g : Prop) (tooFar : Bool) (s : State) : WindsDown g (voided s) (voidClaim tooFar s) := by
  rw [voidClaim_eq]
  split
  · exact windsDown_report g _ _ _
  · exact .refl g _

/-- The state in which a stroke has begun to run (R86, R126). -/
def runBegun (r : Stroke) (n : Nat) (s : State) : State :=
  ceilingIdle <| notify { s with
    engine :=
      { s.engine with
        stroke := .running r n
        limit := armed s.timeBase (10 * s.cfg.tst)
        drive := driveOf s.engine.source (.running r n) s.engine.jog } }

/-- The contact watch armed (R157). -/
def watched (s : State) : State := { s with loadMon := { s.loadMon with watch := true } }

theorem runStroke_eq (r : Stroke) (n : Nat) (s : State) :
    runStroke r n s = if r.kind = .contact then contactTest (watched (runBegun r n s)) else runBegun r n s := rfl

end Sys2Proof.Machine

namespace Sys2Proof.Machine

variable {g : Prop} {d : Direction} {r : Stroke} {n : Nat} {s t e u x y : State}

/-! ### The slot stays free (R114, R118) -/

/-- No claim stands: the slot is EMPTY, and nothing is held or counted (R111, R114). -/
structure SlotFree (s : State) : Prop where
  claiming : s.claiming = false
  slot : s.line.claim = .empty
  withdrawals : s.spacing.withdrawals = 0
  held : s.spacing.held = false

theorem SlotFree.of_windsDown (h : SlotFree x) (k : WindsDown True x y) : SlotFree y := by
  obtain ⟨hclaiming, hslot, hcount, hheld⟩ := k.claim trivial h.claiming
  exact ⟨hclaiming, hslot.trans h.slot, hcount.trans h.withdrawals, hheld.trans h.held⟩

theorem slotFree_stopRun (k : ClaimGiven s e) (d : Direction) : SlotFree (stopRun d e) := by
  obtain ⟨a, b, h⟩ := stopRun_eq d e
  rw [h]
  exact ⟨rfl, k.slot, k.withdrawals, k.held⟩

theorem slotFree_voided (k : ClaimGiven s e) : SlotFree (voided e) := by
  obtain ⟨a, b, h⟩ := requestPose_eq (notify { e with engine := { e.engine with stroke := .rest } })
  unfold voided
  rw [h]
  exact ⟨rfl, k.slot, k.withdrawals, k.held⟩

theorem slotFree_runBegun (k : ClaimGiven s e) (r : Stroke) (n : Nat) : SlotFree (runBegun r n e) :=
  ⟨rfl, k.slot, k.withdrawals, k.held⟩

theorem slotFree_captureContact (h : SlotFree x) : SlotFree (captureContact x) := by
  obtain ⟨ret, a, b, heq, -⟩ := contactStaged_eq x
  have hstaged : SlotFree (contactStaged x) := by
    rw [heq]
    exact ⟨rfl, h.slot, h.withdrawals, h.held⟩
  exact hstaged.of_windsDown (windsDown_arrivalTest True (contactStaged x))

theorem slotFree_contactTest (h : SlotFree x) (hr : x.engine.stroke = .running r n) : SlotFree (contactTest x) := by
  unfold contactTest contactReport
  split
  · simp only [hr]
    split
    · exact slotFree_captureContact ⟨h.claiming, h.slot, h.withdrawals, h.held⟩
    · exact ⟨h.claiming, h.slot, h.withdrawals, h.held⟩
  · exact h

theorem slotFree_runStroke (k : ClaimGiven s e) (r : Stroke) (n : Nat) : SlotFree (runStroke r n e) := by
  have hb := slotFree_runBegun k r n
  rw [runStroke_eq]
  split
  · exact slotFree_contactTest (r := r) (n := n) ⟨hb.claiming, hb.slot, hb.withdrawals, hb.held⟩ rfl
  · exact hb

/-! ### The branches of the claim taken (R126, R127) -/

section
variable (k : ClaimGiven s e) (hr : s.engine.stroke = .claiming r)
include k hr

theorem engineOnClaim_eq (held : Bool) :
    engineOnClaim held e =
      if s.mode = .moving ∧ held = false ∧ s.pawl.state = classPawl (classOf r) ∧
          ¬ (s.cfg.l : Int) + s.cfg.a < startingCount s r then
        if startingCount s r ≤ 0 then strokeEnd r e else runStroke r (startingCount s r).toNat e
      else voidClaim (decide ((s.cfg.l : Int) + s.cfg.a < startingCount s r)) e := by
  unfold engineOnClaim
  rw [k.engine, hr]
  simp only [k.mode, k.pawl, k.cfg, k.startingCount, decide_eq_false_iff_not]

theorem slotFree_engineOnClaim (held : Bool) : SlotFree (engineOnClaim held e) := by
  rw [engineOnClaim_eq k hr]
  split
  · split
    · exact (slotFree_stopRun k r.dir).of_windsDown (windsDown_strokeEnd True r e)
    · exact slotFree_runStroke k r _
  · exact (slotFree_voided k).of_windsDown (windsDown_voidClaim True _ e)

end

theorem outer_runBegun (r : Stroke) (n : Nat) (e : State) : (runBegun r n e).outer = e.outer := rfl

theorem outer_runStroke (r : Stroke) (n : Nat) (e : State) : (runStroke r n e).outer = e.outer := by
  rw [runStroke_eq]
  split
  · exact (outer_contactTest _).trans (outer_runBegun r n e)
  · exact outer_runBegun r n e

theorem outer_voidClaim (tooFar : Bool) (e : State) : (voidClaim tooFar e).outer = e.outer :=
  (windsDown_voidClaim False tooFar e).outer.trans (outer_requestPose _)

theorem outer_engineOnClaim (held : Bool) (e : State) : (engineOnClaim held e).outer = e.outer := by
  unfold engineOnClaim
  split
  · simp only []
    split
    · split
      · exact outer_strokeEnd _ e
      · exact outer_runStroke _ _ e
    · exact outer_voidClaim _ e
  · rfl

/-! ### The stroke runs (R126) -/

/-- The state that a claim taken leaves where no contact is captured at once. -/
def ran (r : Stroke) (n : Nat) (s : State) : State :=
  if r.kind = .contact then watched (runBegun r n s) else runBegun r n s

theorem runStroke_ran (h : r.kind = .contact → e.loadMon.present < e.cfg.wc) (n : Nat) :
    runStroke r n e = ran r n e := by
  rw [runStroke_eq, ran]
  split
  · rename_i hk
    exact if_neg fun hc => absurd hc.2 (Nat.not_le.mpr (h hk))
  · rfl

/-- No wait shows on the ceiling unit (R86, R191). -/
def CeilingStill (s : State) : Prop :=
  s.ceiling.outcome = .idle ∧ s.ceiling.reason = .none ∧ s.lamps.waitingLong = false

theorem ceilingStill_ceilingIdle (s : State) : CeilingStill (ceilingIdle s) := ⟨rfl, rfl, by
  show ((WaitReason.none != WaitReason.none && s.ceiling.reason != .none) && s.lamps.waitingLong) = false
  rfl⟩

theorem readers_running (hr : s.engine.stroke = .running r n) (hm : s.mode = .moving)
    (ha : s.stage.awaitingSet = false) (hnow : outOfBand (shareOf s) = false) :
    readers s = ceilingIdle (shareEval s) := by
  obtain ⟨-, -, hcol⟩ := inner_shareEval_inBand hnow
  have hmode := hcol.mode.trans hm
  have hawait : awaitTest (shareEval s) = shareEval s := by simp [awaitTest, hcol.stage, ha]
  unfold readers evaluate
  rw [hawait, restTest_of_moving hmode, if_pos hmode, hcol.engine, hr]

theorem ceilingStill_finish (hr : s.engine.stroke = .running r n) (hm : s.mode = .moving)
    (ha : s.stage.awaitingSet = false) (hnow : outOfBand (shareOf s) = false) (h : CeilingStill s) :
    CeilingStill (finish s) := by
  have hband : outOfBand (shareOf (clearNotice s)) = false := hnow
  obtain ⟨-, hnotice, -⟩ := inner_shareEval_inBand hband
  have hsettle : CeilingStill (settle settleRounds s) := by
    rw [settleRounds, settle_succ]
    split
    · rw [readers_running (s := clearNotice s) hr hm ha hband,
        settle_still (s := ceilingIdle (shareEval (clearNotice s))) _ hnotice]
      exact ceilingStill_ceilingIdle _
    · exact h
  obtain ⟨busy, shown, hf⟩ := finish_eq_settled s
  rw [hf]
  exact hsettle

end Sys2Proof.Machine

namespace Sys2Proof.Machine

variable {g : Prop} {d : Direction} {r : Stroke} {n : Nat} {s t c e u x y : State}

/-! ### The drive at the end of a stroke (R123, R129) -/

theorem steady_arrive (s : State) : Steady s (arrive s) := by
  have hwait : Steady s { s with stage := { s.stage with awaitingSet := true } } := steady_of_engine rfl rfl id
  unfold arrive
  split
  · exact steady_handOverArrival s
  · simp only []
    split
    · exact hwait
    · exact hwait.trans (steady_pawlSet _)

theorem steady_arrivalTest (s : State) : Steady s (arrivalTest s) := by
  have hmark : Steady s (markLimitReported s) := by
    unfold markLimitReported
    split
    · exact steady_of_engine rfl rfl id
    · exact .refl s
  unfold arrivalTest
  split
  · split
    · simp only []
      split
      · split
        · exact hmark.trans (steady_report _ _ _)
        · exact steady_arrive s
      · split
        · exact .refl s
        · exact steady_report _ _ s
    · exact .refl s
  · exact .refl s

/-- No jog is in progress while a stroke is claimed or runs (R123, R137). -/
theorem jogOver_of_busy (h : MotionSafe s) (hs : s.engine.stroke ≠ .rest) : JogOver s := by
  have hj : s.engine.jog = .none := by
    by_contra hno
    exact hs (h.jogRest hno)
  have hsource := h.source
  rw [if_pos hj] at hsource
  refine ⟨hj, hsource, ?_⟩
  rw [h.drive, hsource, hj]

theorem jogOver_captureContact (h : JogOver c) : JogOver (captureContact c) := by
  obtain ⟨ret, a, b, heq, -⟩ := contactStaged_eq c
  have hstaged : JogOver (contactStaged c) := by
    rw [heq]
    obtain ⟨h₁, h₂, -⟩ := h
    exact ⟨h₁, h₂, by rw [h₁, h₂]⟩
  exact (steady_arrivalTest (contactStaged c)).motion.jogOver hstaged

/-! ### The stroke runs, or captures contact at once (R77, R126, R130, R157) -/

theorem ceilingIdle_eq (s : State) :
    ∃ ceiling spacing lamps, ceilingIdle s =
      { s with ceiling := ceiling, spacing := spacing, lamps := lamps } := ⟨_, _, _, rfl⟩

theorem unwatched_watched (s : State) :
    unwatched (watched s) = { s with loadMon := { s.loadMon with watch := false } } := rfl

theorem contactBegun_eq (r : Stroke) (n : Nat) (e : State) :
    ∃ ceiling spacing lamps, unwatched (watched (runBegun r n e)) =
      { e with
        engine :=
          { e.engine with
            stroke := .running r n, limit := armed e.timeBase (10 * e.cfg.tst)
            drive := driveOf e.engine.source (.running r n) e.engine.jog }
        loadMon := { e.loadMon with watch := false }
        ceiling := ceiling, spacing := spacing, lamps := lamps, notice := true } := by
  obtain ⟨ceiling, spacing, lamps, h⟩ := ceilingIdle_eq (notify { e with
    engine :=
      { e.engine with
        stroke := .running r n, limit := armed e.timeBase (10 * e.cfg.tst)
        drive := driveOf e.engine.source (.running r n) e.engine.jog } })
  refine ⟨ceiling, spacing, lamps, ?_⟩
  rw [unwatched_watched, runBegun, h]
  rfl

theorem runStroke_captures (hk : r.kind = .contact) (hv : e.cfg.wc ≤ e.loadMon.present) :
    runStroke r n e = captureContact (unwatched (watched (runBegun r n e))) := by
  rw [runStroke_eq, if_pos hk]
  exact contactTest_captures (r := r) (n := n) rfl hk rfl hv

section
variable (k : ClaimGiven s e) (hr : s.engine.stroke = .claiming r)
include k hr

/-- What the statement has of a stroke that a claim starts. -/
theorem claim_runs (hm : s.mode = .moving) (ha : s.stage.awaitingSet = false) (hband : InBand e) (hs : MotionSafe s) :
    (finish (ran r n e)).mode = .moving ∧ (finish (ran r n e)).engine.stroke = .running r n ∧
      (finish (ran r n e)).engine.limit = some (s.timeBase + BitVec.ofNat 32 (10 * s.cfg.tst)) ∧
      (finish (ran r n e)).engine.drive = (if r.dir = .raise then .runUp else .runDown) ∧
      (finish (ran r n e)).loadMon.watch = (s.loadMon.watch || r.kind == .contact) ∧
      (finish (ran r n e)).ceiling.outcome = .idle ∧ (finish (ran r n e)).ceiling.reason = .none ∧
      (finish (ran r n e)).lamps.waitingLong = false := by
  obtain ⟨hjog, hsource, -⟩ := jogOver_of_busy hs (by rw [hr]; exact nofun)
  obtain ⟨hdir, -⟩ := hs.strokeShape r (.inl hr)
  have hengine : (ran r n e).engine =
      { s.engine with
        stroke := .running r n, limit := some (s.timeBase + BitVec.ofNat 32 (10 * s.cfg.tst))
        drive := driveOf s.engine.source (.running r n) s.engine.jog } := by
    rw [← k.engine, ← k.timeBase, ← k.cfg]
    unfold ran
    split <;> rfl
  have hstill : CeilingStill (ran r n e) := by
    unfold ran
    split <;> exact ceilingStill_ceilingIdle _
  have hmode : (ran r n e).mode = .moving := by
    rw [← hm, ← k.mode]
    unfold ran
    split <;> rfl
  have hstage : (ran r n e).stage = s.stage := by
    rw [← k.stage]
    unfold ran
    split <;> rfl
  have hwatch : (ran r n e).loadMon.watch = (s.loadMon.watch || r.kind == .contact) := by
    rw [← k.watch]
    unfold ran
    split
    · rename_i hk
      rw [hk]
      exact (Bool.or_true _).symm
    · rename_i hk
      rw [beq_false_of_ne hk, Bool.or_false]
      rfl
  have hnow : outOfBand (shareOf (ran r n e)) = false := by
    refine inBand_shareOf (BandRead.inBand (s := e) ?_ hband)
    unfold ran
    split <;> exact ⟨rfl, rfl, rfl, rfl, rfl⟩
  have hrun : (ran r n e).engine.stroke = .running r n := by rw [hengine]
  have hawait : (ran r n e).stage.awaitingSet = false := by rw [hstage]; exact ha
  have hin := finish_running hrun hmode hawait hnow
  have he : (finish (ran r n e)).engine = (ran r n e).engine := congrArg Inner.engine hin
  obtain ⟨ho, hreason, hlong⟩ := ceilingStill_finish hrun hmode hawait hnow hstill
  rw [he, hengine]
  refine ⟨(congrArg Inner.mode hin).trans hmode, rfl, rfl, ?_, (congrArg Inner.watch hin).trans hwatch, ho, hreason,
    hlong⟩
  simp only [hsource, driveOf]
  cases hd : r.dir with
  | raise => rfl
  | lower => rfl
  | none => exact absurd hd hdir

/-- What the statement has of a contact stroke that is over as it begins. -/
theorem claim_captures (hk : r.kind = .contact) (hv : s.cfg.wc ≤ s.loadMon.present) :
    ∃ c, runStroke r n e = captureContact c ∧ c.engine.travel = s.engine.travel ∧ c.timeBase = s.timeBase ∧
      c.cfg = s.cfg ∧ c.stage = s.stage ∧ c.plan = s.plan ∧ c.mode = s.mode ∧ (MotionSafe s → JogOver c) := by
  obtain ⟨ceiling, spacing, lamps, hc⟩ := contactBegun_eq r n e
  refine ⟨_, runStroke_captures hk (by rw [k.cfg, k.watch]; exact hv), ?_⟩
  rw [hc]
  refine ⟨(congrArg Engine.travel k.engine :), k.timeBase, k.cfg, k.stage, k.plan, k.mode, fun hs => ?_⟩
  obtain ⟨hjog, hsource, -⟩ := jogOver_of_busy hs (by rw [hr]; exact nofun)
  unfold JogOver
  show e.engine.jog = .none ∧ e.engine.source = .stroke ∧
    driveOf e.engine.source (.running r n) e.engine.jog = driveOf .stroke (.running r n) .none
  rw [k.engine, hjog, hsource]
  exact ⟨rfl, rfl, rfl⟩

end

end Sys2Proof.Machine

namespace Sys2Proof.Machine

variable {r : Stroke} {n : Nat} {s t e u x y : State}

/-! ### A void claim, and a claim whose stroke is over (R127, R129) -/

/-- The pawl that the stroke's class needs (R126). -/
theorem classPawl_classOf (r : Stroke) :
    classPawl (classOf r) =
      if r.dir = .lower ∧ r.kind ≠ .contact ∧ r.kind ≠ .nudge then .withdrawn else .set := by
  unfold classOf
  split
  · rename_i hk
    rw [if_neg fun h => h.2.1 hk]
    rfl
  · rename_i hk
    rw [if_neg fun h => h.2.2 hk]
    rfl
  · rename_i h₁ h₂
    by_cases hd : r.dir = .lower
    · rw [if_pos hd, if_pos ⟨hd, h₁, h₂⟩]
      rfl
    · rw [if_neg hd, if_neg fun h => hd h.1]
      rfl

theorem startingCount_eq (s : State) (r : Stroke) :
    startingCount s r =
      r.length - (if r.dir = .lower then
          r.start - (if r.kind = .contact then (s.engine.travel : Int) else s.lift.getD s.engine.travel)
        else (if r.kind = .contact then (s.engine.travel : Int) else s.lift.getD s.engine.travel) - r.start) := by
  unfold startingCount movedSince
  cases hk : r.kind <;> cases hl : s.lift <;> rfl

section
variable (k : ClaimGiven s e)
include k

theorem voided_spec (hm : s.mode ≠ .rollcall) :
    (voided e).engine = { s.engine with stroke := .rest } ∧ (voided e).line.posePending = true ∧
      (voided e).mode = s.mode ∧ (voided e).fault .drift = s.fault .drift ∧ (voided e).timeBase = s.timeBase ∧
      columnPlace (voided e) = columnPlace s := by
  have hatt : e.line.attempt = none := congrArg Outer.attempt k.outer
  have hroll : ¬ (notify { e with engine := { e.engine with stroke := .rest } }).mode = .rollcall := fun h =>
    hm (k.mode.symm.trans h)
  have hsend : ¬ sendingKind (notify { e with engine := { e.engine with stroke := .rest } }) kindPose = true := by
    unfold sendingKind
    show ¬ (match e.line.attempt with | some a => _ | none => _) = true
    rw [hatt]
    exact nofun
  unfold voided requestPose
  rw [if_neg hroll, if_neg hsend]
  refine ⟨?_, rfl, k.mode, k.drift, k.timeBase, ?_⟩
  · rw [← k.engine]; rfl
  · rw [← k.columnPlace]; rfl

/-- What follows the stroke engine's answer to a claim queues no other (R109, R114). -/
theorem ClaimGiven.windsDown_finish (hgl : 0 < s.cfg.gl) (hx : x.outer = e.outer) : WindsDown True x (finish x) :=
  Machine.windsDown_finish fun _ => (gapPassed_of_outer hx).trans (k.gap hgl)

theorem claim_void (hgl : 0 < s.cfg.gl) (hm : s.mode ≠ .rollcall) (tooFar : Bool) :
    (finish (voidClaim tooFar e)).line.posePending = true ∧
      (s.engine.jog = .none → (finish (voidClaim tooFar e)).engine = { s.engine with stroke := .rest }) := by
  obtain ⟨hengine, hpose, -⟩ := voided_spec k hm
  have hw := (windsDown_voidClaim True tooFar e).trans (k.windsDown_finish hgl (outer_voidClaim tooFar e))
  refine ⟨hw.pose hpose, fun hj => ?_⟩
  rw [hw.engine trivial (by rw [hengine]) (by rw [hengine]; exact hj), hengine]

/-- A starting count above L + A is DRIFT (R127). -/
theorem claim_drifts (hm : s.mode ≠ .rollcall) :
    (finish (voidClaim true e)).fault .drift = recordAfter s .drift (s.active .drift) none := by
  obtain ⟨-, -, -, hfault, htime, hplace⟩ := voided_spec k hm
  rw [fault_finish (k := .drift) nofun nofun, voidClaim_eq, if_pos rfl, fault_report_same]
  unfold recordAfter recordAfterAt State.active
  rw [hfault, htime, hplace]

theorem claim_over (r : Stroke) :
    StrokeEnded r.dir s (strokeEnd r e) := by
  obtain ⟨h₁, h₂, h₃, h₄, h₅, h₆, h₇, h₈⟩ :=
    (strokeEnded_stopRun r.dir e).of_windsDown (windsDown_strokeEnd True r e)
  rw [k.engine] at h₂ h₄
  rw [k.timeBase] at h₆ h₇
  rw [k.cfg] at h₇
  exact ⟨h₁, h₂, h₃, h₄, h₅, h₆, h₇, h₈⟩

end

/-- Settles O31: once the stamps have moved no other claim can be queued, so that what the stroke engine makes of the
claim - a run, a capture, a stroke that is over, or a void claim - stands to the end of the command. -/
theorem claimTaken : Obligations.ClaimTaken := by
  unfold Obligations.ClaimTaken
  intro s w r hclaim hr hgl hroll hbar ht here count limit pawlRight clear
  have k := claimGiven ht
  have hexec : exec .claimTaken s = .next (finish (engineOnClaim s.spacing.held (claimArrived s))) := by
    show execClaimTaken s = _
    unfold execClaimTaken
    rw [hclaim, claimIsTaken_eq hroll hbar]
  have hcount : startingCount s r = count := startingCount_eq s r
  have hlimit : (s.cfg.l : Int) + s.cfg.a = limit := rfl
  have hclear : clear ↔ s.mode = .moving ∧ s.spacing.held = false ∧ s.pawl.state = classPawl (classOf r) := by
    rw [classPawl_classOf]
  have heq := engineOnClaim_eq k hr s.spacing.held
  rw [hcount, hlimit] at heq
  have hslot := slotFree_engineOnClaim k hr s.spacing.held
  have houter := outer_engineOnClaim s.spacing.held (claimArrived s)
  generalize engineOnClaim s.spacing.held (claimArrived s) = x at hexec heq hslot houter
  generalize claimArrived s = e at k heq houter
  have hfree := hslot.of_windsDown (k.windsDown_finish hgl houter)
  have htouter : (finish x).outer = e.outer := (outer_finish x).trans houter
  have httable : (finish x).table = e.table := congrArg Outer.table htouter
  clear_value count limit
  have hlim0 : 0 ≤ limit := by rw [← hlimit]; omega
  have hvoid : ¬ clear ∨ limit < count → x = voidClaim (decide (limit < count)) e := fun h => by
    rw [heq, if_neg]
    rintro ⟨h₁, h₂, h₃, h₄⟩
    exact h.elim (fun hn => hn (hclear.mpr ⟨h₁, h₂, h₃⟩)) h₄
  have hrun : clear → count ≤ limit → x = if count ≤ 0 then strokeEnd r e else runStroke r count.toNat e :=
    fun h hle => by
      obtain ⟨h₁, h₂, h₃⟩ := hclear.mp h
      rw [heq, if_pos ⟨h₁, h₂, h₃, Int.not_lt.mpr hle⟩]
  refine ⟨_, hexec, ?_, fun n => ?_, fun a ha => ?_, hfree.slot, hfree.withdrawals, hfree.held, ?_, ?_, ?_, ?_, ?_, ?_⟩
  · rw [htouter, httable]
    exact k.outer
  · exact (peerOf_of_table httable n).trans (k.peers n)
  · rw [httable]
    exact k.selfMarks ha
  · intro hc hpos hle hband ha hs hload
    rw [hrun hc hle, if_neg (Int.not_le.mpr hpos), runStroke_ran fun hk => by rw [k.watch, k.cfg]; exact hload hk]
    exact claim_runs k hr (hclear.mp hc).1 ha (k.inBand ht hband) hs
  · intro hc hpos hle hk hload hun ha
    obtain ⟨c, hcap, htravel, htime, hcfg, hstage, hplan, hmode, hover⟩ :=
      claim_captures (n := count.toNat) k hr hk hload
    rw [hrun hc hle, if_neg (Int.not_le.mpr hpos), hcap]
    have hcc := contactCaptured c
    obtain ⟨hended, hst, hcontent⟩ := hcc.of_eq htravel htime hcfg (by rw [hstage]) hplan
    have hend := hended.finish
    obtain ⟨hstf, hret⟩ := stagedAt_finish hst
    refine ⟨(restsArrived_finish hcc.rests).stroke, hend.limit, hend.watch, hend.restRef, hend.lastDir, hend.lastEnd,
      fun hs => ?_, hstf.1, ?_, by rw [hret]; exact hcontent, fun hraise => ?_⟩
    · exact drive_notRunning hend.stroke ((startsNothing_finish _).jogOver (jogOver_captureContact (hover hs)))
    · rw [lift_of_staged hstf.1, hend.travel]
      exact congrArg some (Int.sub_self _)
    · have hset := hcc.settles (hmode.trans (hclear.mp hc).1) (by rw [hstage]; exact hraise)
      rcases (settlesAtRest_finish (s := captureContact c) (by rw [hset]; exact nofun)).mode with h | ⟨-, h⟩
      · exact .inl (h.trans hset)
      · exact .inr h
  · intro hc hle
    have hx : x = strokeEnd r e := by rw [hrun hc (le_trans hle hlim0), if_pos hle]
    have hend := (claim_over k r).finish
    rw [← hx] at hend
    exact ⟨rest_of_idle hend.stroke hfree.claiming, hend.limit, hend.lastDir, hend.lastEnd, hend.restRef⟩
  · intro h
    rw [hvoid h]
    exact claim_void k hgl hroll _
  · intro h
    rw [hvoid (.inr h), decide_eq_true h]
    exact claim_drifts k hroll
  · intro hle hq
    have hx : x = voided e := by
      rw [hvoid (.inl fun hc => hq.1 (hclear.mp hc).1), decide_eq_false (Int.not_lt.mpr hle)]
      rfl
    rw [hx, fault_finish (k := .drift) nofun nofun]
    obtain ⟨-, -, -, hdrift, -⟩ := voided_spec k hroll
    exact hdrift

end Sys2Proof.Machine

/-! ### Counts during a stroke (O47) -/

namespace Sys2Proof.Machine

variable {d : Direction} {r : Stroke} {n k : Nat} {up : Bool} {s t u v y : State}

/-! ### What settles as it stands, and rest found (R60, R86, R173) -/

/-- Rest(k) is told of the table, the mode and the stage. -/
theorem restAt_of_eq (htable : t.table = s.table) (hmode : t.mode = s.mode) (hstage : t.stageIx = s.stageIx) :
    restAt t k = restAt s k := by
  cases ha : s.table with
  | none => simp [restAt, viewTest, htable, ha]
  | some a =>
    have hself : (selfRow t a).isLive = (selfRow s a).isLive ∧
        (selfRow t a).report.mode = (selfRow s a).report.mode ∧
        (selfRow t a).report.stage = (selfRow s a).report.stage := ⟨rfl, hmode, hstage⟩
    simp only [restAt, viewTest, allRows_of_some (htable.trans ha), allRows_of_some ha, htable, List.all_cons, hself]

theorem findsRest_of_eq (htable : t.table = s.table) (hmode : t.mode = s.mode) (hstage : t.stageIx = s.stageIx) :
    findsRest t = findsRest s := by
  unfold findsRest
  rw [hstage]
  split
  · exact restAt_of_eq htable hmode hstage
  · rfl

/-- Out of MOVING, where rest is not found, the mode stands (R173). -/
theorem mode_finish_of_no_rest (hm : s.mode ≠ .moving) (hrest : findsRest s = false) : (finish s).mode = s.mode := by
  by_cases hset : s.mode = .settled
  · exact ((columnStands_settle hset hrest settleRounds).trans (columnStands_finish s)).mode
  · exact congrArg Inner.mode (finish_quiet ⟨hm, hset⟩)

/-- A column in band in SETTLED, the group not at rest, settles as it stands (R162, R173). -/
theorem finish_settledInBand (hm : s.mode = .settled) (hrest : findsRest s = false)
    (hnow : outOfBand (shareOf s) = false) : (finish s).inner = s.inner := by
  obtain ⟨hinner, hnotice, -⟩ := inner_shareEval_inBand (s := clearNotice s) hnow
  have hfinds : findsRest (clearNotice s) = false := (findsRest_stands (columnStands_clearNotice s)).trans hrest
  have hround : readers (clearNotice s) = ceilingIdle (shareEval (clearNotice s)) := by
    rw [readers_settled (s := clearNotice s) hm, hfinds, if_neg Bool.false_ne_true]
  have hsettle : (settle settleRounds s).inner = s.inner := by
    rw [settleRounds, settle_succ]
    split
    · rw [hround, settle_still (s := ceilingIdle (shareEval (clearNotice s))) _ hnotice, inner_ceilingIdle]
      exact hinner
    · rfl
  rw [← hsettle]
  unfold finish armBusy
  split <;> rfl

/-- What a count leaves that lets the stroke run on settles as it stands. -/
theorem finish_runsOn (hr : s.engine.stroke = .running r n) (ha : s.stage.awaitingSet = false)
    (h : Quiet s ∨ InBand s ∧ (s.mode = .moving ∨ s.mode = .settled ∧ findsRest s = false)) :
    (finish s).inner = s.inner := by
  rcases h with hq | ⟨hband, hm | ⟨hm, hrest⟩⟩
  · exact finish_quiet hq
  · exact finish_running hr hm ha (inBand_shareOf hband)
  · exact finish_settledInBand hm hrest (inBand_shareOf hband)

/-! ### The count taken (R75, R124) -/

/-- The state with travel counted, before the stroke engine sees the count. -/
def counted (x : Nat) (s : State) : State :=
  let m : State := { s with engine := { s.engine with travel := x } }
  if m.stagedRec.isSome then notify m else m

theorem counted_eq (x : Nat) (s : State) :
    ∃ notice, counted x s = { s with engine := { s.engine with travel := x }, notice := notice } := by
  unfold counted
  simp only []
  split
  · exact ⟨true, rfl⟩
  · exact ⟨s.notice, rfl⟩

theorem exec_countEvent_running {x : Nat} (hx : countTravel up s.engine.travel = some x)
    (hr : s.engine.stroke = .running r n) :
    exec (.countEvent up) s = .next (finish (countRunning up r n (counted x s))) := by
  obtain ⟨notice, hc⟩ := counted_eq x s
  have hrun : (counted x s).engine.stroke = .running r n := by rw [hc]; exact hr
  have hafter : afterCount up (counted x s) = countRunning up r n (counted x s) := by
    unfold afterCount
    rw [hrun]
  rw [← hafter]
  show execCountEvent up s = _
  unfold execCountEvent
  rw [hx]
  rfl

theorem inBand_counted (x : Nat) (h : InBand s) : InBand (counted x s) := by
  obtain ⟨notice, hc⟩ := counted_eq x s
  refine BandRead.inBand (s := s) ?_ h
  rw [hc]
  refine ⟨rfl, ?_, rfl, rfl, rfl⟩
  unfold State.lift State.stagedRec
  cases s.stage.record <;> rfl

/-! ### The end of a stroke (R129) -/

theorem steady_nudgeEnded (r : Stroke) (s : State) : Steady s (nudgeEnded r s) := by
  unfold nudgeEnded
  split
  · exact steady_of_engine rfl rfl id
  · exact .refl s

theorem steady_autoSet (r : Stroke) (s : State) : Steady s (autoSet r s) := by
  unfold autoSet
  split
  · exact steady_pawlSet s
  · exact .refl s

theorem steady_strokeEnd (r : Stroke) (s : State) : Steady s (strokeEnd r s) := by
  rw [strokeEnd_eq]
  split
  · exact (((steady_stopRun _ s).trans (steady_nudgeEnded r _)).trans (steady_autoSet r _)).trans
      (steady_arrivalTest _)
  · exact steady_stopRun _ s

theorem motionOnly_autoSet (r : Stroke) (s : State) : MotionOnly s (autoSet r s) := by
  unfold autoSet
  split
  · exact motionOnly_pawlSet (.refl s)
  · exact .refl s

end Sys2Proof.Machine

namespace Sys2Proof.Machine

variable {d : Direction} {r : Stroke} {n k x : Nat} {up : Bool} {s t u v y : State}

/-- The state of a stroke end in MOVING before its arrival test (R129). -/
def endedBefore (r : Stroke) (s : State) : State := autoSet r (nudgeEnded r (stopRun r.dir s))

theorem strokeEnd_moving (hm : s.mode = .moving) : strokeEnd r s = arrivalTest (endedBefore r s) := by
  rw [strokeEnd_eq, if_pos hm]
  rfl

theorem strokeEnd_still (hm : s.mode ≠ .moving) : strokeEnd r s = stopRun r.dir s := by
  rw [strokeEnd_eq, if_neg hm]

theorem nudgeEnded_eq (r : Stroke) (s : State) :
    ∃ due, nudgeEnded r s = { s with ceiling := { s.ceiling with nudgeDue := due } } ∧
      (r.kind = .nudge → due = false) := by
  unfold nudgeEnded
  split
  · exact ⟨false, rfl, fun _ => rfl⟩
  · rename_i h
    exact ⟨s.ceiling.nudgeDue, rfl, fun hk => absurd hk h⟩

/-- What the end of a stroke has written before its arrival test. -/
structure EndedBefore (r : Stroke) (s v : State) : Prop where
  outer : v.outer = s.outer
  mode : v.mode = s.mode
  stage : v.stage = s.stage
  notice : v.notice = true
  nudge : r.kind = .nudge → v.ceiling.nudgeDue = false
  set : s.pawl.state = .set → v.pawl.state = .set
  off : s.pawl.state = .withdrawn ∨ s.pawl.state = .setting → v.pawl.state = .withdrawn ∨ v.pawl.state = .setting
  withdrawn : r.dir = .lower → r.final = true → s.pawl.state = .withdrawn →
    v.pawl.state = .setting ∧ v.pawl.commanded = .set

theorem endedBefore_spec (r : Stroke) (s : State) : EndedBefore r s (endedBefore r s) := by
  obtain ⟨a, b, hstop⟩ := stopRun_eq r.dir s
  obtain ⟨due, hz, hdue⟩ := nudgeEnded_eq r (stopRun r.dir s)
  have houter := (windsDown_autoSet False r (nudgeEnded r (stopRun r.dir s))).outer
  have hm := motionOnly_autoSet r (nudgeEnded r (stopRun r.dir s))
  have hnotice := (steady_autoSet r (nudgeEnded r (stopRun r.dir s))).notice
  have hnudge := (windsDown_autoSet False r (nudgeEnded r (stopRun r.dir s))).nudge
  have hpawl : (nudgeEnded r (stopRun r.dir s)).pawl = s.pawl := by rw [hz, hstop]
  obtain ⟨hset, hoff⟩ := pawlState_pawlSet (nudgeEnded r (stopRun r.dir s))
  rw [hpawl] at hset hoff
  refine ⟨houter.trans ?_, (congrArg ModeCtl.mode hm.modeCtl).trans ?_, hm.stage.trans ?_, hnotice ?_,
    fun hk => hnudge ?_, fun h => ?_, fun h => ?_, fun hd hf hp => ?_⟩
  · rw [hz, hstop]; rfl
  · rw [hz, hstop]; rfl
  · rw [hz, hstop]
  · rw [hz, hstop]
  · rw [hz]; exact hdue hk
  · unfold endedBefore autoSet
    split
    · exact hset h
    · rw [hpawl]; exact h
  · unfold endedBefore autoSet
    split
    · exact .inr (hoff h)
    · rw [hpawl]; exact h
  · unfold endedBefore autoSet
    rw [if_pos ⟨hd, hf⟩, pawl_pawlSet_withdrawn (by rw [hpawl]; exact hp)]
    exact ⟨rfl, rfl⟩

/-! ### The branches of a count (R128, R131) -/

/-- What the statement has of every end of the stroke at a count. -/
structure CountEnds (r : Stroke) (x : Nat) (s t : State) : Prop where
  limit : t.engine.limit = none
  restRef : t.engine.restRef = x
  lastDir : t.engine.lastDir = r.dir
  lastEnd : t.engine.lastEnd = ⟨s.timeBase, false⟩
  dwell : t.engine.dwell = some (s.timeBase + BitVec.ofNat 32 (10 * s.cfg.trev))
  watch : t.loadMon.watch = false
  stroke : ∀ r' n', t.engine.stroke ≠ .running r' n'
  drive : MotionSafe s → t.engine.drive = .off

theorem strokeEnded_counted (h : StrokeEnded d (counted x s) y) :
    StrokeEnded d { s with engine := { s.engine with travel := x } } y := by
  obtain ⟨notice, hc⟩ := counted_eq x s
  obtain ⟨h₁, h₂, h₃, h₄, h₅, h₆, h₇, h₈⟩ := h
  rw [hc] at h₂ h₄ h₆ h₇
  exact ⟨h₁, h₂, h₃, h₄, h₅, h₆, h₇, h₈⟩

/-- A stroke that ends at a count has ended to the end of the command. -/
theorem countEnds (hr : s.engine.stroke = .running r n) (h : StrokeEnded r.dir (counted x s) y)
    (hy : StartsNothing (counted x s) y) : CountEnds r x s (finish y) := by
  obtain ⟨h₁, -, h₃, h₄, h₅, h₆, h₇, h₈⟩ := (strokeEnded_counted h).finish
  refine ⟨h₃, h₄, h₅, h₆, h₇, h₈, fun r' n' e => ?_, fun hs => ?_⟩
  · rw [e] at h₁
    cases h₁
  · have hover : JogOver (counted x s) := by
      obtain ⟨notice, hc⟩ := counted_eq x s
      rw [hc]
      exact jogOver_of_busy (s := s) hs (by rw [hr]; exact nofun)
    exact drive_notRunning h₁ ((startsNothing_finish y).jogOver (hy.jogOver hover))

theorem strokeEnded_strokeEnd (r : Stroke) (s : State) : StrokeEnded r.dir s (strokeEnd r s) :=
  (strokeEnded_stopRun r.dir s).of_windsDown (windsDown_strokeEnd False r s)

theorem outer_counted (x : Nat) (s : State) : (counted x s).outer = { s.outer with travel := x } := by
  obtain ⟨notice, hc⟩ := counted_eq x s
  rw [hc]
  rfl

theorem outer_countRunning (up : Bool) (r : Stroke) (n : Nat) (s : State) :
    (countRunning up r n s).outer = s.outer := by
  unfold countRunning
  split
  · unfold topOfTravel
    rw [outer_report, outer_stopRun]
  · split
    · split
      · exact outer_strokeEnd r s
      · rfl
    · split
      · rw [outer_report, outer_stopRun]
      · rfl

/-- Out of MOVING the end of a stroke leaves mode control and the pawl as they were, but for rest found (R60, R173). -/
theorem strokeEnd_resting (hm : s.mode ≠ .moving) (ha : s.stage.awaitingSet = false) :
    (finish (strokeEnd r s)).mode =
        (if s.mode = .settled ∧ findsRest s = true then .idle else s.mode) ∧
      (finish (strokeEnd r s)).engine.stroke = .rest ∧ (finish (strokeEnd r s)).stage = s.stage ∧
      (finish (strokeEnd r s)).pawl = s.pawl ∧ (finish (strokeEnd r s)).ceiling.nudgeDue = s.ceiling.nudgeDue := by
  obtain ⟨a, b, hstop⟩ := stopRun_eq r.dir s
  rw [strokeEnd_still hm]
  have hmode : (stopRun r.dir s).mode = s.mode := by rw [hstop]; rfl
  have hrest : findsRest (stopRun r.dir s) = findsRest s :=
    findsRest_of_eq (by rw [hstop]) hmode (by rw [hstop]; rfl)
  have hnot : (stopRun r.dir s).mode ≠ .moving := by rw [hmode]; exact hm
  have hend := settlesAtRest_finish hnot
  have hstage := hend.stage_of_not_awaiting (by rw [hstop]; exact ha)
  refine ⟨?_, ?_, ?_, ?_, ?_⟩
  · split
    · rename_i h
      exact (finish_findsRest (hmode.trans h.1) (hrest.trans h.2) (by rw [hstop])).1
    · rename_i h
      by_cases hset : s.mode = .settled
      · have hno : findsRest s = false := Bool.eq_false_iff.mpr fun hf => h ⟨hset, hf⟩
        exact (mode_finish_of_no_rest hnot (hrest.trans hno)).trans hmode
      · exact (congrArg Inner.mode (finish_quiet (quiet_of_eq hmode ⟨hm, hset⟩))).trans hmode
  · rw [hend.engine, hstop]
  · rw [hstage, hstop]
  · rw [hend.pawl, hstop]
  · rw [hend.nudgeDue, hstop]

/-- A count against the stroke at L + A is DRIFT, with an abort (R128, R134). -/
theorem count_drifts (x : Nat) (s : State) (d : Direction) :
    (finish (report .drift none (stopRun d (counted x s)))).fault .drift =
        recordAfter { s with engine := { s.engine with travel := x } } .drift (s.active .drift) none ∧
      (finish (report .drift none (stopRun d (counted x s)))).mode =
        (if s.mode = .rollcall ∨ s.mode = .barred then s.mode else .halted) := by
  obtain ⟨notice, hc⟩ := counted_eq x s
  obtain ⟨a, b, hstop⟩ := stopRun_eq d (counted x s)
  obtain ⟨hfault, -, hmode, -⟩ := finish_haltReportAt (k := .drift) rfl
    (placeNow (stopRun d (counted x s))) none (stopRun d (counted x s))
  unfold report
  rw [hfault, hmode, placeNow_eq, hstop, hc]
  exact ⟨rfl, rfl⟩

/-- A contact stroke at the top of travel is TRAVEL_LIMIT, and ends (R131). -/
theorem count_topOfTravel (x : Nat) (hun : s.stage.record = .unstaged) :
    (finish (topOfTravel (counted x s))).fault .travelLimit =
        recordAfter { s with engine := { s.engine with travel := x } } .travelLimit (s.active .travelLimit) none ∧
      (finish (topOfTravel (counted x s))).engine.restRef = x ∧
      (finish (topOfTravel (counted x s))).engine.stroke = .rest ∧
      (finish (topOfTravel (counted x s))).stage.record = .unstaged ∧
      (finish (topOfTravel (counted x s))).mode = (if s.mode = .moving then .hold else s.mode) := by
  obtain ⟨notice, hc⟩ := counted_eq x s
  obtain ⟨a, b, hstop⟩ := stopRun_eq .raise (counted x s)
  have hstopmode : (stopRun .raise (counted x s)).mode = s.mode := by rw [hstop, hc]; rfl
  have hmode : (topOfTravel (counted x s)).mode = if s.mode = .moving then .hold else s.mode := by
    unfold topOfTravel
    rw [mode_holdReport rfl, hstopmode]
  have hnot : (topOfTravel (counted x s)).mode ≠ .moving := by
    rw [hmode]
    split
    · exact nofun
    · assumption
  have hrecord : (topOfTravel (counted x s)).stage.record = .unstaged := by
    unfold topOfTravel
    by_cases hm : s.mode = .moving
    · rw [(stage_holdReport rfl none (hstopmode.trans hm)).1, hstop, hc]
      exact hun
    · rw [report_resting rfl none (by rw [hstopmode]; exact hm), stage_latchAt, hstop, hc]
      exact hun
  have hwind : WindsDown True (stopRun .raise (counted x s)) (topOfTravel (counted x s)) := windsDown_report True _ _ _
  have hend := settlesAtRest_finish hnot
  have hrest : findsRest (topOfTravel (counted x s)) = false := by
    unfold findsRest State.stageIx State.stagedRec
    rw [hrecord]
    rfl
  have hfault : (topOfTravel (counted x s)).fault .travelLimit =
      recordAfter { s with engine := { s.engine with travel := x } } .travelLimit (s.active .travelLimit) none := by
    unfold topOfTravel
    rw [fault_report_same, hstop, hc]
    rfl
  have hended := (strokeEnded_stopRun .raise (counted x s)).of_windsDown hwind
  refine ⟨(hend.fault .travelLimit nofun).trans hfault, ?_, ?_, hend.record.trans hrecord,
    (mode_finish_of_no_rest hnot hrest).trans hmode⟩
  · rw [hend.engine, (strokeEnded_counted hended).restRef]
  · rw [hend.engine]
    exact hwind.rest (by rw [hstop])

end Sys2Proof.Machine

namespace Sys2Proof.Machine

variable {d : Direction} {r : Stroke} {q : StagedRec} {n k x : Nat} {up : Bool} {s t u v y : State}

/-- The end of a stroke of a staged column in MOVING is followed by the arrival test (R79, R129). -/
theorem strokeEnd_tested (hm : s.mode = .moving) (ha : s.stage.awaitingSet = false) (hq : s.stage.record = .staged q) :
    ArrivalTested s (finish (strokeEnd r (counted x s))) q s.stage.dir ((x : Int) - q.contactZero) := by
  obtain ⟨notice, hc⟩ := counted_eq x s
  have hb := endedBefore_spec r (counted x s)
  have hmode : (counted x s).mode = s.mode := by rw [hc]; rfl
  have hpawl : (counted x s).pawl = s.pawl := by rw [hc]
  have hstage : (endedBefore r (counted x s)).stage = s.stage := hb.stage.trans (by rw [hc])
  have hlift : (endedBefore r (counted x s)).lift = some ((x : Int) - q.contactZero) := by
    rw [lift_of_staged (hstage ▸ hq), travel_of_outer hb.outer, hc]
  have hcfg : (endedBefore r (counted x s)).cfg = s.cfg :=
    (congrArg (fun o => o.settings.inForce) hb.outer).trans (by rw [hc]; rfl)
  have hplan : (endedBefore r (counted x s)).plan = s.plan := (congrArg Outer.plan hb.outer).trans (by rw [hc]; rfl)
  rw [strokeEnd_moving (hmode.trans hm)]
  refine arrivalTested (hb.mode.trans (hmode.trans hm)) ?_ hlift hb.notice hcfg hplan (fun h => ?_) (fun h => ?_)
    fun hin => ?_
  · rw [hstage, ← hq, ← ha]
  · exact hb.set (by rw [hpawl]; exact h)
  · exact hb.off (by rw [hpawl]; exact h)
  · exact inBand_shareOf ((bandRead_of_outer hb.outer (by rw [hb.stage])).inBand (inBand_counted x hin))

/-- The end of a nudge clears nudge-due to the end of the command (R97). -/
theorem strokeEnd_nudged (hm : s.mode = .moving) (hk : r.kind = .nudge) :
    (finish (strokeEnd r s)).ceiling.nudgeDue = false := by
  rw [strokeEnd_moving hm]
  exact ((windsDown_arrivalTest False _).trans (windsDown_finish (g := False) False.elim)).nudge
    ((endedBefore_spec r s).nudge hk)

/-- A final lowering stroke commands a WITHDRAWN pawl SET, and it is on its way to the end of the command (R129). -/
theorem strokeEnd_sets (hm : s.mode = .moving) (hd : r.dir = .lower) (hf : r.final = true)
    (hp : s.pawl.state = .withdrawn) :
    (finish (strokeEnd r s)).pawl.commanded = .set ∧ (finish (strokeEnd r s)).pawl.state = .setting := by
  rw [strokeEnd_moving hm]
  obtain ⟨hstate, hcommanded⟩ := (endedBefore_spec r s).withdrawn hd hf hp
  obtain ⟨h₁, h₂⟩ := ((windsDown_arrivalTest False _).trans (windsDown_finish (g := False) False.elim)).setting hstate
  exact ⟨h₂.trans hcommanded, h₁⟩

theorem countTravel_eq (hup : up = true → s.engine.travel < 240000 ∧ x = s.engine.travel + 1)
    (hdown : up = false → 0 < s.engine.travel ∧ x = s.engine.travel - 1) :
    countTravel up s.engine.travel = some x := by
  cases up with
  | true =>
    obtain ⟨hlt, rfl⟩ := hup rfl
    exact if_pos hlt
  | false =>
    obtain ⟨hpos, rfl⟩ := hdown rfl
    exact if_pos hpos

theorem countForward_iff (up : Bool) (r : Stroke) : countForward up r = true ↔ (up = true ↔ r.dir = .raise) := by
  unfold countForward
  cases up <;> cases r.dir <;> decide

/-- A count that leaves the stroke running leaves nothing else to the end of the command. -/
theorem count_runsOn (ha : s.stage.awaitingSet = false)
    (h : Quiet s ∨ InBand s ∧ (s.mode = .moving ∨ s.mode = .settled ∧ findsRest s = false)) (m : Nat) :
    (finish { counted x s with engine := { (counted x s).engine with stroke := .running r m } }).inner =
      { s.inner with engine := { s.engine with travel := x, stroke := .running r m } } := by
  obtain ⟨notice, hc⟩ := counted_eq x s
  have hband : InBand s → InBand { counted x s with
      engine := { (counted x s).engine with stroke := .running r m } } := fun hin =>
    BandRead.inBand (s := counted x s) ⟨rfl, rfl, rfl, rfl, rfl⟩ (inBand_counted x hin)
  rw [hc] at hband ⊢
  refine Eq.trans (finish_runsOn (r := r) (n := m) rfl ha ?_) ?_
  · refine h.imp id fun hin => ⟨hband hin.1, hin.2.imp id fun hset => ⟨hset.1, ?_⟩⟩
    refine Eq.trans (findsRest_of_eq (s := s) ?_ ?_ ?_) hset.2 <;> rfl
  · rfl

/-- Settles O47: by the branches of the count - the top of travel, a count forward, a count back - with what each
leaves told to the end of the command. -/
theorem countsRunStroke : Obligations.CountsRunStroke := by
  unfold Obligations.CountsRunStroke
  intro s up r n x hr ha hup hdown forward atTop resting quietly moved ended
  have hfinds : findsRest s = resting := rfl
  have hquietly : quietly →
      Quiet s ∨ InBand s ∧ (s.mode = .moving ∨ s.mode = .settled ∧ findsRest s = false) := id
  have hforward : countForward up r = true ↔ forward := countForward_iff up r
  have hmode : (counted x s).mode = s.mode := by
    obtain ⟨notice, hc⟩ := counted_eq x s
    rw [hc]
    rfl
  have htop : (counted x s).engine.travel = x ∧ (counted x s).cfg = s.cfg := by
    obtain ⟨notice, hc⟩ := counted_eq x s
    rw [hc]
    exact ⟨rfl, rfl⟩
  have hcond : (r.kind = .contact ∧ (counted x s).engine.travel = topTravel) ↔ atTop := by
    rw [htop.1]
    exact Iff.rfl
  have hended : ∀ t, CountEnds r x s t → ended t := fun t h =>
    ⟨h.limit, h.restRef, h.lastDir, h.lastEnd, h.dwell, h.watch, h.stroke, h.drive⟩
  refine ⟨_, exec_countEvent_running (countTravel_eq hup hdown) hr, ?_, fun hnt hf hn hq => ?_,
    fun hnt hf hn hq => ?_, fun hnt hf hn => ?_, fun hnt hf hn => ?_, fun hk hd hx hun => ?_⟩
  · rw [outer_finish, outer_countRunning, outer_counted]
  · have hrun : countRunning up r n (counted x s) = { counted x s with
        engine := { (counted x s).engine with stroke := .running r (n - 1) } } := by
      unfold countRunning
      rw [if_neg (hcond.not.mpr hnt), if_pos (hforward.mpr hf), if_neg (by omega)]
    rw [hrun]
    exact count_runsOn ha (hquietly hq) (n - 1)
  · have hrun : countRunning up r n (counted x s) = { counted x s with
        engine := { (counted x s).engine with stroke := .running r (n + 1) } } := by
      unfold countRunning
      rw [if_neg (hcond.not.mpr hnt), if_neg (hforward.not.mpr hf), htop.2, if_neg (by omega)]
    rw [hrun]
    exact count_runsOn ha (hquietly hq) (n + 1)
  · have hrun : countRunning up r n (counted x s) = strokeEnd r (counted x s) := by
      unfold countRunning
      rw [if_neg (hcond.not.mpr hnt), if_pos (hforward.mpr hf), if_pos hn]
    rw [hrun]
    have hrests : s.mode ≠ .moving → _ := fun hm => strokeEnd_resting (r := r) (s := counted x s)
      (by rw [hmode]; exact hm) (by obtain ⟨notice, hc⟩ := counted_eq x s; rw [hc]; exact ha)
    have hfinds' : findsRest (counted x s) = resting := by
      obtain ⟨notice, hc⟩ := counted_eq x s
      rw [hc, ← hfinds]
      exact findsRest_of_eq rfl rfl rfl
    have hkept : (counted x s).stage = s.stage ∧ (counted x s).pawl = s.pawl ∧
        (counted x s).ceiling = s.ceiling := by
      obtain ⟨notice, hc⟩ := counted_eq x s
      rw [hc]
      exact ⟨rfl, rfl, rfl⟩
    obtain ⟨hstage, hpawl, hceiling⟩ := hkept
    refine ⟨hended _ (countEnds hr (strokeEnded_strokeEnd r _) (steady_strokeEnd r _).motion), fun hq => ?_,
      fun hset => ?_, fun hm => strokeEnd_nudged (hmode.trans hm), fun q hm hrec _ => strokeEnd_tested hm ha hrec,
      fun hm hlow hfin hp => strokeEnd_sets (hmode.trans hm) hlow hfin (by rw [hpawl]; exact hp)⟩
    · obtain ⟨h₁, h₂, h₃, h₄, h₅⟩ := hrests hq.1
      rw [if_neg fun hc => hq.2 (hmode.symm.trans hc.1)] at h₁
      exact ⟨h₁.trans hmode, h₂, h₃.trans hstage, h₄.trans hpawl, by rw [h₅, hceiling]⟩
    · obtain ⟨h₁, h₂, h₃, h₄, h₅⟩ := hrests (by rw [hset]; exact nofun)
      refine ⟨h₁.trans ?_, h₂, h₃.trans hstage, h₄.trans hpawl, by rw [h₅, hceiling]⟩
      rw [hfinds', hmode, hset]
      simp
  · have hrun : countRunning up r n (counted x s) = report .drift none (stopRun r.dir (counted x s)) := by
      unfold countRunning
      rw [if_neg (hcond.not.mpr hnt), if_neg (hforward.not.mpr hf), htop.2, if_pos hn]
    rw [hrun]
    obtain ⟨hfault, hend⟩ := count_drifts x s r.dir
    refine ⟨hended _ (countEnds hr ?_ ?_), hfault, hend⟩
    · exact (strokeEnded_stopRun r.dir _).of_windsDown (windsDown_report False _ _ _)
    · exact ((steady_stopRun r.dir _).trans (steady_report _ _ _)).motion
  · have hrun : countRunning up r n (counted x s) = topOfTravel (counted x s) := by
      unfold countRunning
      rw [if_pos (hcond.mpr ⟨hk, hx⟩)]
    rw [hrun, ← hx]
    exact count_topOfTravel x hun

end Sys2Proof.Machine

/-! ### A pawl at SET that nothing withdraws (O52) -/

namespace Sys2Proof.Machine

variable {s t u v y : State} {p : PawlState}

/-- The pawl is at SET with no time limit, and the column is not to be lowered: nothing asks for it (R101, R143). -/
structure HeldSet (s : State) : Prop where
  state : s.pawl.state = .set
  limit : s.pawl.limit = none
  dir : s.stage.dir ≠ .lower

theorem HeldSet.of_eq (h : HeldSet s) (hp : t.pawl = s.pawl) (hd : t.stage.dir = s.stage.dir) : HeldSet t :=
  ⟨by rw [hp]; exact h.state, by rw [hp]; exact h.limit, by rw [hd]; exact h.dir⟩

/-- A set command to a pawl at SET changes nothing of it but the pending mark (R144). -/
theorem heldSet_pawlSet (h : HeldSet s) : HeldSet (pawlSet s) := by
  have hp := (pawlSet_still (s := s) (.inl h.state)).1
  have hm := motionOnly_pawlSet (.refl s)
  exact ⟨by rw [hp]; exact h.state, by rw [hp]; exact h.limit, by rw [hm.stage]; exact h.dir⟩

theorem heldSet_setMode (m : Mode) (h : HeldSet s) : HeldSet (setMode m s) := by
  obtain ⟨a, b, hset⟩ := setMode_eq m s
  rw [hset]
  exact ⟨h.state, h.limit, h.dir⟩

theorem heldSet_handRetained (h : HeldSet s) : HeldSet (handRetained s) := by
  obtain ⟨r, hr⟩ := handRetained_eq s
  rw [hr]
  exact ⟨h.state, h.limit, h.dir⟩

theorem heldSet_enterSettled (h : HeldSet s) : HeldSet (enterSettled s) :=
  heldSet_pawlSet ((heldSet_setMode .settled h).of_eq rfl rfl)

theorem heldSet_enterHold (h : HeldSet s) : HeldSet (enterHold s) := by
  rw [enterHold_eq]
  refine heldSet_pawlSet (h.of_eq (pawl_holdBeforePawl s) ?_)
  have hstage := (entered_enterHold s).stage
  rw [enterHold_eq, (motionOnly_pawlSet (.refl (holdBeforePawl s))).stage] at hstage
  rw [hstage]

theorem heldSet_enterUnstaged (h : HeldSet s) : HeldSet (enterUnstaged s) := by
  have hm := heldSet_setMode .unstaged h
  have hhand : HeldSet (handRetained
      { setMode .unstaged s with stage := { (setMode .unstaged s).stage with dir := .none } }) :=
    heldSet_handRetained ⟨hm.state, hm.limit, nofun⟩
  unfold enterUnstaged
  simp only []
  split
  · exact heldSet_pawlSet (hm.of_eq rfl rfl)
  · exact heldSet_pawlSet (hhand.of_eq rfl rfl)

theorem heldSet_endStaging (hs : s.pawl.state = .set) (hl : s.pawl.limit = none) : HeldSet (endStaging s) := by
  unfold endStaging
  exact heldSet_enterUnstaged (heldSet_handRetained ⟨hs, hl, nofun⟩)

theorem heldSet_handOverArrival (h : HeldSet s) : HeldSet (handOverArrival s) := by
  unfold handOverArrival
  split
  · exact heldSet_endStaging h.state h.limit
  · exact heldSet_enterSettled h
  · exact h

theorem heldSet_latchAt (w : Place) (n : Option Nat) (k : FaultKind) (h : HeldSet s) : HeldSet (latchAt w n k s) := by
  obtain ⟨faults, a, b, notice, hl⟩ := latchAt_eq w n k s
  rw [hl]
  exact ⟨h.state, h.limit, h.dir⟩

theorem heldSet_holdReport {k : FaultKind} (hk : haltClass k = false) (n : Option Nat) (h : HeldSet s) :
    HeldSet (report k n s) := by
  have hl := heldSet_latchAt (placeNow s) n k h
  unfold report reportAt modeOnFault
  rw [hk, if_neg nofun]
  split
  · exact (heldSet_enterHold hl).of_eq rfl rfl
  · exact hl

theorem heldSet_shareEval (h : HeldSet s) : HeldSet (shareEval s) := by
  have hw : HeldSet (writeShare s) := h.of_eq rfl rfl
  unfold shareEval
  simp only []
  split
  · exact heldSet_holdReport rfl none (hw.of_eq (t := setActive .loadShare true (writeShare s)) rfl rfl)
  · split
    · exact hw.of_eq rfl rfl
    · exact hw

theorem heldSet_awaitTest (h : HeldSet s) : HeldSet (awaitTest s) := by
  unfold awaitTest
  split
  · exact heldSet_handOverArrival (h.of_eq rfl rfl)
  · exact h

theorem heldSet_restTest (h : HeldSet s) : HeldSet (restTest s) := by
  rw [restTest_eq]
  split
  · exact heldSet_setMode .idle h
  · exact h

theorem heldSet_offerOrLead (o : Option Stroke) (h : HeldSet s) : HeldSet (offerOrLead o s) :=
  h.of_eq (pawl_offerOrLead o s) (by rw [(evaluates_offerOrLead o s).stage])

theorem heldSet_giveOffer (r : Stroke) (h : HeldSet s) : HeldSet (giveOffer r s) := heldSet_offerOrLead (some r) h

theorem heldSet_giveWait (w : WaitReason) (h : HeldSet s) : HeldSet (giveWait w s) := h.of_eq rfl rfl

theorem heldSet_evalTakeUp (h : HeldSet s) : HeldSet (evalTakeUp s) := by
  unfold evalTakeUp
  split
  · exact heldSet_holdReport rfl none (heldSet_giveWait _ h)
  · split
    · exact heldSet_giveOffer _ h
    · exact heldSet_giveWait _ h

theorem heldSet_evalRaise (r : StagedRec) (z : Int) (h : HeldSet s) : HeldSet (evalRaise r z s) := by
  unfold evalRaise
  split
  · exact heldSet_offerOrLead _ h
  · exact heldSet_giveWait _ h

theorem heldSet_evalAtRest (h : HeldSet s) : HeldSet (evalAtRest s) := by
  have hmark : markRelease s = s := if_neg fun hc => h.dir hc.1
  unfold evalAtRest
  split
  · simp only [hmark]
    split
    · exact h.of_eq rfl rfl
    · split
      · exact absurd ‹s.stage.dir = .lower› h.dir
      · exact heldSet_evalRaise _ _ h
  · exact heldSet_evalTakeUp h

theorem heldSet_evaluate (h : HeldSet s) : HeldSet (evaluate s) := by
  unfold evaluate
  split
  · split
    · exact h.of_eq rfl rfl
    · simp only []
      split
      · exact h.of_eq rfl rfl
      · unfold requestWithdrawal
        split <;> exact h.of_eq rfl rfl
    · exact heldSet_evalAtRest h
  · exact h.of_eq rfl rfl

theorem heldSet_settle (n : Nat) (h : HeldSet s) : HeldSet (settle n s) := by
  induction n generalizing s with
  | zero => exact h
  | succ n ih =>
    rw [settle_succ]
    split
    · have hc : HeldSet (clearNotice s) := h.of_eq rfl rfl
      exact ih (heldSet_evaluate (heldSet_restTest (heldSet_awaitTest (heldSet_shareEval hc))))
    · exact h

theorem heldSet_finish (h : HeldSet s) : HeldSet (finish s) := by
  obtain ⟨busy, shown, hf⟩ := finish_eq_settled s
  rw [hf]
  exact (heldSet_settle settleRounds h).of_eq rfl rfl

end Sys2Proof.Machine

namespace Sys2Proof.Machine

variable {s t u v w y : State} {p : PawlState}

/-! ### STUCK (R146, R177) -/

/-- The pawl is STUCK, with no limit running and no withdraw pending (R146). -/
structure Stuck (q : Pawl) : Prop where
  state : q.state = .stuck
  pending : q.pendingWithdraw = false
  limit : q.limit = none

theorem stuck_pawlSet (h : Stuck s.pawl) : Stuck (pawlSet s).pawl := by
  rw [pawlSet_cases, h.state]
  exact ⟨h.state, rfl, h.limit⟩

theorem stuck_endJog (h : Stuck s.pawl) : Stuck (endJog s).pawl := by
  unfold endJog
  split
  · exact h
  · split
    · exact stuck_pawlSet (s := dropJog s) h
    · exact h

theorem pawl_abortStroke (s : State) : (abortStroke s).pawl = s.pawl := by
  unfold abortStroke
  split
  · exact pawl_stopRun _ _
  · rfl

theorem stuck_enterHalted (h : Stuck s.pawl) : Stuck (enterHalted s).pawl := by
  have hj : Stuck (endJog (setMode .halted s)).pawl := stuck_endJog (by rw [pawl_setMode]; exact h)
  refine stuck_pawlSet (s := ceilingIdle (causeOfWithdrawal (abortStroke (endJog (setMode .halted s))))) ?_
  show Stuck (causeOfWithdrawal (abortStroke (endJog (setMode .halted s)))).pawl
  rw [pawl_causeOfWithdrawal, pawl_abortStroke]
  exact hj

theorem stuck_haltReport {k : FaultKind} (hk : haltClass k = true) (n : Option Nat) (h : Stuck s.pawl) :
    Stuck (report k n s).pawl := by
  obtain ⟨faults, a, b, notice, hl⟩ := latchAt_eq (placeNow s) n k s
  have hlatch : Stuck (latchAt (placeNow s) n k s).pawl := by rw [hl]; exact h
  have hplace : ∀ t : State, Stuck t.pawl → Stuck (placeHalt k t).pawl := fun t ht => by
    obtain ⟨slot, hp⟩ := placeHalt_eq k t
    rw [hp]
    exact ht
  unfold report reportAt
  rw [modeOnFault_halt hk]
  split
  · exact hplace _ hlatch
  · exact hplace _ (stuck_enterHalted hlatch)

/-- The state of an entry to STUCK before its occurrence (R146). -/
def stuckReported (s : State) : State :=
  reportPawl .stuck { s with pawl := { s.pawl with limit := none, pendingWithdraw := false } }

theorem stuck_stuckReported (s : State) : Stuck (stuckReported s).pawl := by
  unfold stuckReported
  rw [pawl_reportPawl]
  split <;> exact ⟨rfl, rfl, rfl⟩

/-- What the statement has of an entry to STUCK in a state with the column, records and mode of `s`. -/
structure GoneStuck (s t : State) : Prop where
  pawl : Stuck t.pawl
  fault : t.fault .pawlStuck = recordAfter s .pawlStuck (s.active .pawlStuck) none
  mode : t.mode = (if s.mode = .rollcall ∨ s.mode = .barred then s.mode else .halted)
  slot : t.line.haltSlot = some (s.line.haltSlot.getD ⟨kindHalt, 0, BitVec.ofNat 6 s.own, [5#8]⟩)

theorem goneStuck (hw : w = { s with pawl := w.pawl }) : GoneStuck s (finish (pawlStuck w)) := by
  have heq : pawlStuck w = report .pawlStuck none (stuckReported w) := rfl
  have hrecord : (stuckReported w).record = s.record := (record_reportPawl _ _).trans (by rw [hw]; rfl)
  have hmode : (stuckReported w).mode = s.mode := (mode_reportPawl _ _).trans (by rw [hw]; rfl)
  have houter := outer_reportPawl .stuck { w with pawl := { w.pawl with limit := none, pendingWithdraw := false } }
  have htime : (stuckReported w).timeBase = s.timeBase := (congrArg Outer.timeBase houter).trans (by rw [hw]; rfl)
  have hstraps : (stuckReported w).straps = s.straps := (congrArg Outer.straps houter).trans (by rw [hw]; rfl)
  have htravel : (stuckReported w).engine.travel = s.engine.travel :=
    (congrArg Outer.travel houter).trans (by rw [hw]; rfl)
  have hstage : (stuckReported w).stage = s.stage := by
    have hkept := motionOnly_reportPawl .stuck
      (.refl { w with pawl := { w.pawl with limit := none, pendingWithdraw := false } })
    exact hkept.stage.trans (by rw [hw])
  have hfault : ∀ k, (stuckReported w).fault k = s.fault k := fault_of_record hrecord
  have hplace : columnPlace (stuckReported w) = columnPlace s := by unfold columnPlace; rw [hstage, htravel]
  have hslot : (stuckReported w).line.haltSlot = s.line.haltSlot := congrArg Prod.snd hrecord
  obtain ⟨h₁, -, h₃, -, h₅, -⟩ := finish_haltReportAt (k := .pawlStuck) rfl (placeNow (stuckReported w)) none
    (stuckReported w)
  have hstuck : Stuck (report .pawlStuck none (stuckReported w)).pawl :=
    stuck_haltReport rfl none (stuck_stuckReported w)
  have hquiet : Quiet (report .pawlStuck none (stuckReported w)) := quiet_haltReportAt rfl _ _ _
  rw [heq]
  refine ⟨?_, h₁.trans ?_, h₃.trans (by rw [hmode]), h₅.trans ?_⟩
  · rw [show (finish (report .pawlStuck none (stuckReported w))).pawl = _ from
      congrArg Inner.pawl (finish_quiet hquiet)]
    exact hstuck
  · rw [placeNow_eq, hplace]
    unfold recordAfter recordAfterAt State.active
    rw [hfault, htime]
  · rw [if_neg nofun, hslot]
    unfold haltFrame State.own
    rw [hstraps]
    rfl

end Sys2Proof.Machine

namespace Sys2Proof.Machine

variable {s t u v w y : State} {p : PawlState} {r : StagedRec}

/-! ### What a report leaves (R139, R147) -/

theorem notice_reportPawl (p : PawlState) (s : State) : (reportPawl p s).notice = true := by
  have hpose : (requestPose (notify { s with pawl := { s.pawl with state := p } })).notice = true :=
    (steady_requestPose _).notice rfl
  have hengine := (steady_engineOnPawl p _).notice ((steady_causeOfWithdrawal _).notice hpose)
  unfold reportPawl
  simp only []
  split <;> exact hengine

theorem pendant_causeOfWithdrawal (s : State) : (causeOfWithdrawal s).pendant = s.pendant := by
  unfold causeOfWithdrawal requestWithdrawal
  split
  · split <;> rfl
  · rfl

theorem jog_reportPawl (p : PawlState) (s : State) :
    (reportPawl p s).engine.jog =
      if p = .withdrawn then
        if s.engine.jog = .downWait ∧ s.pendant.levels.jogDown = true then .down else s.engine.jog
      else if s.engine.jog = .down then .none else s.engine.jog := by
  have hjog : (causeOfWithdrawal (requestPose (notify { s with pawl := { s.pawl with state := p } }))).engine.jog =
      s.engine.jog := by rw [jog_causeOfWithdrawal, engine_requestPose]; rfl
  have hpendant : (causeOfWithdrawal (requestPose (notify
      { s with pawl := { s.pawl with state := p } }))).pendant = s.pendant := by
    rw [pendant_causeOfWithdrawal, pendant_requestPose]; rfl
  have hengine : (reportPawl p s).engine.jog = (engineOnPawl p (causeOfWithdrawal (requestPose (notify
      { s with pawl := { s.pawl with state := p } })))).engine.jog := by
    unfold reportPawl
    simp only []
    split <;> rfl
  rw [hengine]
  unfold engineOnPawl
  by_cases hp : p = .withdrawn
  · rw [if_pos hp, if_pos hp, hjog, hpendant]
    split
    · rfl
    · exact hjog
  · rw [if_neg hp, if_neg hp]
    simp only [jog_cutStroke, hjog]
    split
    · rfl
    · exact (jog_cutStroke _).trans hjog

/-! ### SET reached (R82, R145) -/

/-- The pawl reported at SET, before a pending withdraw is taken (R145). -/
def reachedSet (s : State) : State :=
  reportPawl .set (disarmPawlLimit { s with pawl := { s.pawl with pendingWithdraw := false } })

theorem pawlReachesSet_eq (s : State) :
    pawlReachesSet s = if s.pawl.pendingWithdraw = true then pawlWithdraw (reachedSet s) else reachedSet s := rfl

theorem pawl_reachedSet (s : State) :
    (reachedSet s).pawl.state = .set ∧ (reachedSet s).pawl.limit = none := by
  unfold reachedSet
  rw [pawl_reportPawl]
  split <;> exact ⟨rfl, rfl⟩

theorem stage_reachedSet (s : State) : (reachedSet s).stage = s.stage :=
  (motionOnly_reportPawl .set
    (.refl (disarmPawlLimit { s with pawl := { s.pawl with pendingWithdraw := false } }))).stage

theorem mode_reachedSet (s : State) : (reachedSet s).mode = s.mode := mode_reportPawl _ _

theorem outer_reachedSet (s : State) : (reachedSet s).outer = s.outer := outer_reportPawl _ _

/-- Out of MOVING a SET that is reached is kept, or left again for a jog down that waits (R139, R145). -/
theorem finish_reachesSet (hm : s.mode ≠ .moving) :
    (s.pawl.pendingWithdraw = false ∨ s.engine.jog ≠ .downWait →
      (finish (pawlReachesSet s)).pawl.state = .set ∧ (finish (pawlReachesSet s)).pawl.limit = none) ∧
    (s.pawl.pendingWithdraw = true → s.engine.jog = .downWait →
      (finish (pawlReachesSet s)).pawl.state = .withdrawing ∧
        (finish (pawlReachesSet s)).pawl.commanded = .withdrawn) := by
  have hmode : (pawlReachesSet s).mode = s.mode := by
    rw [pawlReachesSet_eq]
    split
    · exact (mode_pawlWithdraw (reachedSet s)).trans (mode_reachedSet s)
    · exact mode_reachedSet s
  have hjog : (reachedSet s).engine.jog = if s.engine.jog = .down then .none else s.engine.jog :=
    (jog_reportPawl .set _).trans (if_neg nofun)
  obtain ⟨hstate, hlimit⟩ := pawl_reachedSet s
  rw [(settlesAtRest_finish (s := pawlReachesSet s) (by rw [hmode]; exact hm)).pawl, pawlReachesSet_eq]
  refine ⟨fun h => ?_, fun hp hj => ?_⟩
  · have hstays : (if s.pawl.pendingWithdraw = true then pawlWithdraw (reachedSet s) else reachedSet s) =
        reachedSet s := by
      split
      · rename_i hp
        have hno : s.engine.jog ≠ .downWait := h.resolve_left (by rw [hp]; exact nofun)
        have hnot : ¬ withdrawPermitted (reachedSet s) = true := by
          unfold withdrawPermitted
          rw [mode_reachedSet, hjog]
          split <;> simp [hm, hno]
        exact if_neg hnot
      · rfl
    rw [hstays]
    exact ⟨hstate, hlimit⟩
  · have hj' : (reachedSet s).engine.jog = .downWait := by rw [hjog, hj]; rfl
    have hpermit : withdrawPermitted (reachedSet s) = true := by
      unfold withdrawPermitted
      rw [hj']
      exact Bool.or_true _
    rw [if_pos hp]
    unfold pawlWithdraw
    rw [if_pos hpermit, hstate]
    simp only []
    rw [pawl_reportPawl, if_neg]
    · exact ⟨rfl, rfl⟩
    · rintro ⟨-, hdown⟩
      rw [show (armPawlLimit (commandPawl .withdrawn (reachedSet s))).engine.jog = _ from hj'] at hdown
      cases hdown

/-- The round that hands a waiting arrival over: what it hands over stands to the end of the command (R82, R173). -/
theorem finish_handsOver (hn : s.notice = true) (hm : s.mode = .moving) (ha : s.stage.awaitingSet = true)
    (hp : s.pawl.state = .set) (hr : s.stage.record = .staged r) (hnow : outOfBand (shareOf s) = false) :
    ∃ z, SettlesAtRest (handOverArrival z) (finish s) ∧ z.pawl = s.pawl ∧
      z.stage = { s.stage with awaitingSet := false } ∧ z.outer = s.outer := by
  obtain ⟨hinner, -, hcol⟩ := inner_shareEval_inBand (s := clearNotice s) hnow
  have hstage : (shareEval (clearNotice s)).stage = s.stage := hcol.stage
  have hpawl : (shareEval (clearNotice s)).pawl = s.pawl := congrArg Inner.pawl hinner
  have hmode : (shareEval (clearNotice s)).mode = .moving := hcol.mode.trans hm
  refine ⟨{ shareEval (clearNotice s) with
      stage := { (shareEval (clearNotice s)).stage with awaitingSet := false } }, ?_, hpawl, by rw [hstage],
    outer_shareEval (clearNotice s)⟩
  have hawait : awaitTest (shareEval (clearNotice s)) = handOverArrival { shareEval (clearNotice s) with
      stage := { (shareEval (clearNotice s)).stage with awaitingSet := false } } :=
    if_pos ⟨by rw [hstage]; exact ha, hmode, by rw [hpawl]; exact hp⟩
  have hleaves : (handOverArrival { shareEval (clearNotice s) with
      stage := { (shareEval (clearNotice s)).stage with awaitingSet := false } }).mode ≠ .moving := by
    refine mode_handOverArrival ?_
    rw [(stagedRec_eq_some _ r).mpr (by rw [hstage]; exact hr)]
    rfl
  rw [← hawait] at hleaves ⊢
  have hrest := settlesAtRest_restTest (awaitTest (shareEval (clearNotice s)))
  have hround : SettlesAtRest (awaitTest (shareEval (clearNotice s))) (readers (clearNotice s)) := by
    unfold readers evaluate
    rw [if_neg (hrest.mode_ne_moving hleaves)]
    exact hrest.trans (settlesAtRest_ceilingIdle _)
  have hall := hround.trans (settlesAtRest_settle 11 (hround.mode_ne_moving hleaves))
  have hsettle : settle settleRounds s = settle 11 (readers (clearNotice s)) := by
    rw [settleRounds, settle_succ, if_pos hn]
  obtain ⟨busy, shown, hf⟩ := finish_eq_settled s
  rw [hf, hsettle]
  exact { hall with }

end Sys2Proof.Machine

namespace Sys2Proof.Machine

variable {s t u v w y : State} {p : PawlState} {r : StagedRec} {sw : PawlSwitch} {closed : Bool}

/-! ### The two arrivals that wait for SET (R82, R84) -/

/-- What the statement has of an arrival that SET hands over. -/
theorem finish_setHandsOver (hm : s.mode = .moving) (ha : s.stage.awaitingSet = true)
    (hr : s.stage.record = .staged r) (hband : InBand s) :
    (finish (reachedSet s)).pawl.state = .set ∧ (finish (reachedSet s)).pawl.limit = none ∧
      if r.stage = .setdown then
        (finish (reachedSet s)).mode = .unstaged ∧ (finish (reachedSet s)).stage = ⟨.unstaged, .none, false⟩ ∧
          (finish (reachedSet s)).lift = none ∧
          (finish (reachedSet s)).retained.content = ⟨none, .none, s.plan.active⟩ ∧
          (finish (reachedSet s)).ceiling.nudgeDue = false
      else
        ((finish (reachedSet s)).mode = .settled ∨ (finish (reachedSet s)).mode = .idle) ∧
          (finish (reachedSet s)).stage = { s.stage with awaitingSet := false } := by
  have hstage := stage_reachedSet s
  have houter := outer_reachedSet s
  obtain ⟨hset, hlimit⟩ := pawl_reachedSet s
  have hin : InBand (reachedSet s) := (bandRead_of_outer houter (by rw [hstage])).inBand hband
  obtain ⟨z, hend, hzp, hzs, hzo⟩ := finish_handsOver (s := reachedSet s) (notice_reportPawl _ _)
    ((mode_reachedSet s).trans hm) (by rw [hstage]; exact ha) hset (by rw [hstage]; exact hr) (inBand_shareOf hin)
  rw [hstage] at hzs
  have hzr : z.stage.record = .staged r := by rw [hzs]; exact hr
  have hzset : z.pawl.state = .set := by rw [hzp]; exact hset
  have hzlimit : z.pawl.limit = none := by rw [hzp]; exact hlimit
  rw [hend.pawl]
  split
  · rename_i hdown
    rw [handOverArrival_setdown hzr hdown] at hend ⊢
    have he := ended_endStaging z
    have hheld := heldSet_endStaging hzset hzlimit
    have hfs := (hend.stage_of_not_awaiting (by rw [he.stage])).trans he.stage
    have hplan : z.plan = s.plan := congrArg Outer.plan (hzo.trans houter)
    refine ⟨hheld.state, hheld.limit, ?_, hfs, ?_, hend.retained ▸ hplan ▸ he.content, hend.nudgeDue.trans he.nudge⟩
    · rcases hend.mode with h | ⟨h, -⟩
      · exact h.trans he.mode
      · rw [he.mode] at h
        cases h
    · unfold State.lift State.stagedRec
      rw [hfs]
      rfl
  · rename_i hno
    rw [handOverArrival_stage hzr hno] at hend ⊢
    have he := entered_enterSettled z
    have hpawl : (enterSettled z).pawl = { z.pawl with pendingWithdraw := false } :=
      (pawlSet_still (s := ceilingIdle (setMode .settled z))
        (.inl (by show (setMode .settled z).pawl.state = .set; rw [pawl_setMode]; exact hzset))).1.trans
        (by show { (setMode .settled z).pawl with pendingWithdraw := false } = _; rw [pawl_setMode])
    refine ⟨by rw [hpawl]; exact hzset, by rw [hpawl]; exact hzlimit, ?_, ?_⟩
    · rcases hend.mode with h | ⟨-, h⟩
      · exact .inl (h.trans (mode_enterSettled z))
      · exact .inr h
    · rw [hend.stage_of_not_awaiting (by rw [he.stage]), he.stage, hzs]

/-! ### WITHDRAWN reached (R97, R139, R145) -/

theorem pawl_pawlReachesWithdrawn (s : State) :
    (pawlReachesWithdrawn s).pawl = { s.pawl with state := .withdrawn, limit := none } := by
  unfold pawlReachesWithdrawn
  rw [pawl_reportPawl, if_neg fun h => h.1 rfl]
  rfl

theorem nudgeDue_pawlReachesWithdrawn (s : State) : (pawlReachesWithdrawn s).ceiling.nudgeDue = false := rfl

theorem finish_reachesWithdrawn_quiet (hq : Quiet s) :
    (finish (pawlReachesWithdrawn s)).pawl.state = .withdrawn ∧
      (finish (pawlReachesWithdrawn s)).pawl.limit = none ∧
      (finish (pawlReachesWithdrawn s)).ceiling.nudgeDue = false ∧
      (finish (pawlReachesWithdrawn s)).engine.jog =
        (if s.engine.jog = .downWait ∧ s.pendant.levels.jogDown = true then .down else s.engine.jog) := by
  have hin := finish_quiet (s := pawlReachesWithdrawn s) (quiet_of_eq (mode_reportPawl _ _) hq)
  have hpawl : (finish (pawlReachesWithdrawn s)).pawl = _ :=
    (congrArg Inner.pawl hin).trans (pawl_pawlReachesWithdrawn s)
  refine ⟨by rw [hpawl], by rw [hpawl], congrArg Inner.nudgeDue hin, ?_⟩
  exact (congrArg (fun i => i.engine.jog) hin).trans ((jog_reportPawl .withdrawn _).trans (if_pos rfl))

theorem finish_reachesWithdrawn_moving (hm : s.mode = .moving) (hr : s.stage.record = .staged r) (hband : InBand s) :
    (finish (pawlReachesWithdrawn s)).mode = .moving ∧ (finish (pawlReachesWithdrawn s)).pawl.state = .withdrawn ∧
      (finish (pawlReachesWithdrawn s)).pawl.limit = none ∧
      (finish (pawlReachesWithdrawn s)).ceiling.nudgeDue = false ∧
      (finish (pawlReachesWithdrawn s)).stage = s.stage := by
  have hpawl := pawl_pawlReachesWithdrawn s
  have hmode : (pawlReachesWithdrawn s).mode = .moving := (mode_reportPawl _ _).trans hm
  have hstage : (pawlReachesWithdrawn s).stage = s.stage :=
    (motionOnly_reportPawl .withdrawn (.refl (disarmPawlLimit s))).stage
  have houter : (pawlReachesWithdrawn s).outer = s.outer := outer_reportPawl _ _
  have hnot : (pawlReachesWithdrawn s).pawl.state ≠ .set := by rw [hpawl]; exact nofun
  have hin : InBand (pawlReachesWithdrawn s) := (bandRead_of_outer houter (by rw [hstage])).inBand hband
  have hstays : StaysMoving (pawlReachesWithdrawn s) :=
    ⟨hmode, inBand_shareOf hin, fun _ => hnot, .inl (by
      rw [(stagedRec_eq_some _ r).mpr (by rw [hstage]; exact hr)]; rfl)⟩
  have he := evaluates_finish hstays
  refine ⟨he.shareRead.mode.trans hmode, ?_, ?_, ?_, he.stage.trans hstage⟩
  · rw [he.pawl hnot, hpawl]
  · rw [he.pawl hnot, hpawl]
  · exact (windsDown_finish (g := False) False.elim).nudge (nudgeDue_pawlReachesWithdrawn s)

/-! ### The switch event (R142, R145) -/

theorem exec_switchEvent (h : switchLevel s sw ≠ closed) :
    exec (.switchEvent sw closed) s = .next (finish (pawlOnSwitch sw closed (storeSwitch sw closed s))) := if_neg h

theorem outer_pawlOnSwitch (sw : PawlSwitch) (closed : Bool) (s : State) :
    (pawlOnSwitch sw closed s).outer = s.outer := by
  unfold pawlOnSwitch
  split
  · exact outer_pawlStuck s
  · exact outer_pawlStuck s
  · split
    · exact outer_pawlStuck s
    · exact outer_reportPawl _ _
  · exact outer_pawlStuck s
  · exact outer_pawlStuck s
  · split
    · exact outer_pawlStuck s
    · exact outer_pawlReachesSet s
  · rfl

end Sys2Proof.Machine

namespace Sys2Proof.Machine

variable {s t w : State} {r : StagedRec} {closed : Bool}

/-! ### R145's table, switch by switch -/

/-- A SET switch that contradicts the state, or closes SETTING with both switches closed. -/
theorem pawlOnSwitch_set_stuck
    (h : (s.pawl.state = .set ∧ closed = false) ∨ (s.pawl.state = .withdrawn ∧ closed = true) ∨
      (s.pawl.state = .setting ∧ closed = true ∧ s.pawl.withdrawnClosed = true)) :
    pawlOnSwitch .set closed s = pawlStuck s := by
  unfold pawlOnSwitch
  rcases h with ⟨h, rfl⟩ | ⟨h, rfl⟩ | ⟨h, rfl, ho⟩
  · rw [h]
  · rw [h]
  · rw [h]
    exact if_pos ho

theorem pawlOnSwitch_withdrawn_stuck
    (h : (s.pawl.state = .set ∧ closed = true) ∨ (s.pawl.state = .withdrawn ∧ closed = false) ∨
      (s.pawl.state = .withdrawing ∧ closed = true ∧ s.pawl.setClosed = true)) :
    pawlOnSwitch .withdrawn closed s = pawlStuck s := by
  unfold pawlOnSwitch
  rcases h with ⟨h, rfl⟩ | ⟨h, rfl⟩ | ⟨h, rfl, ho⟩
  · rw [h]
  · rw [h]
  · rw [h]
    exact if_pos ho

theorem pawlOnSwitch_reachesSet (hp : s.pawl.state = .setting) (ho : s.pawl.withdrawnClosed = false) :
    pawlOnSwitch .set true s = pawlReachesSet s := by
  unfold pawlOnSwitch
  rw [hp]
  exact if_neg (Bool.eq_false_iff.mp ho)

theorem pawlOnSwitch_reachesWithdrawn (hp : s.pawl.state = .withdrawing) (ho : s.pawl.setClosed = false) :
    pawlOnSwitch .withdrawn true s = pawlReachesWithdrawn s := by
  unfold pawlOnSwitch
  rw [hp]
  exact if_neg (Bool.eq_false_iff.mp ho)

/-- Any other event of the SET switch changes the stored level alone. -/
theorem pawlOnSwitch_set_still
    (h : s.pawl.state = .withdrawing ∨ s.pawl.state = .stuck ∨ (s.pawl.state = .set ∧ closed = true) ∨
      ((s.pawl.state = .withdrawn ∨ s.pawl.state = .setting) ∧ closed = false)) :
    pawlOnSwitch .set closed s = s := by
  unfold pawlOnSwitch
  rcases h with h | h | ⟨h, rfl⟩ | ⟨h | h, rfl⟩ <;> rw [h]

theorem pawlOnSwitch_withdrawn_still
    (h : s.pawl.state = .setting ∨ s.pawl.state = .stuck ∨ (s.pawl.state = .withdrawn ∧ closed = true) ∨
      ((s.pawl.state = .set ∨ s.pawl.state = .withdrawing) ∧ closed = false)) :
    pawlOnSwitch .withdrawn closed s = s := by
  unfold pawlOnSwitch
  rcases h with h | h | ⟨h, rfl⟩ | ⟨h | h, rfl⟩ <;> rw [h]

/-- The stored level of a switch is no part of the band. -/
theorem inBand_storeSwitch (sw : PawlSwitch) (h : InBand s) : InBand (storeSwitch sw closed s) :=
  BandRead.inBand (s := s) (by cases sw <;> exact ⟨rfl, rfl, rfl, rfl, rfl⟩) h

theorem exec_pawlTimeLimitExpiry (hdue : due s.timeBase s.pawl.limit = true)
    (h : s.pawl.state = .withdrawing ∨ s.pawl.state = .setting) :
    exec .pawlTimeLimitExpiry s = .next (finish (pawlStuck (disarmPawlLimit s))) := by
  have hmoves : (match (disarmPawlLimit s).pawl.state with
      | .withdrawing | .setting => pawlStuck (disarmPawlLimit s)
      | _ => disarmPawlLimit s) = pawlStuck (disarmPawlLimit s) := by
    have hp : (disarmPawlLimit s).pawl.state = s.pawl.state := rfl
    rw [hp]
    rcases h with h | h <;> rw [h]
  refine (if_pos hdue).trans ?_
  exact congrArg (fun x => Host.Outcome.next (finish x)) hmoves

/-- Settles O52: what R145's table makes of an event - STUCK, SET or WITHDRAWN reached, or the level stored alone - is
told to the end of the command. -/
theorem pawlMoves : Obligations.PawlMoves := by
  unfold Obligations.PawlMoves
  intro s stuck
  have hstuck : ∀ w : State, w = { s with pawl := w.pawl } →
      stuck (finish (pawlStuck w)) ∧ (finish (pawlStuck w)).pawl.limit = none := fun w hw => by
    have h := goneStuck hw
    exact ⟨⟨h.pawl.state, h.pawl.pending, h.fault, h.mode, h.slot⟩, h.pawl.limit⟩
  refine ⟨fun closed hne => ?_, fun closed hne => ?_, fun hdue hmoves => ?_⟩
  · intro other
    refine ⟨_, exec_switchEvent (sw := .set) hne, ?_, fun h => ?_, fun hp hc ho hm => ?_, fun hp hc ho hm hpend => ?_,
      fun h hcalm => ?_⟩
    · rw [outer_finish, outer_pawlOnSwitch]
      rfl
    · rw [pawlOnSwitch_set_stuck (s := storeSwitch .set closed s) h]
      exact (hstuck _ rfl).1
    · rw [hc, pawlOnSwitch_reachesSet (s := storeSwitch .set true s) hp ho]
      refine finish_reachesSet (s := storeSwitch .set true s) (show s.mode ≠ .moving from ?_)
      rcases hm with hq | hm
      · exact hq.1
      · rw [hm]
        exact nofun
    · have hpend' : ¬ (storeSwitch .set true s).pawl.pendingWithdraw = true := Bool.eq_false_iff.mp hpend
      rw [hc, pawlOnSwitch_reachesSet (s := storeSwitch .set true s) hp ho, pawlReachesSet_eq, if_neg hpend']
      refine ⟨fun _ hd => ?_, fun r ha hr hband => ?_⟩
      · obtain ⟨hset, hlimit⟩ := pawl_reachedSet (storeSwitch .set true s)
        have hheld := heldSet_finish ⟨hset, hlimit, by rw [stage_reachedSet]; exact hd⟩
        exact ⟨hheld.state, hheld.limit⟩
      · exact finish_setHandsOver (s := storeSwitch .set true s) hm ha hr (inBand_storeSwitch .set hband)
    · rw [pawlOnSwitch_set_still (s := storeSwitch .set closed s) h]
      exact finish_calm (s := storeSwitch .set closed s) hcalm
  · intro other
    refine ⟨_, exec_switchEvent (sw := .withdrawn) hne, ?_, fun h => ?_, fun hp hc ho hq => ?_,
      fun r hp hc ho hm hr hband => ?_, fun h hcalm => ?_⟩
    · rw [outer_finish, outer_pawlOnSwitch]
      rfl
    · rw [pawlOnSwitch_withdrawn_stuck (s := storeSwitch .withdrawn closed s) h]
      exact (hstuck _ rfl).1
    · rw [hc, pawlOnSwitch_reachesWithdrawn (s := storeSwitch .withdrawn true s) hp ho]
      exact finish_reachesWithdrawn_quiet (s := storeSwitch .withdrawn true s) hq
    · rw [hc, pawlOnSwitch_reachesWithdrawn (s := storeSwitch .withdrawn true s) hp ho]
      exact finish_reachesWithdrawn_moving (s := storeSwitch .withdrawn true s) hm hr
        (inBand_storeSwitch .withdrawn hband)
    · rw [pawlOnSwitch_withdrawn_still (s := storeSwitch .withdrawn closed s) h]
      exact finish_calm (s := storeSwitch .withdrawn closed s) hcalm
  · obtain ⟨hs, hlimit⟩ := hstuck (disarmPawlLimit s) rfl
    refine ⟨_, exec_pawlTimeLimitExpiry hdue hmoves, ?_, hs, hlimit⟩
    rw [outer_finish, outer_pawlStuck]
    rfl

end Sys2Proof.Machine

/-! ## RESUME in HALTED (O42) -/

namespace Sys2Proof.Machine

variable {r : StagedRec} {s t u w : State}

/-! ### The pawl step of a RESUME (R152) -/

theorem pawlOnResume_of_not_stuck (h : s.pawl.state ≠ .stuck) : pawlOnResume s = s := if_neg h

theorem pawlState_reportPawl (p : PawlState) (s : State) : (reportPawl p s).pawl.state = p := by
  rw [pawl_reportPawl]
  split <;> rfl

/-- The switches free a STUCK pawl unless they show the same level (R152). -/
theorem stuck_pawlOnResume (s : State) :
    (pawlOnResume s).pawl.state = .stuck ↔ s.pawl.state = .stuck ∧ s.pawl.setClosed = s.pawl.withdrawnClosed := by
  by_cases hp : s.pawl.state = .stuck
  · unfold pawlOnResume
    rw [if_pos hp]
    cases hset : s.pawl.setClosed <;> cases hoff : s.pawl.withdrawnClosed
    · simp [hp]
    · simp [pawlFoundWithdrawn, pawlState_reportPawl]
    · simp [pawlState_reportPawl]
    · simp [hp]
  · rw [pawlOnResume_of_not_stuck hp]
    simp [hp]

theorem motionOnly_pawlOnResume (s : State) : MotionOnly s (pawlOnResume s) := by
  unfold pawlOnResume pawlFoundWithdrawn
  split
  · split
    · exact motionOnly_reportPawl _ (.refl s)
    · exact motionOnly_reportPawl _ (motionOnly_setPawl _
        (motionOnly_reportPawl _ (motionOnly_setPawl _ (.refl s))))
    · exact .refl s
  · exact .refl s

/-! ### The mode step of a RESUME in HALTED (R172) -/

theorem haltConditionActive_iff (s : State) :
    haltConditionActive s = true ↔ ∃ k, haltClass k = true ∧ s.active k = true := by
  unfold haltConditionActive
  simp [List.any_eq_true, mem_allKinds]

/-- What RESUME in HALTED does, check by check (R172). -/
theorem resumeMode_halted (n : Nat) (hm : w.mode = .halted) :
    resumeMode n w =
      if haltConditionActive w = true then refuseOrder .resume .conditionActive n w
      else if w.pawl.state = .stuck then refuseOrder .resume .pawl n w
      else leaveHalted w := by
  unfold resumeMode
  rw [hm]

/-- In place at a stage 0 to n: arrived, with the effective target reached or the limit reported (R172). -/
def StandsInPlace (s : State) (r : StagedRec) : Prop :=
  let e := r.effTarget - ((s.engine.travel : Int) - r.contactZero)
  r.stage ≠ .setdown ∧ -(s.cfg.a : Int) ≤ e ∧ e ≤ s.cfg.a ∧
    (r.effTarget = r.target ∨ r.limitReported = true)

theorem settledInPlace_iff (hr : s.stage.record = .staged r) :
    settledInPlace s = true ↔ StandsInPlace s r ∧ s.pawl.state = .set := by
  unfold settledInPlace StandsInPlace
  rw [(stagedRec_eq_some s r).mpr hr, lift_of_staged hr]
  simp only [Bool.and_eq_true, Bool.or_eq_true, bne_iff_ne, beq_iff_eq, decide_eq_true_eq]
  tauto

theorem leaveHalted_unstaged (hr : s.stage.record = .unstaged) : leaveHalted s = enterUnstaged s := by
  have hnone : s.stagedRec = none := by unfold State.stagedRec; rw [hr]
  unfold leaveHalted
  rw [hnone]
  rfl

theorem leaveHalted_staged (hr : s.stage.record = .staged r) :
    leaveHalted s = if settledInPlace s = true then enterSettled s else enterHold s := by
  unfold leaveHalted
  rw [(stagedRec_eq_some s r).mpr hr]
  rfl

theorem lastStop_leaveHalted (s : State) : (leaveHalted s).modeCtl.lastStop = s.modeCtl.lastStop := by
  unfold leaveHalted
  split
  · rw [(enterUnstaged_stage s).1]
  · split
    · rw [(entered_enterSettled s).modeCtl]
    · rw [(entered_enterHold s).modeCtl]

theorem outer_leaveHalted (s : State) : (leaveHalted s).outer = s.outer := by
  unfold leaveHalted
  split
  · simp
  · split <;> simp

theorem mode_leaveHalted (s : State) : (leaveHalted s).mode ≠ .moving := by
  unfold leaveHalted
  split
  · rw [mode_enterUnstaged]; exact nofun
  · split
    · rw [mode_enterSettled]; exact nofun
    · rw [mode_enterHold]; exact nofun

theorem lastStop_refuseOrder_finish (why : Reason) (hw : why ≠ .planDisagree) (n : Nat) (hq : Quiet w) :
    (finish (refuseOrder .resume why n w)).modeCtl.lastStop = w.modeCtl.lastStop := by
  have hrefuse : refuseOrder .resume why n w = refuse .resume why n w := if_neg hw
  rw [hrefuse]
  exact congrArg Inner.lastStop (finish_quiet (s := refuse .resume why n w) hq)

/-- What the mode step of a RESUME is taken on: the pawl's step and the acknowledgement made (R171). -/
def readyToResume (u : State) : State := acknowledge (pawlOnResume u)

theorem takeResume_eq (n : Nat) (u : State) : takeResume n u = resumeMode n (readyToResume u) := rfl

/-- What a RESUME heard in HALTED leaves to its mode step (R152, R171). -/
structure ReadyToResume (s u v : State) : Prop where
  outer : v.outer = u.outer
  modeCtl : v.modeCtl = s.modeCtl
  stage : v.stage = s.stage
  active : ∀ k, v.active k = u.active k
  stuck : v.pawl.state = .stuck ↔ s.pawl.state = .stuck ∧ s.pawl.setClosed = s.pawl.withdrawnClosed
  pawl : s.pawl.state ≠ .stuck → v.pawl = s.pawl

theorem readyToResume_spec (s : State) (w : WireFrame) :
    ReadyToResume s (heardFrom s w) (readyToResume (heardFrom s w)) := by
  have ha := acknowledged_acknowledge (pawlOnResume (heardFrom s w))
  have hm := motionOnly_pawlOnResume (heardFrom s w)
  have hpawl : (heardFrom s w).pawl = s.pawl := pawl_heardFrom s w
  exact
    { outer := ha.outer.trans (outer_pawlOnResume _)
      modeCtl := ha.modeCtl.trans (hm.modeCtl.trans (modeCtl_heardFrom s w))
      stage := ha.stage.trans (hm.stage.trans (stage_heardFrom s w))
      active := fun k => (active_acknowledge (s := pawlOnResume (heardFrom s w)) k).trans
        (congrArg FaultRec.active (fault_of_record (record_pawlOnResume _) k))
      stuck := by
        unfold readyToResume
        rw [ha.pawl, stuck_pawlOnResume, hpawl]
      pawl := fun hp => by
        unfold readyToResume
        rw [ha.pawl, pawlOnResume_of_not_stuck (by rw [hpawl]; exact hp), hpawl] }

theorem standsInPlace_congr (ht : t.engine.travel = s.engine.travel) (hc : t.cfg = s.cfg) (r : StagedRec) :
    StandsInPlace t r ↔ StandsInPlace s r := by
  unfold StandsInPlace
  rw [ht, hc]

theorem flags_enterUnstaged (s : State) : (enterUnstaged s).flags = (false, false) := by
  unfold enterUnstaged
  simp only [flags_pawlSet, flags_ceilingIdle]
  rfl

/-- HALTED left while not staged (R95, R97, R166). -/
theorem finish_leaveHalted_unstaged (hr : s.stage.record = .unstaged) :
    (finish (leaveHalted s)).mode = .unstaged ∧ (finish (leaveHalted s)).stage.record = .unstaged ∧
      (finish (leaveHalted s)).stage.dir = .none ∧ (finish (leaveHalted s)).ceiling.nudgeDue = false ∧
      (finish (leaveHalted s)).ceiling.release = false := by
  rw [leaveHalted_unstaged hr]
  have hquiet : Quiet (enterUnstaged s) := by rw [Quiet, mode_enterUnstaged]; exact ⟨nofun, nofun⟩
  have hinner := finish_quiet hquiet
  have hstage := (congrArg Inner.stage hinner).trans (enterUnstaged_stage s).2
  obtain ⟨hnudge, hrelease⟩ := Prod.mk.inj (flags_enterUnstaged s)
  exact ⟨(congrArg Inner.mode hinner).trans (mode_enterUnstaged s),
    (congrArg StageCtl.record hstage).trans hr, congrArg StageCtl.dir hstage,
    (congrArg Inner.nudgeDue hinner).trans hnudge, (congrArg Inner.release hinner).trans hrelease⟩

/-- HALTED left while staged (R166, R172). -/
theorem finish_leaveHalted_staged (hr : s.stage.record = .staged r) :
    (finish (leaveHalted s)).stage.record = .staged r ∧
      (settledInPlace s = true → (finish (leaveHalted s)).mode = .settled ∨ (finish (leaveHalted s)).mode = .idle) ∧
      (settledInPlace s = false → (finish (leaveHalted s)).mode = .hold) := by
  rw [leaveHalted_staged hr]
  cases hp : settledInPlace s with
  | true =>
    obtain ⟨hmode, hstage, -, -⟩ := finish_enterSettled s
    refine ⟨?_, fun _ => hmode, nofun⟩
    show (finish (enterSettled s)).stage.record = _
    rw [hstage]
    exact hr
  | false =>
    have hquiet : Quiet (enterHold s) := by rw [Quiet, mode_enterHold]; exact ⟨nofun, nofun⟩
    have hinner := finish_quiet hquiet
    have hstage := (congrArg Inner.stage hinner).trans (entered_enterHold s).stage
    exact ⟨(congrArg StageCtl.record hstage).trans hr, nofun,
      fun _ => (congrArg Inner.mode hinner).trans (mode_enterHold s)⟩

end Sys2Proof.Machine

open Sys2Proof Sys2Proof.Machine in
/-- Settles O42: the two refusals of R172, and past them the mode that the stage record and the pawl ask for. -/
theorem resumeLeavesHalted : Obligations.ResumeLeavesHalted := by
  intro s f hprec hpay hmode hm u blocked stuck refusal inPlace
  have hexec : exec (.resume f) s = .next (finish (takeResume f.station.toNat u)) :=
    receiveOrder_fromMember rfl hprec hpay ⟨by rw [hmode]; exact nofun, by rw [hmode]; exact nofun⟩ hm
  rw [takeResume_eq] at hexec
  have hv : ReadyToResume s u (readyToResume u) := readyToResume_spec s (wireOrder 3 f)
  generalize readyToResume u = v at hexec hv
  have hhalted : v.mode = .halted := (congrArg ModeCtl.mode hv.modeCtl).trans hmode
  have hq : Quiet v := by rw [Quiet, hhalted]; exact ⟨nofun, nofun⟩
  have htime : v.timeBase = s.timeBase := (timeBase_of_outer hv.outer).trans (timeBase_heardFrom ..)
  have hblocked : haltConditionActive v = true ↔ blocked := by
    rw [haltConditionActive_iff]
    simp only [hv.active]
    exact Iff.rfl
  have hcases := resumeMode_halted f.station.toNat hhalted
  have hrefused : ∀ why, why ≠ .planDisagree →
      refusal why (finish (refuseOrder .resume why f.station.toNat v)) ∧
        (finish (refuseOrder .resume why f.station.toNat v)).modeCtl.lastStop = s.modeCtl.lastStop :=
    fun why hwhy => by
      obtain ⟨hm', hlast, hst, -, -⟩ := finish_refuseOrder .resume why f.station.toNat hq
      exact ⟨⟨hm'.trans hhalted, by rw [hlast, htime], hst.trans hv.stage⟩,
        (lastStop_refuseOrder_finish why hwhy _ hq).trans (congrArg ModeCtl.lastStop hv.modeCtl)⟩
  by_cases hb : blocked
  · rw [hcases, if_pos (hblocked.mpr hb)] at hexec
    obtain ⟨hr, hstop⟩ := hrefused .conditionActive nofun
    exact ⟨_, hexec, hstop, fun _ => hr, fun hn => absurd hb hn, fun hn => absurd hb hn⟩
  by_cases hs : stuck
  · rw [hcases, if_neg fun hc => hb (hblocked.mp hc), if_pos (hv.stuck.mpr hs)] at hexec
    obtain ⟨hr, hstop⟩ := hrefused .pawl nofun
    exact ⟨_, hexec, hstop, fun hn => absurd hn hb, fun _ _ => hr, fun _ hn => absurd hs hn⟩
  rw [hcases, if_neg fun hc => hb (hblocked.mp hc), if_neg fun hc => hs (hv.stuck.mp hc)] at hexec
  have hstop := (settlesAtRest_finish (mode_leaveHalted v)).lastStop
  refine ⟨_, hexec, ?_, fun hn => absurd hn hb, fun _ hn => absurd hn hs, fun _ _ => ⟨?_, fun hr => ?_, fun r hr => ?_⟩⟩
  · rw [hstop, lastStop_leaveHalted, hv.modeCtl]
  · have ho := (outer_finish (leaveHalted v)).trans (outer_leaveHalted v)
    exact (congrArg Outer.lastRefused ho).trans (congrArg ModeCtl.lastRefused hv.modeCtl)
  · exact finish_leaveHalted_unstaged (by rw [hv.stage]; exact hr)
  · have hrecord : v.stage.record = .staged r := by rw [hv.stage]; exact hr
    obtain ⟨hstays, hsettles, hholds⟩ := finish_leaveHalted_staged hrecord
    have hplace : StandsInPlace v r ↔ inPlace r := standsInPlace_congr
      ((travel_of_outer hv.outer).trans (congrArg Engine.travel (engine_heardFrom ..)))
      ((congrArg (fun o => o.settings.inForce) hv.outer).trans
        (congrArg SettingsMem.inForce (settings_heardFrom ..))) r
    have hin := settledInPlace_iff hrecord
    refine ⟨hstays, fun hp hi => hsettles ?_, fun hor => hholds (Bool.eq_false_iff.mpr fun hc => ?_)⟩
    · rw [hin, hv.pawl (by rw [hp]; exact nofun)]
      exact ⟨hplace.mpr hi, hp⟩
    · obtain ⟨hi, hp⟩ := hin.mp hc
      rcases hor with hn | ⟨hnset, hnstuck⟩
      · exact hn (hplace.mp hi)
      · rw [hv.pawl hnstuck] at hp
        exact hnset hp

/-! ## What the ceiling unit reads of the group (O30, O50)

Views of the peer table read a row but for its stamps and its silence compare (R59 to R64), and the PEERS check less
than that (R94). Two states that agree there have the same preconditions, lead terms, admission and band. -/

namespace Sys2Proof.Machine

variable {s t u : State}

/-! ### The PEERS check's four group views (R59, R62, R94) -/

/-- What a row shows of its station: live or lost, mode, stage and latched faults. -/
def Row.standing (r : Row) : Liveness × Mode × Option StageIx × BitVec 16 :=
  (r.marks.live, r.report.mode, r.report.stage, r.report.faults)

/-- The rows of two states stand alike, seen from the same stage. -/
structure StandAlike (s t : State) : Prop where
  table : t.table.isSome = s.table.isSome
  rows : (allRows t).map Row.standing = (allRows s).map Row.standing
  stage : t.stageIx = s.stageIx

theorem StandAlike.allLive (h : StandAlike s t) : allLive t = allLive s := by
  have hrows : ∀ v, Machine.allLive v =
      (v.table.isSome && ((allRows v).map Row.standing).all fun x => x.1 == .live) := fun v => by
    rw [List.all_map]; rfl
  rw [hrows, hrows, h.table, h.rows]

theorem StandAlike.peerFault (h : StandAlike s t) : peerFault t = peerFault s := by
  have hrows : ∀ v, Machine.peerFault v =
      (v.table.isSome &&
        ((allRows v).map Row.standing).any fun x => x.1 == .live && stoppingSet x.2.2.2) := fun v => by
    rw [List.any_map]; rfl
  rw [hrows, hrows, h.table, h.rows]

theorem StandAlike.anyHold (h : StandAlike s t) : anyHold t = anyHold s := by
  have hrows : ∀ v, Machine.anyHold v =
      (v.table.isSome && ((allRows v).map Row.standing).any
        fun x => x.1 == .live && x.2.1 == .hold && x.2.2.1 == v.stageIx) := fun v => by
    rw [List.any_map]; rfl
  rw [hrows, hrows, h.table, h.rows, h.stage]

theorem StandAlike.anyHalted (h : StandAlike s t) : anyHalted t = anyHalted s := by
  have hrows : ∀ v, Machine.anyHalted v =
      (v.table.isSome &&
        ((allRows v).map Row.standing).any fun x => x.1 == .live && x.2.1 == .halted) := fun v => by
    rw [List.any_map]; rfl
  rw [hrows, hrows, h.table, h.rows]

/-- The part of the PEERS check that every class makes (R94). -/
def GroupReady (s : State) : Prop :=
  allLive s = true ∧ peerFault s = false ∧ anyHold s = false ∧ anyHalted s = false

theorem StandAlike.groupReady (h : StandAlike s t) : GroupReady t ↔ GroupReady s := by
  unfold GroupReady
  rw [h.allLive, h.peerFault, h.anyHold, h.anyHalted]

theorem peersPass_iff_groupReady (s : State) (c : StrokeClass) :
    peersPass s c = true ↔
      GroupReady s ∧ (c = .lowering → s.ceiling.release = true ∨ loweringReady s = true) := by
  rw [peersPass_iff]
  simp only [GroupReady, and_assoc]

/-- Rows that are the table's own stand alike where the self row does. -/
theorem standAlike_of_self (ht : t.table = s.table) (hm : t.mode = s.mode) (hk : t.stageIx = s.stageIx)
    (hf : latchedSet t = latchedSet s) : StandAlike s t where
  table := by rw [ht]
  rows := by
    cases ha : s.table with
    | none => rw [allRows_of_none (ht.trans ha), allRows_of_none ha]
    | some a =>
      rw [allRows_of_some (ht.trans ha), allRows_of_some ha, List.map_cons, List.map_cons]
      simp only [Row.standing, selfRow, selfReport, hm, hk, hf]
  stage := hk

/-! ### Every view (R59 to R64) -/

/-- A row but for its stamps and its silence compare. -/
def Row.seen (r : Row) : RowFixed × Report × Liveness := (r.fixed, r.report, r.marks.live)

/-- Two states in which the ceiling unit and the share check see the same. -/
structure SeenAlike (s t : State) : Prop where
  table : t.table.isSome = s.table.isSome
  rows : (allRows t).map Row.seen = (allRows s).map Row.seen
  stage : t.stage = s.stage
  travel : t.engine.travel = s.engine.travel
  present : t.loadMon.present = s.loadMon.present
  straps : t.straps = s.straps
  settings : t.settings = s.settings
  plan : t.plan = s.plan

section
variable (h : SeenAlike s t)
include h

theorem SeenAlike.map_rows {α : Type} (f : RowFixed × Report × Liveness → α) :
    (allRows t).map (fun r => f r.seen) = (allRows s).map fun r => f r.seen := by
  have hf := congrArg (List.map f) h.rows
  rw [List.map_map, List.map_map] at hf
  exact hf

theorem SeenAlike.standAlike : StandAlike s t where
  table := h.table
  rows := h.map_rows fun x => (x.2.2, x.2.1.mode, x.2.1.stage, x.2.1.faults)
  stage := stageIx_of_stage h.stage

theorem SeenAlike.loweringReady : loweringReady t = loweringReady s := by
  have hrows : ∀ v, Machine.loweringReady v =
      (v.table.isSome && ((allRows v).map Row.seen).all
        fun x => x.2.2 == .live && x.2.1.pawl == .withdrawn && x.2.1.flight == .none) := fun v => by
    rw [List.all_map]; rfl
  rw [hrows, hrows, h.table, h.rows]

theorem SeenAlike.stagedRec : t.stagedRec = s.stagedRec := by
  unfold State.stagedRec; rw [h.stage]

theorem SeenAlike.lift : t.lift = s.lift := by
  unfold State.lift; rw [h.stagedRec, h.travel]

theorem SeenAlike.cfg : t.cfg = s.cfg := congrArg SettingsMem.inForce h.settings

theorem SeenAlike.peers : (peerRows t).map Row.seen = (peerRows s).map Row.seen := by
  have htail : ∀ v, peerRows v = (allRows v).tail := fun v => by
    unfold peerRows allRows
    cases v.table <;> rfl
  rw [htail, htail, List.map_tail, List.map_tail, h.rows]

theorem SeenAlike.peerLifts (carOnly : Bool) : peerLifts t carOnly = peerLifts s carOnly := by
  have hrows : ∀ v, Machine.peerLifts v carOnly =
      (((peerRows v).map Row.seen).filter fun x =>
        x.2.2 == .live && (!carOnly || x.1.car == v.straps.car.val)).filterMap (·.2.1.lift) := fun v => by
    rw [List.filter_map, List.filterMap_map]; rfl
  rw [hrows, hrows, h.peers, h.straps]

theorem SeenAlike.leads (k : StageIx) :
    setLeadEff t k = setLeadEff s k ∧ carLeadEff t k = carLeadEff s k := by
  have hentry : stageEntryOf t k = stageEntryOf s k := by unfold stageEntryOf; rw [h.plan]
  unfold carLeadEff setLeadEff
  rw [hentry, h.cfg]
  exact ⟨rfl, rfl⟩

theorem SeenAlike.leadCeiling (r : StagedRec) : leadCeiling t r = leadCeiling s r := by
  unfold Machine.leadCeiling setMin carMin
  rw [h.peerLifts, h.peerLifts, (h.leads r.stage).1, (h.leads r.stage).2]

theorem SeenAlike.leadFloor (r : StagedRec) : leadFloor t r = leadFloor s r := by
  unfold Machine.leadFloor setMax carMax
  rw [h.peerLifts, h.peerLifts, (h.leads r.stage).1, (h.leads r.stage).2]

theorem SeenAlike.nudgeFits (x : Int) : nudgeFits t x = nudgeFits s x := by
  unfold Machine.nudgeFits setMin carMin
  rw [h.peerLifts, h.peerLifts, h.cfg]

theorem SeenAlike.peersPass (hr : t.ceiling.release = s.ceiling.release) (c : StrokeClass) :
    peersPass t c = peersPass s c := by
  have hs := h.standAlike
  unfold Machine.peersPass
  rw [hs.allLive, hs.peerFault, hs.anyHold, hs.anyHalted, hr, h.loweringReady]

theorem SeenAlike.admits (hr : t.ceiling.release = s.ceiling.release) (c : Stroke) :
    admits t c = admits s c := by
  unfold Machine.admits endFits
  rw [h.peersPass hr, h.stagedRec]
  simp only [h.nudgeFits, h.leadCeiling, h.leadFloor]

theorem SeenAlike.stillAdmitted (hr : t.ceiling.release = s.ceiling.release) (c : Stroke) :
    StillAdmitted t c ↔ StillAdmitted s c := by
  rw [← admits_iff, ← admits_iff, h.admits hr]

theorem SeenAlike.carRows : (carRows t).map Row.seen = (carRows s).map Row.seen := by
  have hrows : ∀ v, (Machine.carRows v).map Row.seen =
      ((allRows v).map Row.seen).filter fun x =>
        x.2.2 == .live && x.2.1.lift.isSome && x.1.car == v.straps.car.val := fun v => by
    rw [List.filter_map]; rfl
  rw [hrows, hrows, h.rows, h.straps]

theorem SeenAlike.totals : totalW t = totalW s ∧ totalU t = totalU s := by
  have hw : ∀ v, totalW v = (((Machine.carRows v).map Row.seen).map (·.2.1.load)).sum := fun v => by
    rw [List.map_map]; rfl
  have hu : ∀ v, totalU v = (((Machine.carRows v).map Row.seen).map (·.1.share)).sum := fun v => by
    rw [List.map_map]; rfl
  rw [hw, hw, hu, hu, h.carRows]
  exact ⟨rfl, rfl⟩

theorem SeenAlike.selfLive : selfLive t = selfLive s := by
  have hhead : ∀ v, Machine.selfLive v =
      (((allRows v).map Row.seen).head?.map fun x => x.2.2 == .live).getD false := fun v => by
    unfold Machine.selfLive allRows
    cases v.table <;> rfl
  rw [hhead, hhead, h.rows]

theorem SeenAlike.inBand : InBand t ↔ InBand s := by
  obtain ⟨hw, hu⟩ := h.totals
  unfold InBand
  rw [h.lift, h.selfLive, h.cfg, h.present, h.straps, hw, hu]

end

theorem SeenAlike.refl (s : State) : SeenAlike s s := ⟨rfl, rfl, rfl, rfl, rfl, rfl, rfl, rfl⟩

theorem SeenAlike.trans (h : SeenAlike s t) (k : SeenAlike t u) : SeenAlike s u :=
  ⟨k.table.trans h.table, k.rows.trans h.rows, k.stage.trans h.stage, k.travel.trans h.travel,
    k.present.trans h.present, k.straps.trans h.straps, k.settings.trans h.settings, k.plan.trans h.plan⟩

theorem latchedSet_of_inner (hi : t.inner.faults = s.inner.faults) : latchedSet t = latchedSet s := by
  unfold latchedSet
  congr 1
  funext k
  exact congrArg Prod.fst (congrFun hi k)

/-- The self row's report is the station's own state (R48). -/
theorem selfReport_of_inner (ho : t.outer = s.outer) (hi : t.inner = s.inner) : selfReport t = selfReport s := by
  have hstage : t.stage = s.stage := congrArg Inner.stage hi
  have hengine : t.engine = s.engine := congrArg Inner.engine hi
  have hlift : t.lift = s.lift := lift_of_record (by rw [hstage]) (by rw [hengine])
  unfold selfReport State.flight State.committedEnd
  rw [show t.mode = s.mode from congrArg Inner.mode hi, hlift, hengine, hstage,
    show t.loadMon.present = s.loadMon.present from congrArg Outer.present ho,
    show t.pawl = s.pawl from congrArg Inner.pawl hi, stageIx_of_stage hstage,
    show t.plan = s.plan from congrArg Outer.plan ho, latchedSet_of_inner (congrArg Inner.faults hi),
    show t.modeCtl.rejoined = s.modeCtl.rejoined from congrArg Outer.rejoined ho]

/-- What settling leaves alone holds all that the ceiling unit sees. -/
theorem seenAlike_of_inner (ho : t.outer = s.outer) (hi : t.inner = s.inner) : SeenAlike s t where
  table := by rw [show t.table = s.table from congrArg Outer.table ho]
  rows := by
    have ht : t.table = s.table := congrArg Outer.table ho
    cases ha : s.table with
    | none => rw [allRows_of_none (ht.trans ha), allRows_of_none ha]
    | some a =>
      rw [allRows_of_some (ht.trans ha), allRows_of_some ha]
      unfold selfRow
      rw [selfReport_of_inner ho hi]
  stage := congrArg Inner.stage hi
  travel := travel_of_outer ho
  present := congrArg Outer.present ho
  straps := congrArg Outer.straps ho
  settings := congrArg Outer.settings ho
  plan := congrArg Outer.plan ho

/-- The share evaluation of a column in its band writes the share state, its totals and the end of a condition. -/
theorem shareEval_inBand_eq (hnow : outOfBand (shareOf s) = false) :
    ∃ loadMon faults, shareEval s = { s with loadMon := loadMon, faults := faults } := by
  rcases shareEval_inBand hnow with h | h <;> rw [h] <;> exact ⟨_, _, rfl⟩

theorem seenAlike_shareEval (hnow : outOfBand (shareOf s) = false) : SeenAlike s (shareEval s) :=
  seenAlike_of_inner (outer_shareEval s) (inner_shareEval_inBand hnow).1

end Sys2Proof.Machine

/-! ## A queued claim and its withdrawal (O30)

Before the ceiling unit evaluates at REST, whatever a command does to a queued claim is to ask for its withdrawal, and
a second request changes nothing that the first has not (R14, R113). So a claim ends as it stands or as one withdrawal
leaves it, and a pawl that changes state asks (R112). -/

namespace Sys2Proof.Machine

variable {p : PawlState} {c : Stroke} {s t u v : State}

/-! ### What a withdrawal writes (R113, R114) -/

/-- The stroke engine's state and what the slot and the spacing unit hold of a claim. -/
structure ClaimKey where
  stroke : StrokeState
  slot : ClaimSlot
  withdrawals : Nat
  held : Bool

def State.claimKey (s : State) : ClaimKey :=
  ⟨s.engine.stroke, s.line.claim, s.spacing.withdrawals, s.spacing.held⟩

/-- A cause of withdrawal, by the slot's phase (R112, R113, R114). -/
def ClaimKey.withdraw (k : ClaimKey) : ClaimKey :=
  match k.stroke, k.slot with
  | .claiming _, .waiting _ => ⟨.rest, .empty, oneMore 255 k.withdrawals, false⟩
  | .claiming _, .contending w _ => { k with slot := .contending w true }
  | .claiming _, .committed _ => { k with held := true }
  | _, _ => k

theorem ClaimKey.withdraw_withdraw (k : ClaimKey) : k.withdraw.withdraw = k.withdraw := by
  obtain ⟨stroke, slot, n, held⟩ := k
  cases stroke <;> cases slot <;> rfl

theorem ClaimKey.isRunning_withdraw {k : ClaimKey} (h : isRunning k.stroke = false) :
    isRunning k.withdraw.stroke = false := by
  unfold ClaimKey.withdraw
  split
  · rfl
  · exact h
  · exact h
  · exact h

theorem ClaimKey.withdraw_of_rest {k : ClaimKey} (h : k.stroke = .rest) : k.withdraw = k := by
  unfold ClaimKey.withdraw
  rw [h]

theorem claimKey_causeOfWithdrawal (s : State) : (causeOfWithdrawal s).claimKey = s.claimKey.withdraw := by
  unfold causeOfWithdrawal State.claiming ClaimKey.withdraw
  cases hs : s.engine.stroke with
  | rest => simp [State.claimKey, hs]
  | running r n => simp [State.claimKey, hs]
  | claiming r =>
    unfold requestWithdrawal
    cases hc : s.line.claim <;> simp [State.claimKey, hs, hc, withdrawNow, notify, bump, oneMore]

/-! ### Steps that leave a claim, or ask for its withdrawal -/

/-- With no stroke running, a step leaves the claim and the state of the pawl, or makes one withdrawal. -/
def ClaimFollows (s t : State) : Prop :=
  isRunning s.engine.stroke = false →
    (t.claimKey = s.claimKey ∧ t.pawl.state = s.pawl.state) ∨ t.claimKey = s.claimKey.withdraw

/-- With no stroke running, a step makes one withdrawal. -/
def ClaimAsked (s t : State) : Prop :=
  isRunning s.engine.stroke = false → t.claimKey = s.claimKey.withdraw

theorem ClaimAsked.follows (h : ClaimAsked s t) : ClaimFollows s t := fun hr => .inr (h hr)

theorem ClaimFollows.refl (s : State) : ClaimFollows s s := fun _ => .inl ⟨rfl, rfl⟩

theorem ClaimFollows.still (h : ClaimFollows s t) (hr : isRunning s.engine.stroke = false) :
    isRunning t.engine.stroke = false := by
  rcases h hr with ⟨hk, -⟩ | hk
  · rw [show t.engine.stroke = s.engine.stroke from congrArg ClaimKey.stroke hk]
    exact hr
  · rw [show t.engine.stroke = s.claimKey.withdraw.stroke from congrArg ClaimKey.stroke hk]
    exact ClaimKey.isRunning_withdraw hr

theorem ClaimFollows.trans (h : ClaimFollows s t) (k : ClaimFollows t u) : ClaimFollows s u := fun hr => by
  rcases k (h.still hr) with ⟨hk, hp⟩ | hk
  · rcases h hr with ⟨hk', hp'⟩ | hk'
    · exact .inl ⟨hk.trans hk', hp.trans hp'⟩
    · exact .inr (hk.trans hk')
  · rcases h hr with ⟨hk', -⟩ | hk'
    · exact .inr (hk.trans (by rw [hk']))
    · exact .inr (hk.trans (by rw [hk', ClaimKey.withdraw_withdraw]))

theorem ClaimFollows.asked (h : ClaimFollows s t) (k : ClaimAsked t u) : ClaimAsked s u := fun hr => by
  rw [k (h.still hr)]
  rcases h hr with ⟨hk, -⟩ | hk
  · rw [hk]
  · rw [hk, ClaimKey.withdraw_withdraw]

theorem ClaimAsked.after (h : ClaimAsked s t) (k : ClaimFollows t u) : ClaimAsked s u := fun hr => by
  rcases k (h.follows.still hr) with ⟨hk, -⟩ | hk
  · exact hk.trans (h hr)
  · rw [hk, h hr, ClaimKey.withdraw_withdraw]

/-- What a step must leave alone to leave the claim and the pawl. -/
def State.claimView (s : State) : ClaimKey × PawlState := (s.claimKey, s.pawl.state)

theorem follows_of_view (h : t.claimView = s.claimView) : ClaimFollows s t := fun _ => .inl (Prod.mk.inj h)

/-- An update of blocks that a claim and the pawl are not in may go before. -/
theorem ClaimFollows.of_view (k : ClaimFollows t u) (h : t.claimView = s.claimView) : ClaimFollows s u :=
  (follows_of_view h).trans k

theorem asked_causeOfWithdrawal (s : State) : ClaimAsked s (causeOfWithdrawal s) := fun _ =>
  claimKey_causeOfWithdrawal s

/-! ### Requests and flags -/

theorem claimView_requestPose (s : State) : (requestPose s).claimView = s.claimView := by
  obtain ⟨a, b, h⟩ := requestPose_eq s
  rw [h]; rfl

theorem claimView_latchAt (w : Place) (n : Option Nat) (k : FaultKind) (s : State) :
    (latchAt w n k s).claimView = s.claimView := by
  obtain ⟨faults, a, b, notice, h⟩ := latchAt_eq w n k s
  rw [h]; rfl

theorem claimView_handRetained (s : State) : (handRetained s).claimView = s.claimView := by
  obtain ⟨r, h⟩ := handRetained_eq s
  rw [h]; rfl

theorem claimView_setMode (m : Mode) (s : State) : (setMode m s).claimView = s.claimView := by
  obtain ⟨a, b, h⟩ := setMode_eq m s
  rw [h]; rfl

theorem claimView_placeHalt (k : FaultKind) (s : State) : (placeHalt k s).claimView = s.claimView := by
  obtain ⟨slot, h⟩ := placeHalt_eq k s
  rw [h]; rfl

/-! ### The pawl (R143 to R147) -/

/-- A pawl report finds no lowering stroke to cut, and ends a jog without touching the claim (R133, R139). -/
theorem claimView_engineOnPawl (p : PawlState) (h : isRunning s.engine.stroke = false) :
    (engineOnPawl p s).claimView = s.claimView := by
  have hcut : cutStroke s = s := cutStroke_of_not_lowers (by
    cases hs : s.engine.stroke with
    | running r n => rw [hs] at h; cases h
    | _ => rfl)
  unfold engineOnPawl
  rw [hcut]
  split
  · split <;> rfl
  · simp only []
    split <;> rfl

/-- Any report of the pawl asks for the withdrawal of a queued claim (R112, R147). -/
theorem asked_reportPawl (p : PawlState) (s : State) : ClaimAsked s (reportPawl p s) := fun hr => by
  have hposed := claimView_requestPose (notify { s with pawl := { s.pawl with state := p } })
  have hbegun : ClaimAsked s (causeOfWithdrawal (requestPose (notify { s with pawl := { s.pawl with state := p } }))) :=
    fun _ => by
      rw [claimKey_causeOfWithdrawal, (Prod.mk.inj hposed).1]
      rfl
  have hjog := claimView_engineOnPawl p (hbegun.follows.still hr)
  have hend := (Prod.mk.inj hjog).1.trans (hbegun hr)
  unfold reportPawl
  simp only []
  split
  · exact hend
  · exact hend

theorem follows_beginsSetting (s : State) : ClaimFollows s (beginsSetting s) :=
  (follows_of_view (t := armPawlLimit (commandPawl .set
    { s with pawl := { s.pawl with pendingWithdraw := false } })) rfl).trans (asked_reportPawl .setting _).follows

theorem follows_pawlSet (s : State) : ClaimFollows s (pawlSet s) := by
  have hset := follows_beginsSetting s
  rw [pawlSet_cases]
  split
  · exact follows_of_view rfl
  · exact follows_of_view rfl
  · split
    · exact (hset.trans (follows_of_view (t := disarmPawlLimit (beginsSetting s)) rfl)).trans
        (asked_reportPawl .set _).follows
    · exact hset
  · exact hset
  · exact follows_of_view rfl

theorem follows_pawlWithdraw (s : State) : ClaimFollows s (pawlWithdraw s) := by
  unfold pawlWithdraw
  split
  · split
    · exact (follows_of_view (t := armPawlLimit (commandPawl .withdrawn s)) rfl).trans
        (asked_reportPawl .withdrawing _).follows
    · exact follows_of_view rfl
    · exact .refl s
  · exact .refl s

theorem follows_endJog (s : State) : ClaimFollows s (endJog s) := by
  have hdrop : ClaimFollows s (dropJog s) := follows_of_view rfl
  unfold endJog
  split
  · exact .refl s
  · split
    · exact hdrop.trans (follows_pawlSet _)
    · exact hdrop

/-! ### Mode entries and occurrences (R166, R167) -/

/-- What ends a mode entry that sets the pawl. -/
theorem follows_pawlSet_ceilingIdle (s : State) : ClaimFollows s (pawlSet (ceilingIdle s)) :=
  (follows_of_view (t := ceilingIdle s) rfl).trans (follows_pawlSet _)

theorem follows_enterUnstaged (s : State) : ClaimFollows s (enterUnstaged s) := by
  have hmode : ClaimFollows s (setMode .unstaged s) := follows_of_view (claimView_setMode ..)
  unfold enterUnstaged
  simp only []
  split
  · exact hmode.trans ((follows_pawlSet_ceilingIdle _).of_view rfl)
  · exact hmode.trans ((follows_pawlSet_ceilingIdle _).of_view (claimView_handRetained _))

theorem follows_enterSettled (s : State) : ClaimFollows s (enterSettled s) :=
  (follows_of_view (claimView_setMode ..)).trans (follows_pawlSet_ceilingIdle _)

/-- An entry to HOLD withdraws a queued claim (R166). -/
theorem asked_enterHold (s : State) : ClaimAsked s (enterHold s) := by
  intro hr
  have hmode : ClaimFollows s (setMode .hold s) := follows_of_view (claimView_setMode ..)
  have hshort : shortStop (setMode .hold s) = setMode .hold s := shortStop_of_not_running (hmode.still hr)
  unfold enterHold
  rw [hshort]
  exact ((hmode.asked (asked_causeOfWithdrawal _)).after (follows_pawlSet_ceilingIdle _)) hr

/-- An entry to HALTED withdraws a queued claim (R166). -/
theorem asked_enterHalted (s : State) : ClaimAsked s (enterHalted s) := by
  intro hr
  have hjog : ClaimFollows s (endJog (setMode .halted s)) :=
    (follows_of_view (claimView_setMode ..)).trans (follows_endJog _)
  have habort : abortStroke (endJog (setMode .halted s)) = endJog (setMode .halted s) := by
    unfold abortStroke
    have hstill := hjog.still hr
    split
    · rename_i hrun
      rw [hrun] at hstill
      cases hstill
    · rfl
  unfold enterHalted
  rw [habort]
  exact ((hjog.asked (asked_causeOfWithdrawal _)).after (follows_pawlSet_ceilingIdle _)) hr

theorem follows_modeOnFault (k : FaultKind) (s : State) : ClaimFollows s (modeOnFault k s) := by
  have hplace : ∀ v, ClaimFollows v (placeHalt k v) := fun v => follows_of_view (claimView_placeHalt ..)
  unfold modeOnFault
  split
  · split
    · exact hplace s
    · exact hplace s
    · exact hplace s
    · exact (asked_enterHalted s).follows.trans ((hplace _).of_view rfl)
  · split
    · exact (asked_enterHold s).follows.trans (follows_of_view rfl)
    · exact .refl s

theorem follows_report (k : FaultKind) (n : Option Nat) (s : State) : ClaimFollows s (report k n s) :=
  (follows_modeOnFault k _).of_view (claimView_latchAt ..)

/-- An occurrence that takes a station from MOVING to HOLD withdraws a queued claim (R166, R175). -/
theorem asked_holdReport {k : FaultKind} (hk : holdClass k = true) (n : Option Nat) (hm : s.mode = .moving) :
    ClaimAsked s (report k n s) := by
  have hlatch : ClaimFollows s (latchAt (placeNow s) n k s) := follows_of_view (claimView_latchAt ..)
  have hhalt : haltClass k = false := by cases k <;> simp_all [haltClass, holdClass]
  have hmode : modeOnFault k (latchAt (placeNow s) n k s) =
      recordStop .hold .fault (some k) none (enterHold (latchAt (placeNow s) n k s)) := by
    unfold modeOnFault
    rw [hhalt, hk, mode_latchAt, hm]
    rfl
  have hasked := hlatch.asked (asked_enterHold _)
  show ClaimAsked s (modeOnFault k (latchAt (placeNow s) n k s))
  rw [hmode]
  exact hasked.after (follows_of_view rfl)

theorem follows_handOverArrival (s : State) : ClaimFollows s (handOverArrival s) := by
  unfold handOverArrival endStaging
  split
  · exact (follows_enterUnstaged _).of_view (claimView_handRetained _)
  · exact follows_enterSettled s
  · exact .refl s

/-! ### The readers of a notice -/

theorem follows_shareEval (s : State) : ClaimFollows s (shareEval s) := by
  unfold shareEval
  simp only []
  split
  · exact (follows_report _ _ _).of_view rfl
  · split <;> exact follows_of_view rfl

theorem follows_awaitTest (s : State) : ClaimFollows s (awaitTest s) := by
  unfold awaitTest
  split
  · exact (follows_handOverArrival _).of_view rfl
  · exact .refl s

theorem follows_restTest (s : State) : ClaimFollows s (restTest s) := by
  rw [restTest_eq]
  split
  · exact follows_of_view (claimView_setMode ..)
  · exact .refl s

/-- In CLAIMING an evaluation only asks for the withdrawal of a claim that it no longer lets stand (R86, R103). -/
theorem follows_evaluate (h : s.claiming = true) : ClaimFollows s (evaluate s) := by
  have hask : ∀ v : State, v.claiming = true → ClaimFollows v (requestWithdrawal v) := fun v hv => by
    have hcause : causeOfWithdrawal v = requestWithdrawal v := if_pos hv
    rw [← hcause]
    exact (asked_causeOfWithdrawal v).follows
  unfold evaluate
  split
  · split
    · rename_i hrun
      rw [claiming_eq, hrun] at h
      cases h
    · simp only []
      split
      · exact follows_of_view rfl
      · refine (hask _ ?_).of_view rfl
        exact h
    · rename_i hrest
      rw [claiming_eq, hrest] at h
      cases h
  · exact follows_of_view rfl

/-! ### What an evaluation at REST gives (R86, R102) -/

/-- What an evaluation has written before it hands on: the ceiling unit, and a notice of a nudge that is not due. -/
def Readied (s x : State) : Prop := ∃ ceiling notice, x = { s with ceiling := ceiling, notice := notice }

/-- All that an evaluation at REST can give: ARRIVED, a wait, an offer, a wait with the pawl asked for (R101), or
TRAVEL_LIMIT in take-up (R100). Before an offer it leaves no notice of its own. -/
inductive Gives (s : State) : State → Prop
  | arrived {x : State} (h : Readied s x) : Gives s (giveArrived x)
  | waits {x : State} (w : WaitReason) (h : Readied s x) : Gives s (giveWait w x)
  | offers {x : State} (o : Stroke) (h : Readied s x) (hn : x.notice = s.notice) : Gives s (giveOffer o x)
  | asks {x : State} (w : WaitReason) (h : Readied s x) : Gives s (pawlWithdraw (giveWait w x))
  | limit {x : State} (h : Readied s x) : Gives s (report .travelLimit none (giveWait .lead x))

theorem Readied.refl (s : State) : Readied s s := ⟨_, _, rfl⟩

theorem readied_markRelease (h : Readied s t) : Readied s (markRelease t) := by
  obtain ⟨ceiling, notice, rfl⟩ := h
  unfold markRelease
  split <;> exact ⟨_, _, rfl⟩

theorem gives_offerOrLead (o : Option Stroke) (h : Readied s t) (hn : t.notice = s.notice) :
    Gives s (offerOrLead o t) := by
  cases o with
  | none => exact .waits _ h
  | some r => exact .offers _ h hn

/-- A pawl at SET keeps a lowering stroke from being offered (R96). -/
theorem gives_evalLower_of_set (r : StagedRec) (z : Int) (h : Readied s t) (hp : t.pawl.state = .set) :
    Gives s (evalLower r z t) := by
  have never : precondition t .lowering ≠ .none := fun hc => by
    have := pawl_of_precondition hc
    rw [hp] at this
    cases this
  unfold evalLower
  simp only []
  split
  · exact .asks _ h
  · exact .waits _ h

theorem gives_evalLower (r : StagedRec) (z : Int) (h : Readied s t) (hn : t.notice = s.notice) :
    Gives s (evalLower r z t) := by
  by_cases hp : t.pawl.state = .set
  · exact gives_evalLower_of_set r z h hp
  · have hask : mayAskWithdraw t = false := Bool.eq_false_iff.mpr fun e => hp (mayAskWithdraw_pawl e)
    unfold evalLower
    simp only [hask, Bool.false_eq_true, if_false]
    split
    · exact gives_offerOrLead _ h hn
    · exact .waits _ h

theorem gives_evalNudge (r : StagedRec) (z : Int) (h : Readied s t) (hn : t.notice = s.notice) :
    Gives s (evalNudge r z t) := by
  have hclear : Readied s (notify { t with ceiling := { t.ceiling with nudgeDue := false } }) := by
    obtain ⟨ceiling, notice, rfl⟩ := h
    exact ⟨_, _, rfl⟩
  unfold evalNudge
  split
  · rename_i hc
    split
    · refine gives_evalLower_of_set r z (readied_markRelease hclear) ?_
      rw [pawl_markRelease]
      exact pawl_of_precondition hc
    · split
      · exact .offers _ h hn
      · exact .waits _ h
  · exact .waits _ h

theorem gives_evalTakeUp (s : State) : Gives s (evalTakeUp s) := by
  unfold evalTakeUp
  split
  · exact .limit (.refl s)
  · split
    · exact .offers _ (.refl s) rfl
    · exact .waits _ (.refl s)

theorem gives_evalAtRest (s : State) : Gives s (evalAtRest s) := by
  have hmark := readied_markRelease (.refl s)
  have hn := notice_markRelease s
  unfold evalAtRest
  split
  · simp only []
    split
    · exact .arrived hmark
    · split
      · split
        · exact gives_evalNudge _ _ hmark hn
        · exact gives_evalLower _ _ hmark hn
      · unfold evalRaise
        split
        · exact gives_offerOrLead _ hmark hn
        · exact .waits _ hmark
  · exact gives_evalTakeUp s

/-! ### To the end of the command -/

/-- A claim withdrawn and a fresh one queued, the last thing that a command does (R110, R111). -/
structure Requeues (s t : State) : Prop where
  rest : s.claimKey.withdraw.stroke = .rest
  mode : t.mode = .moving
  claim : ∃ r, t.engine.stroke = .claiming r ∧ t.line.claim = .waiting (claimFrame t r)
  withdrawals : t.spacing.withdrawals = s.claimKey.withdraw.withdrawals
  held : t.spacing.held = false
  notice : t.notice = false

/-- How a claim settles: as it stands, withdrawn, or withdrawn with a fresh one queued. -/
def ClaimSettles (s t : State) : Prop := ClaimFollows s t ∨ Requeues s t

theorem ClaimFollows.withdraw (h : ClaimFollows s t) (hr : isRunning s.engine.stroke = false) :
    t.claimKey.withdraw = s.claimKey.withdraw := by
  rcases h hr with ⟨hk, -⟩ | hk
  · rw [hk]
  · rw [hk, ClaimKey.withdraw_withdraw]

theorem Requeues.of_follows (k : Requeues t u) (h : ClaimFollows s t) (hr : isRunning s.engine.stroke = false) :
    Requeues s u :=
  have hkey := h.withdraw hr
  { k with rest := by rw [← hkey]; exact k.rest, withdrawals := by rw [← hkey]; exact k.withdrawals }

theorem ClaimFollows.settles (h : ClaimFollows s t) (hr : isRunning s.engine.stroke = false)
    (k : ClaimSettles t u) : ClaimSettles s u :=
  k.imp h.trans fun k => k.of_follows h hr

theorem settles_giveOffer (o : Stroke) (hr : s.engine.stroke = .rest) (hn : s.notice = false) :
    ClaimSettles s (giveOffer o s) := by
  have hkey : s.claimKey.withdraw = s.claimKey := ClaimKey.withdraw_of_rest hr
  unfold giveOffer handOffer tryQueue
  simp only []
  split
  · rename_i hq
    split
    · refine .inr ⟨by rw [hkey]; exact hr, hq.2.1, ⟨o, rfl, rfl⟩, ?_, rfl, hn⟩
      rw [hkey]
      rfl
    · exact .inl (follows_of_view rfl)
  · exact .inl (follows_of_view rfl)

theorem settles_gives (h : Gives s t) (hr : s.engine.stroke = .rest) (hn : s.notice = false) :
    ClaimSettles s t := by
  have hstill : isRunning s.engine.stroke = false := by rw [hr]; rfl
  have hready : ∀ {x}, Readied s x → ClaimFollows s x := fun hx => by
    obtain ⟨ceiling, notice, rfl⟩ := hx
    exact follows_of_view rfl
  cases h with
  | arrived h => exact .inl ((hready h).trans (follows_of_view rfl))
  | waits w h => exact .inl ((hready h).trans (follows_of_view rfl))
  | offers o h hx =>
    refine (hready h).settles hstill (settles_giveOffer o ?_ (hx.trans hn))
    obtain ⟨ceiling, notice, rfl⟩ := h
    exact hr
  | asks w h => exact .inl ((hready h).trans ((follows_pawlWithdraw _).of_view rfl))
  | limit h => exact .inl ((hready h).trans ((follows_report _ _ _).of_view rfl))

theorem mode_of_restTest (hm : (restTest s).mode = .moving) : s.mode = .moving := by
  rw [restTest_eq] at hm
  split at hm
  · rw [mode_enterIdle] at hm
    cases hm
  · exact hm

theorem mode_of_awaitTest (hm : (awaitTest s).mode = .moving) : s.mode = .moving := by
  by_contra hne
  unfold awaitTest at hm
  rw [if_neg fun hc => hne hc.2.1] at hm
  exact hne hm

/-- Readers before the ceiling unit that leave a station in MOVING leave no notice (R58). -/
theorem notice_beforeEvaluate (hm : (restTest (awaitTest (shareEval s))).mode = .moving) :
    (restTest (awaitTest (shareEval s))).notice = s.notice := by
  have hawait := mode_of_restTest hm
  rw [notice_restTest hm, notice_awaitTest hawait, notice_shareEval (mode_of_awaitTest hawait)]

theorem follows_beforeEvaluate (s : State) : ClaimFollows s (restTest (awaitTest (shareEval s))) :=
  ((follows_shareEval s).trans (follows_awaitTest _)).trans (follows_restTest _)

theorem settles_evaluate (hr : isRunning s.engine.stroke = false) (hn : s.mode = .moving → s.notice = false) :
    ClaimSettles s (evaluate s) := by
  cases hc : s.claiming with
  | true => exact .inl (follows_evaluate hc)
  | false =>
    have hrest := rest_of_idle hr hc
    unfold evaluate
    split
    · rename_i hm
      rw [hrest]
      exact settles_gives (gives_evalAtRest s) hrest (hn hm)
    · exact .inl (follows_of_view rfl)

theorem settles_readers (hr : isRunning s.engine.stroke = false) (hn : s.notice = false) :
    ClaimSettles s (readers s) := by
  have hbefore := follows_beforeEvaluate s
  exact hbefore.settles hr
    (settles_evaluate (hbefore.still hr) fun hm => (notice_beforeEvaluate hm).trans hn)

theorem settles_settle (n : Nat) (hr : isRunning s.engine.stroke = false) : ClaimSettles s (settle n s) := by
  induction n generalizing s with
  | zero => exact .inl (.refl s)
  | succ n ih =>
    rw [settle_succ]
    split
    · rcases settles_readers (s := clearNotice s) hr rfl with h | h
      · have hround : ClaimFollows s (readers (clearNotice s)) := h.of_view rfl
        exact hround.settles hr (ih (hround.still hr))
      · rw [settle_still _ h.notice]
        exact .inr { h with }
    · exact .inl (.refl s)

/-- How a queued claim stands at the end of a command. -/
theorem settles_finish (hr : isRunning s.engine.stroke = false) : ClaimSettles s (finish s) := by
  obtain ⟨busy, shown, hf⟩ := finish_eq_settled s
  rw [hf]
  rcases settles_settle settleRounds hr with h | h
  · exact .inl (h.trans (follows_of_view rfl))
  · exact .inr { h with notice := rfl }

/-- One withdrawal is made, and a fresh claim may be queued after it. -/
def ClaimWithdraws (s t : State) : Prop := t.claimKey = s.claimKey.withdraw ∨ Requeues s t

theorem ClaimAsked.withdraws (h : ClaimAsked s t) (hr : isRunning s.engine.stroke = false) (k : ClaimSettles t u) :
    ClaimWithdraws s u :=
  k.imp (fun k => (h.after k) hr) fun k => k.of_follows h.follows hr

/-! ### The admission of a queued claim (R86, R103) -/

/-- A share evaluation writes nothing that the ceiling unit sees, or withdraws a queued claim (R162, R166). -/
theorem shareEval_still_or_asked (hm : s.mode = .moving) :
    ((shareEval s).inner = s.inner ∧ (shareEval s).notice = s.notice) ∨
      ((shareEval s).mode = .hold ∧ ClaimAsked s (shareEval s)) := by
  cases hnow : outOfBand (shareOf s) with
  | false =>
    obtain ⟨hinner, hnotice, -⟩ := inner_shareEval_inBand hnow
    exact .inl ⟨hinner, hnotice⟩
  | true =>
    cases hwas : outOfBand s.loadMon.share with
    | true =>
      rw [shareEval_stays (hwas.trans hnow.symm)]
      exact .inl ⟨rfl, rfl⟩
    | false =>
      rw [shareEval_leaves hwas hnow]
      refine .inr ⟨?_, (follows_of_view (t := setActive .loadShare true (writeShare s)) rfl).asked
        (asked_holdReport rfl none hm)⟩
      rw [mode_holdReport rfl]
      exact if_pos hm

/-- The evaluation of a queued claim (R86, R103, R113). -/
theorem evaluate_claiming (hm : s.mode = .moving) (hc : s.engine.stroke = .claiming c) :
    evaluate s =
      if admits s c = true then { s with spacing := { s.spacing with admitted := true } }
      else requestWithdrawal { s with spacing := { s.spacing with admitted := false } } := by
  unfold evaluate
  rw [if_pos hm, hc]
  simp only []
  split
  · rename_i ha
    rw [ha]
  · rename_i ha
    rw [Bool.eq_false_iff.mpr ha]

/-- With no arrival waiting and the share evaluation leaving the station in MOVING, only the ceiling unit reads. -/
theorem readers_claiming (hm : s.mode = .moving) (ha : s.stage.awaitingSet = false)
    (hinner : (shareEval s).inner = s.inner) : readers s = evaluate (shareEval s) := by
  have hstage : (shareEval s).stage = s.stage := congrArg Inner.stage hinner
  have hawait : awaitTest (shareEval s) = shareEval s := if_neg fun hc => by
    rw [hstage, ha] at hc
    cases hc.1
  unfold readers
  rw [hawait, restTest_of_moving ((congrArg Inner.mode hinner).trans hm)]

/-- In MOVING, a claim that is not admitted is withdrawn, in band or not (R103, R162). -/
theorem asked_readers (hm : s.mode = .moving) (ha : s.stage.awaitingSet = false)
    (hc : s.engine.stroke = .claiming c) (hno : admits s c = false) : ClaimAsked s (readers s) := by
  rcases shareEval_still_or_asked hm with ⟨hinner, -⟩ | ⟨hhold, hasked⟩
  · have hmode : (shareEval s).mode = .moving := (congrArg Inner.mode hinner).trans hm
    have hclaiming : (shareEval s).engine.stroke = .claiming c :=
      (congrArg (fun i => i.engine.stroke) hinner).trans hc
    have hadmits : admits (shareEval s) c = false :=
      ((seenAlike_of_inner (outer_shareEval s) hinner).admits (congrArg Inner.release hinner) c).trans hno
    rw [readers_claiming hm ha hinner, evaluate_claiming hmode hclaiming, if_neg (by rw [hadmits]; exact nofun)]
    have hcause := asked_causeOfWithdrawal
      { shareEval s with spacing := { (shareEval s).spacing with admitted := false } }
    unfold causeOfWithdrawal at hcause
    rw [if_pos (by rw [claiming_eq]; exact congrArg isClaiming hclaiming)] at hcause
    exact ((follows_shareEval s).trans (follows_of_view rfl)).asked hcause
  · have hq : Quiet (shareEval s) := by rw [Quiet, hhold]; exact ⟨nofun, nofun⟩
    have hidle : readers s = ceilingIdle (shareEval s) := by
      unfold readers
      rw [awaitTest_quiet hq, restTest_quiet hq]
      exact if_neg hq.1
    rw [hidle]
    exact hasked.after (follows_of_view rfl)

theorem withdraws_finish (hm : s.mode = .moving) (ha : s.stage.awaitingSet = false)
    (hc : s.engine.stroke = .claiming c) (hno : admits s c = false) (hn : s.notice = true) :
    ClaimWithdraws s (finish s) := by
  have hr : isRunning s.engine.stroke = false := by rw [hc]; rfl
  have hasked : ClaimAsked s (readers (clearNotice s)) := asked_readers (s := clearNotice s) hm ha hc hno
  obtain ⟨busy, shown, hf⟩ := finish_eq_settled s
  rw [hf, settleRounds, settle_succ, if_pos hn]
  have hend := hasked.withdraws hr (settles_settle 11 (hasked.follows.still hr))
  exact hend.imp id fun h => { h with notice := rfl }

/-- In MOVING, in band, a claim that stays admitted stands as it is (R103). -/
theorem finish_admitted (hm : s.mode = .moving) (ha : s.stage.awaitingSet = false)
    (hc : s.engine.stroke = .claiming c) (hband : InBand s) (hyes : admits s c = true)
    (hn : s.notice = true) : (finish s).inner = { s.inner with admitted := true } := by
  have hnow : outOfBand (shareOf (clearNotice s)) = false := inBand_shareOf (s := clearNotice s) hband
  obtain ⟨hinner, hnotice, -⟩ := inner_shareEval_inBand hnow
  have hsame : (shareEval (clearNotice s)).inner = s.inner := hinner
  have hmode : (shareEval (clearNotice s)).mode = .moving := (congrArg Inner.mode hsame).trans hm
  have hclaiming : (shareEval (clearNotice s)).engine.stroke = .claiming c :=
    (congrArg (fun i => i.engine.stroke) hsame).trans hc
  have hadmits : admits (shareEval (clearNotice s)) c = true :=
    ((seenAlike_shareEval hnow).admits (congrArg Inner.release hinner) c).trans hyes
  have hround : readers (clearNotice s) = { shareEval (clearNotice s) with
      spacing := { (shareEval (clearNotice s)).spacing with admitted := true } } := by
    rw [readers_claiming (s := clearNotice s) hm ha hinner, evaluate_claiming hmode hclaiming, if_pos hadmits]
  obtain ⟨busy, shown, hf⟩ := finish_eq_settled s
  rw [hf, settleRounds, settle_succ, if_pos hn, settle_still _ (by rw [hround]; exact hnotice), hround, ← hsame]
  rfl

/-! ### What the statement says of a withdrawal -/

theorem not_running_of_claiming (h : s.claiming = true) : isRunning s.engine.stroke = false := by
  rw [claiming_eq] at h
  cases hs : s.engine.stroke with
  | claiming r => rfl
  | _ => rw [hs] at h; cases h

/-- A withdrawal by the slot's phase (R113, R114). -/
def WithdrawnByPhase (s t : State) : Prop :=
  (∀ w, s.line.claim = .waiting w → ClaimWithdrawn s t) ∧
    (∀ w h, s.line.claim = .contending w h → t.line.claim = .contending w true) ∧
    (∀ w, s.line.claim = .committed w → t.line.claim = .committed w ∧ t.spacing.held = true)

/-- What a withdrawal leaves of a claim in CLAIMING, phase by phase. -/
theorem claimKey_withdraw_claiming (hc : s.claiming = true) :
    (∀ w, s.line.claim = .waiting w →
        s.claimKey.withdraw = ⟨.rest, .empty, oneMore 255 s.spacing.withdrawals, false⟩) ∧
      (∀ w h, s.line.claim = .contending w h → s.claimKey.withdraw = { s.claimKey with slot := .contending w true }) ∧
      ∀ w, s.line.claim = .committed w → s.claimKey.withdraw = { s.claimKey with held := true } := by
  obtain ⟨r, hr⟩ : ∃ r, s.engine.stroke = .claiming r := by
    rw [claiming_eq] at hc
    cases hs : s.engine.stroke with
    | claiming r => exact ⟨r, rfl⟩
    | _ => rw [hs] at hc; cases hc
  unfold ClaimKey.withdraw State.claimKey
  refine ⟨fun w hw => ?_, fun w h hw => ?_, fun w hw => ?_⟩ <;> simp [hr, hw]

/-- A withdrawal by the slot's phase that queues no fresh claim (R113, R114). -/
theorem byPhase_of_claimKey (hc : s.claiming = true) (h : t.claimKey = s.claimKey.withdraw) :
    (∀ w, s.line.claim = .waiting w →
        (t.line.claim = .empty ∧ t.engine.stroke = .rest ∧
          t.spacing.withdrawals = oneMore 255 s.spacing.withdrawals) ∧ t.spacing.held = false) ∧
      (∀ w b, s.line.claim = .contending w b → t.line.claim = .contending w true) ∧
      ∀ w, s.line.claim = .committed w → t.line.claim = .committed w ∧ t.spacing.held = true := by
  obtain ⟨hwaiting, hcontending, hcommitted⟩ := claimKey_withdraw_claiming hc
  refine ⟨fun w hw => ?_, fun w b hw => ?_, fun w hw => ?_⟩
  · have hk := h.trans (hwaiting w hw)
    exact ⟨⟨congrArg ClaimKey.slot hk, congrArg ClaimKey.stroke hk, congrArg ClaimKey.withdrawals hk⟩,
      congrArg ClaimKey.held hk⟩
  · exact congrArg ClaimKey.slot (h.trans (hcontending w b hw))
  · have hk := h.trans (hcommitted w hw)
    exact ⟨(congrArg ClaimKey.slot hk).trans hw, congrArg ClaimKey.held hk⟩

theorem ClaimWithdraws.byPhase (h : ClaimWithdraws s t) (hc : s.claiming = true) : WithdrawnByPhase s t := by
  rcases h with h | h
  · obtain ⟨hwaiting, hothers⟩ := byPhase_of_claimKey hc h
    refine ⟨fun w hw => ?_, hothers⟩
    obtain ⟨⟨hslot, hstroke, hcount⟩, hheld⟩ := hwaiting w hw
    exact ⟨hcount, hheld, .inl ⟨hslot, hstroke⟩⟩
  · obtain ⟨hwaiting, hcontending, hcommitted⟩ := claimKey_withdraw_claiming hc
    have hidle : s.claimKey.withdraw.stroke ≠ s.engine.stroke := fun heq => by
      rw [claiming_eq, ← heq, h.rest] at hc
      cases hc
    refine ⟨fun w hw => ?_, fun w b hw => ?_, fun w hw => ?_⟩
    · obtain ⟨r, hs, hslot⟩ := h.claim
      refine ⟨h.withdrawals.trans ?_, h.held, .inr ⟨r, h.mode, hs, hslot⟩⟩
      rw [hwaiting w hw]
    · exact absurd (congrArg ClaimKey.stroke (hcontending w b hw)) hidle
    · exact absurd (congrArg ClaimKey.stroke (hcommitted w hw)) hidle

end Sys2Proof.Machine

/-! ### A CLAIM from a peer (R108, R112) -/

namespace Sys2Proof.Machine

variable {c : Stroke} {n : Nat} {mk mk' : RowMarks → RowMarks} {rep : Report → Report} {r : Row}
  {s t u v : State}

/-- Two writes of one row that differ in stamps alone are seen alike. -/
theorem rows_of_written (h : RowWritten n mk rep v s) (h' : RowWritten n mk' rep v t)
    (hlive : ∀ a, (mk' a).live = (mk a).live) (hself : selfReport t = selfReport s) :
    (allRows t).map Row.seen = (allRows s).map Row.seen := by
  have hpeers : ∀ (f : RowMarks → RowMarks), (∀ a, (f a).live = (mk a).live) → ∀ a : PeerTable,
      (rowWrite n f rep a).peers.map Row.seen = (rowWrite n mk rep a).peers.map Row.seen ∧
        (rowWrite n f rep a).selfFixed = (rowWrite n mk rep a).selfFixed ∧
        (rowWrite n f rep a).selfMarks.live = (rowWrite n mk rep a).selfMarks.live := fun f hf a => by
    unfold rowWrite mapReport mapMarks
    by_cases hn : a.selfFixed.number = n
    · simp only [hn, if_true, hf, and_self]
    · simp only [hn, if_false, List.map_map, and_true]
      refine List.map_congr_left fun q _ => ?_
      by_cases hq : q.fixed.number = n
      · simp [Row.seen, hq, hf]
      · simp [Row.seen, hq]
  cases ha : v.table with
  | none =>
    have hs := h.table
    have ht := h'.table
    rw [ha] at hs ht
    rw [allRows_of_none hs, allRows_of_none ht]
  | some a =>
    have hs := h.table
    have ht := h'.table
    rw [ha, Option.map_some] at hs ht
    obtain ⟨hp, hfixed, hmarks⟩ := hpeers mk' hlive a
    rw [allRows_of_some hs, allRows_of_some ht, List.map_cons, List.map_cons, hp]
    simp only [Row.seen, selfRow, hself, hfixed, hmarks]

theorem heardFrom_claim (s : State) (f : RxFrame) :
    heardFrom s (wire kindClaim f) = signOfLife f.station.toNat (lineBusy s) := by
  have harrives : frameArrives (wire kindClaim f) s = lineBusy s := by
    unfold frameArrives
    exact if_neg (by simp [wire])
  unfold heardFrom
  rw [harrives]
  rfl

/-- The stamps of a CLAIM are nothing that the ceiling unit sees (R51, R108). -/
theorem seenAlike_claimWritten (s : State) (f : RxFrame) (m : ClaimMsg) (r : Row) :
    SeenAlike (claimed s f m) (claimWritten s f.station.toNat m r) := by
  unfold claimed
  rw [heardFrom_claim]
  have hplain := rowWritten_mapReport f.station.toNat (claimToRow m) (signOfLife f.station.toNat (lineBusy s))
  have hmarks := rowWritten_mapMarks f.station.toNat
    (fun a => { a with lastClaim := Stamp.written (signOfLife f.station.toNat (lineBusy s)).timeBase })
    (signOfLife f.station.toNat (lineBusy s))
  have hstamped := hmarks.after (rowWritten_mapReport f.station.toNat (claimToRow m) _)
  refine ⟨?_, ?_, rfl, rfl, rfl, rfl, rfl, rfl⟩
  · have hw : (claimWritten s f.station.toNat m r).table =
        (signOfLife f.station.toNat (lineBusy s)).table.map _ := hstamped.table
    rw [hw, hplain.table, Option.isSome_map, Option.isSome_map]
  · exact rows_of_written hplain ⟨hstamped.table, rfl⟩ (fun _ => rfl) rfl

theorem release_claimWritten (s : State) (f : RxFrame) (m : ClaimMsg) (r : Row) :
    (claimWritten s f.station.toNat m r).ceiling.release = (claimed s f m).ceiling.release := by
  unfold claimed
  rw [heardFrom_claim]
  rfl

/-- A CLAIM of the own feeder group, or any CLAIM where G_S is not 0, begins a gap (R108, R109). -/
theorem gapPassed_claimWritten (h : (r.fixed.feeder = s.straps.feeder.val ∧ 0 < s.cfg.gl) ∨ 0 < s.cfg.gs)
    (n : Nat) (m : ClaimMsg) : gapPassed (claimWritten s n m r) = false := by
  have hyoung : ∀ ms, 0 < ms → (⟨s.timeBase, false⟩ : Stamp).atLeast s.timeBase (10 * ms) = false := fun ms hms => by
    simp [Stamp.atLeast, Stamp.age]
    omega
  obtain ⟨table, faults, heq⟩ := claimWritten_eq s n m r
  rw [heq]
  unfold gapPassed
  rcases h with ⟨hf, hgl⟩ | hgs
  · have hfeeder := hyoung _ hgl
    simp only [hf, if_true]
    exact Bool.and_eq_false_imp.mpr fun hc => absurd (hc.symm.trans hfeeder) nofun
  · exact Bool.and_eq_false_imp.mpr fun _ => hyoung _ hgs

/-- A claim withdrawn before the gap has passed is not queued afresh (R109, R110). -/
theorem claimKey_finish_withdrawn (hr : isRunning s.engine.stroke = false) (hgap : gapPassed s = false) :
    (finish (causeOfWithdrawal s)).claimKey = s.claimKey.withdraw := by
  have hasked := asked_causeOfWithdrawal s
  rcases hasked.withdraws hr (settles_finish (hasked.follows.still hr)) with h | h
  · exact h
  · obtain ⟨o, hs, -⟩ := h.claim
    have hrest : (causeOfWithdrawal s).engine.stroke = .rest :=
      (congrArg ClaimKey.stroke (claimKey_causeOfWithdrawal s)).trans h.rest
    have hgap' : gapPassed (causeOfWithdrawal s) = false :=
      (gapPassed_of_outer (outer_causeOfWithdrawal s)).trans hgap
    have hend := (windsDown_finish (g := True) fun _ => hgap').rest hrest
    rw [hend] at hs
    cases hs

/-! ### The admission test after a frame from a peer (R103, R112) -/

/-- A peer's frame has been taken: of the inner part only the record of PEER_SILENT may have changed (R49, R56). -/
structure FrameTaken (s u : State) : Prop where
  inner : u.inner = { s.inner with faults := u.inner.faults }
  faults : OtherFaultsKept s u .peerSilent
  notice : u.notice = true

theorem frameTaken_claimWritten (s : State) (n : Nat) (m : ClaimMsg) (r : Row) :
    FrameTaken s (claimWritten s n m r) := by
  obtain ⟨table, faults, heq⟩ := claimWritten_eq s n m r
  exact ⟨by rw [heq]; rfl, fun j hj => inner_faults_of_fault (fault_claimWritten hj s n m r), by rw [heq]⟩

theorem frameTaken_posed {f : RxFrame} (hown : isOwnAttempt s (wire kindPose f) = false) (m : PoseMsg) :
    FrameTaken s (posed s f m) := by
  obtain ⟨-, hinner, hfaults⟩ := posed_other hown m
  obtain ⟨line, table, faults, heq⟩ := posed_eq s f m
  exact ⟨hinner, hfaults, by rw [heq]⟩

section
variable (h : FrameTaken s u)
include h

theorem FrameTaken.mode : u.mode = s.mode := by
  rw [show u.mode = u.inner.mode from rfl, h.inner]; rfl

theorem FrameTaken.awaiting : u.stage.awaitingSet = s.stage.awaitingSet := by
  rw [show u.stage = u.inner.stage from rfl, h.inner]; rfl

theorem FrameTaken.stroke : u.engine.stroke = s.engine.stroke := by
  rw [show u.engine = u.inner.engine from rfl, h.inner]; rfl

theorem FrameTaken.claimKey : u.claimKey = s.claimKey := by
  have hkey : ∀ v : State, v.claimKey =
      ⟨v.inner.engine.stroke, v.inner.claim, v.inner.withdrawals, v.inner.held⟩ := fun _ => rfl
  rw [hkey, h.inner]
  rfl

theorem FrameTaken.withdraws (k : ClaimWithdraws u t) : ClaimWithdraws s t := by
  have hkey := h.claimKey
  rcases k with k | k
  · exact .inl (by rw [k, hkey])
  · exact .inr { k with rest := by rw [← hkey]; exact k.rest, withdrawals := by rw [← hkey]; exact k.withdrawals }

/-- A claim still admitted after the frame stands as it is (R103). -/
theorem FrameTaken.kept (hm : s.mode = .moving) (ha : s.stage.awaitingSet = false)
    (hc : s.engine.stroke = .claiming c) (hband : InBand u) (hyes : StillAdmitted u c) :
    (finish u).inner = { s.inner with faults := (finish u).inner.faults, admitted := true } ∧
      OtherFaultsKept s (finish u) .peerSilent := by
  have hinner := finish_admitted (h.mode.trans hm) (h.awaiting.trans ha) (h.stroke.trans hc) hband
    ((admits_iff u c).mpr hyes) h.notice
  have hsame : (finish u).inner.faults = u.inner.faults := by rw [hinner]
  refine ⟨?_, fun j hj => (congrFun hsame j).trans (h.faults j hj)⟩
  rw [hsame]
  rw [h.inner] at hinner
  exact hinner

/-- A claim no longer admitted after the frame is withdrawn (R103, R113). -/
theorem FrameTaken.byPhase (hm : s.mode = .moving) (ha : s.stage.awaitingSet = false)
    (hc : s.engine.stroke = .claiming c) (hno : ¬ StillAdmitted u c) : WithdrawnByPhase s (finish u) := by
  have hend := withdraws_finish (h.mode.trans hm) (h.awaiting.trans ha) (h.stroke.trans hc)
    (Bool.eq_false_iff.mpr fun hyes => hno ((admits_iff u c).mp hyes)) h.notice
  exact (h.withdraws hend).byPhase (by rw [claiming_eq, hc]; rfl)

end

/-- What a peer's CLAIM makes of a queued claim (R112). -/
theorem withdrawForClaim_cases (n : Nat) (m : ClaimMsg) (r : Row) (s : State) :
    withdrawForClaim r.fixed.feeder (claimWritten s n m r) =
      if r.fixed.feeder = s.straps.feeder.val ∨ 0 < s.cfg.gs then causeOfWithdrawal (claimWritten s n m r)
      else claimWritten s n m r := by
  obtain ⟨table, faults, heq⟩ := claimWritten_eq s n m r
  rw [heq]
  rfl

/-! ### A POSE from a peer (R50, R112, R175, R176) -/

/-- In MOVING a peer's POSE brings hold contagion or halt contagion, which withdraw a queued claim, or does nothing at
mode control (R174 to R176). -/
theorem modeOnPose_moving (m : PoseMsg) (hm : s.mode = .moving) :
    modeOnPose n m s = s ∨
      (ClaimAsked s (modeOnPose n m s) ∧ (m.mode = .halted ∨ (m.mode = .hold ∧ m.stage = s.stageIx))) := by
  unfold modeOnPose
  split
  · rename_i hc
    exact .inr ⟨(asked_enterHalted s).after (follows_of_view rfl), .inl hc.1⟩
  · split
    · rename_i hc
      exact .inr ⟨(asked_enterHold s).after (follows_of_view rfl), .inr ⟨hc.1, hc.2.2⟩⟩
    · left
      unfold catchUp
      rw [hm]

/-- A peer's POSE is shown by its row, which is LIVE (R49, R50). -/
theorem exists_row_posed {f : RxFrame} (m : PoseMsg) (ht : TableOwn s) (hn : f.station.toNat ≠ s.own)
    (hm : isMember s f.station.toNat = true) :
    ∃ q ∈ allRows (posed s f m), q.isLive = true ∧ q.report = reportOf m := by
  obtain ⟨r, hr⟩ := (isMember_iff s _).mp hm
  rw [rowOf_eq_peerOf ht hn] at hr
  have hpeer := (rowWritten_posed s f m).peerOf ht f.station.toNat
  rw [hr, Option.map_some, if_pos rfl] at hpeer
  have hmem := List.mem_of_find?_eq_some hpeer
  refine ⟨⟨r.fixed, reportOf m, heardMarks s r.marks⟩, ?_, rfl, rfl⟩
  unfold peerRows at hmem
  unfold allRows
  cases ha : (posed s f m).table with
  | none => rw [ha] at hmem; cases hmem
  | some a => rw [ha] at hmem; exact List.mem_cons_of_mem _ hmem

/-- A contagion's mode, shown by a LIVE row, fails the PEERS check (R62, R94, R103). -/
theorem not_stillAdmitted_of_row {q : Row} (hq : q ∈ allRows s) (hlive : q.isLive = true)
    (hmode : q.report.mode = .halted ∨ (q.report.mode = .hold ∧ q.report.stage = s.stageIx)) :
    ¬ StillAdmitted s c := by
  have htable : s.table.isSome = true := by
    unfold allRows at hq
    cases ha : s.table with
    | none => rw [ha] at hq; cases hq
    | some a => rfl
  rintro ⟨-, -, hhold, hhalted, -⟩
  rcases hmode with h | ⟨h, hstage⟩
  · have hany : anyHalted s = true := by
      unfold anyHalted viewTest
      rw [htable, Bool.true_and, List.any_eq_true]
      exact ⟨q, hq, by rw [hlive, h]; rfl⟩
    rw [hhalted] at hany
    cases hany
  · have hany : anyHold s = true := by
      unfold anyHold viewTest
      rw [htable, Bool.true_and, List.any_eq_true]
      exact ⟨q, hq, by rw [hlive, h, hstage]; simp⟩
    rw [hhold] at hany
    cases hany

/-! ### Changes of the pawl's state (R112, R145, R146) -/

theorem follows_pawlStuck (s : State) : ClaimFollows s (pawlStuck s) :=
  ((asked_reportPawl .stuck _).follows.trans (follows_report _ _ _)).of_view rfl

theorem follows_pawlReachesSet (s : State) : ClaimFollows s (pawlReachesSet s) := by
  have hset : ClaimFollows s (reachedSet s) := (asked_reportPawl .set _).follows.of_view rfl
  rw [pawlReachesSet_eq]
  split
  · exact hset.trans (follows_pawlWithdraw _)
  · exact hset

theorem follows_pawlOnSwitch (sw : PawlSwitch) (closed : Bool) (s : State) :
    ClaimFollows s (pawlOnSwitch sw closed s) := by
  unfold pawlOnSwitch pawlReachesWithdrawn
  split
  · exact follows_pawlStuck s
  · exact follows_pawlStuck s
  · split
    · exact follows_pawlStuck s
    · exact (asked_reportPawl .withdrawn _).follows.of_view rfl
  · exact follows_pawlStuck s
  · exact follows_pawlStuck s
  · split
    · exact follows_pawlStuck s
    · exact follows_pawlReachesSet s
  · exact .refl s

/-- A command of the pawl leaves a queued claim to what settles it (R142, R145, R146). -/
theorem exec_pawl_follows {i : Instr}
    (hi : (∃ sw closed, i = .switchEvent sw closed) ∨ i = .pawlTimeLimitExpiry) (s : State) :
    exec i s = .next s ∨ ∃ u, exec i s = .next (finish u) ∧ ClaimFollows s u := by
  rcases hi with ⟨sw, closed, rfl⟩ | rfl
  · by_cases hl : switchLevel s sw = closed
    · exact .inl (if_pos hl)
    · refine .inr ⟨_, exec_switchEvent hl, (follows_pawlOnSwitch sw closed _).of_view ?_⟩
      cases sw <;> rfl
  · by_cases hd : due s.timeBase s.pawl.limit = true
    · refine .inr ⟨_, if_pos hd, ?_⟩
      split
      · exact (follows_pawlStuck _).of_view rfl
      · exact (follows_pawlStuck _).of_view rfl
      · exact follows_of_view rfl
    · exact .inl (if_neg hd)

/-- A pawl whose state has changed at the end of a command has had a queued claim withdrawn (R112). -/
theorem withdraws_of_pawl (hr : isRunning s.engine.stroke = false) (h : ClaimFollows s u)
    (hp : (finish u).pawl.state ≠ s.pawl.state) : ClaimWithdraws s (finish u) := by
  rcases h.settles hr (settles_finish (h.still hr)) with k | k
  · rcases k hr with ⟨-, hsame⟩ | hkey
    · exact absurd hsame hp
    · exact .inl hkey
  · exact .inr k

end Sys2Proof.Machine

open Sys2Proof Sys2Proof.Machine in
/-- Settles O30: every cause asks for one withdrawal, which the slot's phase answers, and a claim that no cause meets
is left to the admission test. -/
theorem claimWithdrawsQueuedClaim : Obligations.ClaimWithdrawsQueuedClaim := by
  refine ⟨fun s f m r hroll hbar ht hm hn hr hc => ?_,
    fun s f m c hmode ha hc ht hown hp hm hn hmem => ?_, fun s i hc hi => ?_⟩
  · have htaken := frameTaken_claimWritten s f.station.toNat m r
    have hcases := withdrawForClaim_cases f.station.toNat m r s
    have hother : r.fixed.feeder ≠ s.straps.feeder.val → s.cfg.gs = 0 →
        withdrawForClaim r.fixed.feeder (claimWritten s f.station.toNat m r) =
          claimWritten s f.station.toNat m r := fun hf hgs =>
      hcases.trans (if_neg fun h => h.elim hf fun h => absurd (hgs ▸ h) (Nat.lt_irrefl 0))
    refine ⟨_, exec_claimFrame ⟨hroll, hbar⟩ ht hm hn hr, fun hcause => ?_, fun hf hgs hq => ?_,
      fun c hf hgs hmode ha hcl hband => ?_⟩
    · rw [hcases, if_pos (hcause.imp And.left id)]
      have hend := claimKey_finish_withdrawn (by rw [htaken.stroke]; exact not_running_of_claiming hc)
        (gapPassed_claimWritten hcause f.station.toNat m)
      obtain ⟨hwaiting, hothers⟩ := byPhase_of_claimKey hc (hend.trans (by rw [htaken.claimKey]))
      exact ⟨fun w hw => (hwaiting w hw).1, hothers⟩
    · have hquiet : Quiet (claimWritten s f.station.toNat m r) := quiet_of_eq htaken.mode hq
      unfold OtherFaultsKept
      rw [hother hf hgs, finish_quiet hquiet]
      exact ⟨htaken.inner, htaken.faults⟩
    · have hseen := seenAlike_claimWritten s f m r
      have hstill := hseen.stillAdmitted (release_claimWritten s f m r) c
      rw [hother hf hgs]
      exact ⟨fun hyes => htaken.kept hmode ha hcl (hseen.inBand.mpr hband) (hstill.mpr hyes),
        fun hno => htaken.byPhase hmode ha hcl (mt hstill.mp hno)⟩
  · have htaken := frameTaken_posed hown m
    have hclaiming : s.claiming = true := by rw [claiming_eq, hc]; rfl
    have hstill := not_running_of_claiming hclaiming
    refine ⟨_, exec_poseFrame ⟨by rw [hmode]; exact nofun, by rw [hmode]; exact nofun⟩ hp hm hn hmem, ?_⟩
    rcases modeOnPose_moving (n := f.station.toNat) m (htaken.mode.trans hmode) with hnone | ⟨hasked, hcontagion⟩
    · rw [hnone]
      exact ⟨fun hband hyes => htaken.kept hmode ha hc hband hyes, fun hno => htaken.byPhase hmode ha hc hno⟩
    · obtain ⟨q, hq, hlive, hreport⟩ := exists_row_posed m ht hn hmem
      refine ⟨fun _ hyes => absurd hyes (not_stillAdmitted_of_row hq hlive (by rw [hreport]; exact hcontagion)),
        fun _ => ?_⟩
      have hrun : isRunning (posed s f m).engine.stroke = false := by rw [htaken.stroke]; exact hstill
      exact (htaken.withdraws (hasked.withdraws hrun (settles_finish (hasked.follows.still hrun)))).byPhase hclaiming
  · rcases exec_pawl_follows hi s with hexec | ⟨u, hexec, hfollows⟩
    · exact ⟨_, hexec, fun hne => absurd rfl hne⟩
    · exact ⟨_, hexec, fun hne => (withdraws_of_pawl (not_running_of_claiming hc) hfollows hne).byPhase hc⟩

/-! ## The evaluation at the reversal dwell expiry (O50)

An evaluation at REST gives its verdict in one round of notices. Only the pawl request and a nudge of length 0 send a
notice, and the second round gives the same wait again (R87, R99, R101). -/

namespace Sys2Proof.Machine

variable {c : StrokeClass} {h : Int} {o : CeilOutcome} {r : StagedRec} {w : WaitReason} {s t u x : State}

/-! ### The first precondition that fails (R91, R94, R96) -/

theorem precondition_peers (hp : peersPass s c = false) : precondition s c = .peers := by
  unfold precondition
  rw [hp]
  rfl

theorem precondition_pawl (hp : peersPass s c = true) (hw : s.pawl.state ≠ classPawl c) :
    precondition s c = .pawl := by
  unfold precondition
  rw [hp, bne_iff_ne.mpr hw]
  rfl

theorem precondition_dwell (hp : peersPass s c = true) (hw : s.pawl.state = classPawl c)
    (hd : ¬ dwellPass s c = true) : precondition s c = .dwell := by
  unfold precondition
  rw [hp, hw, bne_self_eq_false, Bool.eq_false_iff.mpr hd]
  rfl

theorem precondition_none (hp : peersPass s c = true) (hw : s.pawl.state = classPawl c)
    (hd : dwellPass s c = true) : precondition s c = .none := by
  unfold precondition
  rw [hp, hw, bne_self_eq_false, hd]
  rfl

theorem dwellPass_iff (s : State) (c : StrokeClass) :
    dwellPass s c = true ↔
      s.engine.lastDir = .none ∨ s.engine.lastDir = classDir c ∨ s.engine.lastEnd.expired = true ∨
        10 * s.cfg.trev ≤ (s.timeBase - s.engine.lastEnd.value).toNat := by
  unfold dwellPass Stamp.atLeast Stamp.age
  simp only [Bool.or_eq_true, beq_iff_eq, decide_eq_true_eq, or_assoc]

/-- Only a pawl that is WITHDRAWN is ready to lower: the self row carries the pawl's state (R48, R63). -/
theorem loweringReady_of_pawl (hp : s.pawl.state ≠ .withdrawn) : loweringReady s = false := by
  unfold loweringReady viewTest
  cases ha : s.table with
  | none => rfl
  | some a =>
    have hself : (selfRow s a).report.pawl = s.pawl.state := rfl
    simp only [allRows_of_some ha, List.all_cons, hself, beq_eq_false_iff_ne.mpr hp, Bool.and_false, Bool.false_and]

/-! ### What an evaluation gives (R86, R102, R191) -/

/-- What a wait reason is timed from. -/
def State.waitView (s : State) : Time × WaitReason × Stamp × Bool :=
  (s.timeBase, s.ceiling.reason, s.lamps.waitStamp, s.lamps.waitingLong)

theorem WaitTimed.of_view (k : WaitTimed x t) (hv : x.waitView = s.waitView) : WaitTimed s t := by
  obtain ⟨htime, hreason, hstamp, hlong⟩ := by simpa only [State.waitView, Prod.mk.injEq] using hv
  refine ⟨fun hw => ?_, fun hw hs => ?_, fun hw hs => ?_⟩
  · rw [← hstamp]
    exact k.ends hw
  · rw [← htime]
    exact k.begins hw (hreason.trans hs)
  · rw [← hlong, ← hstamp]
    exact k.goesOn hw (by rw [hreason]; exact hs)

theorem waitTimed_setReason (w : WaitReason) (s : State) : WaitTimed s (setReason w s) where
  ends hw := by
    have hw : w = .none := hw
    subst hw
    exact ⟨rfl, rfl⟩
  begins hw hs := by
    have hw : w ≠ .none := hw
    simp [setReason, hw, hs, Stamp.written]
  goesOn hw hs := by
    have hw : w ≠ .none := hw
    simp [setReason, hw, hs]

/-- An outcome with its reason, given to a state: timed as R191 says, with no offer but the outcome's own. -/
structure Told (o : CeilOutcome) (w : WaitReason) (s t : State) : Prop where
  outcome : t.ceiling.outcome = o
  reason : t.ceiling.reason = w
  offer : (∀ q, o ≠ .offer q) → t.spacing.offer = none
  release : t.ceiling.release = s.ceiling.release
  timed : WaitTimed s t

theorem Told.of_view (k : Told o w x t) (hv : x.waitView = s.waitView)
    (hr : x.ceiling.release = s.ceiling.release) : Told o w s t :=
  { k with
    release := k.release.trans hr
    timed := k.timed.of_view hv }

theorem Told.congr (k : Told o w s t) (hceiling : u.ceiling = t.ceiling)
    (hoffer : u.spacing.offer = t.spacing.offer) (hlong : u.lamps.waitingLong = t.lamps.waitingLong)
    (hstamp : u.lamps.waitStamp = t.lamps.waitStamp) : Told o w s u where
  outcome := by rw [hceiling]; exact k.outcome
  reason := by rw [hceiling]; exact k.reason
  offer := by rw [hoffer]; exact k.offer
  release := by rw [hceiling]; exact k.release
  timed := by
    refine ⟨?_, ?_, ?_⟩ <;> rw [hceiling, hlong, hstamp]
    · exact k.timed.ends
    · exact k.timed.begins
    · exact k.timed.goesOn

/-- A reason that stays neither writes the stamp nor ends a long wait (R191). -/
theorem Told.again (k : Told o w s t) (hw : w ≠ .none) (k' : Told o w t u) : Told o w s u where
  outcome := k'.outcome
  reason := k'.reason
  offer := k'.offer
  release := k'.release.trans k.release
  timed := by
    have hu : u.ceiling.reason ≠ .none := by rw [k'.reason]; exact hw
    have ht : t.ceiling.reason ≠ .none := by rw [k.reason]; exact hw
    obtain ⟨hlong, hstamp⟩ := k'.timed.goesOn hu ht
    refine ⟨fun he => absurd he hu, fun _ hs => ?_, fun _ hs => ?_⟩
    · rw [hlong, hstamp]
      exact k.timed.begins ht hs
    · rw [hlong, hstamp]
      exact k.timed.goesOn ht hs

theorem told_giveWait (w : WaitReason) (s : State) : Told .wait w s (giveWait w s) :=
  ⟨rfl, rfl, fun _ => rfl, rfl, { waitTimed_setReason w s with }⟩

theorem told_giveArrived (s : State) : Told .arrived .none s (giveArrived s) :=
  ⟨rfl, rfl, fun _ => rfl, rfl, { waitTimed_setReason .none s with }⟩

theorem tryQueue_eq (s : State) :
    ∃ engine line spacing, tryQueue s = { s with engine := engine, line := line, spacing := spacing } := by
  unfold tryQueue
  split
  · exact ⟨_, _, _, rfl⟩
  · split
    · split <;> exact ⟨_, _, _, rfl⟩
    · exact ⟨_, _, _, rfl⟩

theorem told_giveOffer (q : Stroke) (s : State) : Told (.offer q) .spacing s (giveOffer q s) := by
  obtain ⟨engine, line, spacing, heq⟩ := tryQueue_eq
    { setReason .spacing s with
      ceiling := { (setReason .spacing s).ceiling with outcome := .offer q }
      spacing := { (setReason .spacing s).spacing with offer := some q } }
  unfold giveOffer handOffer
  simp only [heq]
  exact ⟨rfl, rfl, fun hno => absurd rfl (hno q), rfl, { waitTimed_setReason .spacing s with }⟩

theorem notice_giveOffer (q : Stroke) (s : State) : (giveOffer q s).notice = s.notice := by
  unfold giveOffer handOffer
  obtain ⟨engine, line, spacing, heq⟩ := tryQueue_eq
    { setReason .spacing s with
      ceiling := { (setReason .spacing s).ceiling with outcome := .offer q }
      spacing := { (setReason .spacing s).spacing with offer := some q } }
  simp only [heq]
  rfl

/-! ### The verdict of a class (R91, R92, R99, R100) -/

/-- An offer with reason SPACING, or a wait for the lead ceiling (R92, R99). -/
def orLead : Option Stroke → CeilOutcome × WaitReason
  | some q => (.offer q, .spacing)
  | none => (.wait, .lead)

/-- The verdict on a class: a wait for the first precondition that fails, or the stroke chosen (R91). -/
def verdict (s : State) (c : StrokeClass) (q : Option Stroke) : CeilOutcome × WaitReason :=
  match precondition s c with
  | .none => orLead q
  | why => (.wait, why)

/-- The evaluation of a class with the stroke it chooses, short of the pawl request (R91). -/
def evalWith (c : StrokeClass) (q : Option Stroke) (s : State) : State :=
  match precondition s c with
  | .none => offerOrLead q s
  | why => giveWait why s

theorem verdict_of_none (hc : precondition s c = .none) (q : Option Stroke) : verdict s c q = orLead q := by
  unfold verdict
  rw [hc]

theorem verdict_of_fails (hc : precondition s c = w) (hw : w ≠ .none) (q : Option Stroke) :
    verdict s c q = (.wait, w) := by
  unfold verdict
  split
  · rename_i hnone
    exact absurd (hc.symm.trans hnone) hw
  · rw [hc]

theorem evalWith_of_none (hc : precondition s c = .none) (q : Option Stroke) :
    evalWith c q s = offerOrLead q s := by
  unfold evalWith
  rw [hc]

theorem evalWith_of_fails (hc : precondition s c = w) (hw : w ≠ .none) (q : Option Stroke) :
    evalWith c q s = giveWait w s := by
  unfold evalWith
  split
  · rename_i hnone
    exact absurd (hc.symm.trans hnone) hw
  · rw [hc]

theorem told_evalWith (c : StrokeClass) (q : Option Stroke) (s : State) :
    Told (verdict s c q).1 (verdict s c q).2 s (evalWith c q s) := by
  by_cases hc : precondition s c = .none
  · rw [verdict_of_none hc, evalWith_of_none hc]
    cases q with
    | none => exact told_giveWait .lead s
    | some q => exact told_giveOffer q s
  · rw [verdict_of_fails rfl hc, evalWith_of_fails rfl hc]
    exact told_giveWait _ s

theorem notice_evalWith (c : StrokeClass) (q : Option Stroke) (s : State) :
    (evalWith c q s).notice = s.notice := by
  by_cases hc : precondition s c = .none
  · rw [evalWith_of_none hc]
    cases q with
    | none => rfl
    | some q => exact notice_giveOffer q s
  · rw [evalWith_of_fails rfl hc]
    rfl

/-- The stroke that each class chooses with its preconditions passed (R92, R99, R100). -/
def strokeFor (s : State) (r : StagedRec) (h : Int) : StrokeClass → Option Stroke
  | .contact => some (contactStroke s)
  | .raising => chooseStroke s r h (distance s r h) (leadCeiling s r - h) .raise
  | .lowering => chooseStroke s r h (distance s r h) (h - leadFloor s r) .lower
  | .nudge => if nudgeFits s (h + nudgeLength s) then some (nudgeStroke s r h) else none

/-- What the ceiling unit reads in an evaluation at REST: the group, the pawl, the last stroke and the lowering
release (R94 to R96). -/
structure Reads (s x : State) : Prop where
  seen : SeenAlike s x
  pawl : x.pawl.state = s.pawl.state
  lastDir : x.engine.lastDir = s.engine.lastDir
  lastEnd : x.engine.lastEnd = s.engine.lastEnd
  timeBase : x.timeBase = s.timeBase
  release : x.ceiling.release = true ∨ loweringReady s = true ↔
    s.ceiling.release = true ∨ loweringReady s = true

section
variable (k : Reads s x)
include k

theorem Reads.precondition (c : StrokeClass) : precondition x c = precondition s c := by
  have hpeers : peersPass x c = peersPass s c := Bool.eq_iff_iff.mpr (by
    rw [peersPass_iff_groupReady, peersPass_iff_groupReady, k.seen.standAlike.groupReady, k.seen.loweringReady,
      k.release])
  have hdwell : dwellPass x c = dwellPass s c := by
    unfold dwellPass
    rw [k.lastDir, k.lastEnd, k.timeBase, k.seen.cfg]
  unfold Machine.precondition
  rw [hpeers, hdwell, k.pawl]

theorem Reads.nudgeLength : nudgeLength x = nudgeLength s := by
  unfold Machine.nudgeLength
  rw [k.seen.cfg, k.seen.travel]

theorem Reads.distance (r : StagedRec) (h : Int) : distance x r h = distance s r h := by
  unfold Machine.distance
  rw [k.seen.stage]

theorem Reads.chooseStroke (r : StagedRec) (h d g : Int) (dir : Direction) :
    chooseStroke x r h d g dir = chooseStroke s r h d g dir := by
  unfold Machine.chooseStroke towardTarget isFinal
  rw [k.seen.cfg, k.seen.settings]

theorem Reads.strokeFor (r : StagedRec) (h : Int) (c : StrokeClass) : strokeFor x r h c = strokeFor s r h c := by
  cases c with
  | contact =>
    show some (contactStroke x) = some (contactStroke s)
    unfold contactStroke
    rw [k.seen.cfg, k.seen.travel]
  | raising =>
    show Machine.chooseStroke x .. = Machine.chooseStroke s ..
    rw [k.chooseStroke, k.distance, k.seen.leadCeiling]
  | lowering =>
    show Machine.chooseStroke x .. = Machine.chooseStroke s ..
    rw [k.chooseStroke, k.distance, k.seen.leadFloor]
  | nudge =>
    show (if _ then some (nudgeStroke x r h) else none) = if _ then some (nudgeStroke s r h) else none
    unfold nudgeStroke
    rw [k.seen.nudgeFits, k.nudgeLength]

theorem Reads.verdict (c : StrokeClass) (q : Option Stroke) : verdict x c q = verdict s c q := by
  unfold Machine.verdict
  rw [k.precondition]

end

/-! ### The evaluation of a staged station at REST (R90, R91) -/

/-- The class that a staged station evaluates (R91, R97). -/
def classNow (s : State) : StrokeClass :=
  if s.stage.dir = .lower then if s.ceiling.nudgeDue then .nudge else .lowering else .raising

/-- The pawl is asked to be withdrawn (R101). -/
def Asks (s : State) : Prop := classNow s = .lowering ∧ s.pawl.state = .set ∧ GroupReady s

/-- A nudge of length 0 is skipped (R99). -/
def Skips (s : State) : Prop := classNow s = .nudge ∧ precondition s .nudge = .none ∧ nudgeLength s = 0

/-- The nudge is no longer due, and the lowering class is evaluated with the release it may now have (R95, R99). -/
def nudgeSkipped (s : State) : State :=
  markRelease (notify { s with ceiling := { s.ceiling with nudgeDue := false } })

theorem mayAskWithdraw_iff (s : State) : mayAskWithdraw s = true ↔ s.pawl.state = .set ∧ GroupReady s := by
  unfold mayAskWithdraw GroupReady
  simp only [Bool.and_eq_true, beq_iff_eq, Bool.not_eq_true', and_assoc]

theorem evalLower_eq (r : StagedRec) (h : Int) (s : State) :
    evalLower r h s =
      if mayAskWithdraw s = true then pawlWithdraw (evalWith .lowering (strokeFor s r h .lowering) s)
      else evalWith .lowering (strokeFor s r h .lowering) s := rfl

theorem evalNudge_eq (r : StagedRec) (h : Int) (s : State) :
    evalNudge r h s =
      if precondition s .nudge = .none ∧ nudgeLength s = 0 then evalLower r h (nudgeSkipped s)
      else evalWith .nudge (strokeFor s r h .nudge) s := by
  by_cases hc : precondition s .nudge = .none
  · have hpassed : evalNudge r h s =
        if nudgeLength s = 0 then evalLower r h (nudgeSkipped s)
        else if nudgeFits s (h + nudgeLength s) then giveOffer (nudgeStroke s r h) s else giveWait .lead s := by
      unfold evalNudge
      rw [hc]
      rfl
    have hchosen : offerOrLead (strokeFor s r h .nudge) s =
        if nudgeFits s (h + nudgeLength s) then giveOffer (nudgeStroke s r h) s else giveWait .lead s := by
      unfold strokeFor
      simp only []
      split <;> rfl
    rw [hpassed, evalWith_of_none hc, hchosen]
    simp only [hc, true_and]
  · rw [if_neg fun hn => hc hn.1, evalWith_of_fails rfl hc]
    unfold evalNudge
    split
    · exact absurd ‹_› hc
    · rfl

theorem evalAtRest_arrived (hr : s.stagedRec = some r) (hl : s.lift = some h)
    (ha : countsArrived (markRelease s) r h = true) : evalAtRest s = giveArrived (markRelease s) := by
  unfold evalAtRest
  rw [hr, hl]
  exact if_pos ha

theorem evalAtRest_class (hr : s.stagedRec = some r) (hl : s.lift = some h)
    (ha : countsArrived (markRelease s) r h = false) :
    evalAtRest s =
      match classNow (markRelease s) with
      | .nudge => evalNudge r h (markRelease s)
      | .lowering => evalLower r h (markRelease s)
      | c => evalWith c (strokeFor (markRelease s) r h c) (markRelease s) := by
  unfold evalAtRest classNow
  rw [hr, hl]
  simp only [ha, Bool.false_eq_true, if_false]
  cases (markRelease s).stage.dir with
  | lower => cases (markRelease s).ceiling.nudgeDue <;> rfl
  | _ => rfl

/-- With no pawl to ask for and no nudge to skip, an evaluation gives its class's verdict and sends no notice. -/
theorem evalAtRest_verdict (hr : s.stagedRec = some r) (hl : s.lift = some h)
    (ha : countsArrived (markRelease s) r h = false) (hask : ¬ Asks (markRelease s))
    (hskip : ¬ Skips (markRelease s)) :
    evalAtRest s =
      evalWith (classNow (markRelease s)) (strokeFor (markRelease s) r h (classNow (markRelease s)))
        (markRelease s) := by
  rw [evalAtRest_class hr hl ha]
  split
  · rename_i hc
    rw [hc, evalNudge_eq, if_neg fun hn => hskip ⟨hc, hn⟩]
  · rename_i hc
    rw [hc, evalLower_eq, if_neg fun hn => hask ⟨hc, (mayAskWithdraw_iff _).mp hn⟩]
  · rfl

/-! ### The pawl request (R101) -/

/-- What a lowering station waits for while its pawl is not WITHDRAWN: the peers, unless it is released (R94, R96). -/
def askReason (s : State) : WaitReason := if s.ceiling.release then .pawl else .peers

theorem askReason_ne (s : State) : askReason s ≠ .none := by
  unfold askReason
  split <;> exact nofun

theorem precondition_askReason (hg : GroupReady s) (hp : s.pawl.state ≠ .withdrawn) :
    precondition s .lowering = askReason s := by
  have hpeers := peersPass_iff_groupReady s .lowering
  rw [loweringReady_of_pawl hp] at hpeers
  unfold askReason
  cases hr : s.ceiling.release with
  | true => exact precondition_pawl (hpeers.mpr ⟨hg, fun _ => .inl hr⟩) hp
  | false =>
    refine precondition_peers (Bool.eq_false_iff.mpr fun hpass => ?_)
    have := (hpeers.mp hpass).2 rfl
    rw [hr] at this
    simp at this

/-- A lowering station whose pawl is not WITHDRAWN waits for it, and asks for it where it is SET (R94, R96, R101). -/
theorem evalLower_asks (hg : GroupReady s) (hp : s.pawl.state ≠ .withdrawn) (r : StagedRec) (h : Int) :
    evalLower r h s =
      if s.pawl.state = .set then pawlWithdraw (giveWait (askReason s) s) else giveWait (askReason s) s := by
  rw [evalLower_eq, evalWith_of_fails (precondition_askReason hg hp) (askReason_ne s)]
  simp only [mayAskWithdraw_iff, hg, and_true]

theorem markRelease_of_pawl (hp : s.pawl.state ≠ .withdrawn) : markRelease s = s :=
  if_neg fun hc => by
    rw [loweringReady_of_pawl hp] at hc
    cases hc.2.2

/-- At REST, a report of any state but WITHDRAWN tells of the pawl, and may end a jog (R139, R147). -/
theorem reportPawl_eq {p : PawlState} (hp : p ≠ .withdrawn) (hrest : s.engine.stroke = .rest) :
    ∃ line engine pawl,
      reportPawl p s = { s with line := line, engine := engine, pawl := pawl, notice := true } ∧
        engine.stroke = .rest ∧ engine.travel = s.engine.travel := by
  obtain ⟨a, b, hpose⟩ := requestPose_eq (notify { s with pawl := { s.pawl with state := p } })
  have hreport : reportPawl p s =
      engineOnPawl p (causeOfWithdrawal (requestPose (notify { s with pawl := { s.pawl with state := p } }))) :=
    if_neg hp
  rw [hreport, hpose, causeOfWithdrawal_of_rest (by exact hrest)]
  unfold engineOnPawl
  rw [if_neg hp, cutStroke_of_rest (by exact hrest)]
  simp only []
  split <;> exact ⟨_, _, _, rfl, hrest, rfl⟩

/-- In MOVING a withdraw command to a pawl that is SET is carried out (R143). -/
theorem pawlWithdraw_of_set (hm : s.mode = .moving) (hp : s.pawl.state = .set) :
    pawlWithdraw s = reportPawl .withdrawing (armPawlLimit (commandPawl .withdrawn s)) := by
  have hpermit : withdrawPermitted s = true := by
    unfold withdrawPermitted
    rw [hm]
    rfl
  unfold pawlWithdraw
  rw [if_pos hpermit, hp]

/-- What a pawl request writes, the wait given before it included (R101). -/
theorem asked_eq (hm : s.mode = .moving) (hrest : s.engine.stroke = .rest) (hp : s.pawl.state = .set)
    (w : WaitReason) :
    ∃ line engine pawl, pawlWithdraw (giveWait w s) =
        { giveWait w s with line := line, engine := engine, pawl := pawl, notice := true } ∧
      engine.stroke = .rest ∧ engine.travel = s.engine.travel := by
  rw [pawlWithdraw_of_set (s := giveWait w s) hm hp]
  exact reportPawl_eq (s := armPawlLimit (commandPawl .withdrawn (giveWait w s))) nofun hrest

/-- The pawl asked for goes to WITHDRAWING, and no jog in DOWN takes the command back (R139, R143). -/
theorem pawl_pawlWithdraw_of_set (hm : s.mode = .moving) (hp : s.pawl.state = .set) :
    (pawlWithdraw s).pawl.state = .withdrawing ∧
      (s.engine.jog ≠ .down → (pawlWithdraw s).pawl.commanded = .withdrawn) := by
  rw [pawlWithdraw_of_set hm hp]
  refine ⟨pawlState_reportPawl .withdrawing _, fun hj => ?_⟩
  rw [pawl_reportPawl, if_neg fun hc => hj hc.2]
  rfl

/-! ### The two rounds of a pawl request (R87, R101) -/

/-- A lowering station at REST in MOVING, in band and not arrived, with its peers ready and no nudge due. -/
structure Lowers (r : StagedRec) (h : Int) (s : State) : Prop where
  moving : StaysMoving s
  rest : s.engine.stroke = .rest
  record : s.stagedRec = some r
  lift : s.lift = some h
  far : countsArrived s r h = false
  dir : s.stage.dir = .lower
  nudge : s.ceiling.nudgeDue = false
  ready : GroupReady s

/-- A lowering station whose pawl is off SET and not WITHDRAWN waits, and tells nobody. -/
theorem Lowers.evalAtRest_waits (k : Lowers r h s) (hp : s.pawl.state = .withdrawing) :
    evalAtRest s = giveWait (askReason s) s := by
  have hoff : s.pawl.state ≠ .withdrawn := by rw [hp]; exact nofun
  have hmark := markRelease_of_pawl hoff
  have hclass : classNow s = .lowering := by
    unfold classNow
    rw [if_pos k.dir, k.nudge]
    rfl
  rw [evalAtRest_class k.record k.lift (by rw [hmark]; exact k.far), hmark, hclass]
  show evalLower r h s = _
  rw [evalLower_asks k.ready hoff, if_neg (by rw [hp]; exact nofun)]

theorem Lowers.keep (k : Lowers r h s) (hmoving : StaysMoving t) (hrest : t.engine.stroke = .rest)
    (hstage : t.stage = s.stage) (htravel : t.engine.travel = s.engine.travel) (hcfg : t.cfg = s.cfg)
    (hnudge : t.ceiling.nudgeDue = s.ceiling.nudgeDue) (hstand : StandAlike s t) : Lowers r h t where
  moving := hmoving
  rest := hrest
  record := by
    unfold State.stagedRec
    rw [hstage]
    exact k.record
  lift := (lift_of_record (by rw [hstage]) htravel).trans k.lift
  far := by
    unfold countsArrived distance
    rw [hstage, hcfg]
    exact k.far
  dir := (congrArg StageCtl.dir hstage).trans k.dir
  nudge := hnudge.trans k.nudge
  ready := hstand.groupReady.mpr k.ready

/-- A share evaluation in band keeps all that a lowering station stands on. -/
theorem Lowers.shared (k : Lowers r h s) : Lowers r h (shareEval s) := by
  have hseen := seenAlike_shareEval k.moving.band
  obtain ⟨hinner, -, -⟩ := inner_shareEval_inBand k.moving.band
  exact k.keep (k.moving.of_evaluates (evaluates_shareEval k.moving.band))
    ((congrArg (fun i => i.engine.stroke) hinner).trans k.rest) hseen.stage hseen.travel hseen.cfg
    (congrArg Inner.nudgeDue hinner) hseen.standAlike

/-- The pawl request keeps it too (R101). -/
theorem Lowers.asked (k : Lowers r h s) (hp : s.pawl.state = .set) (w : WaitReason) :
    Lowers r h (clearNotice (pawlWithdraw (giveWait w s))) := by
  have hmoving : StaysMoving (pawlWithdraw (giveWait w s)) :=
    k.moving.of_evaluates ((evaluates_giveWait w s).trans (evaluates_pawlWithdraw (s := giveWait w s) hp))
  obtain ⟨line, engine, pawl, heq, hstroke, htravel⟩ := asked_eq k.moving.mode k.rest hp w
  rw [heq] at hmoving ⊢
  exact k.keep { hmoving with } hstroke rfl htravel rfl rfl (standAlike_of_self rfl rfl rfl rfl)

theorem readers_of_rest (k : StaysMoving s) (hrest : s.engine.stroke = .rest) :
    readers s = evalAtRest (shareEval s) := by
  obtain ⟨hinner, -, -⟩ := inner_shareEval_inBand k.band
  have hmode : (shareEval s).mode = .moving := (congrArg Inner.mode hinner).trans k.mode
  have hstroke : (shareEval s).engine.stroke = .rest := (congrArg (fun i => i.engine.stroke) hinner).trans hrest
  rw [readers_of_staysMoving k]
  unfold evaluate
  rw [if_pos hmode, hstroke]

/-- The round after a pawl request gives the same wait, and the pawl goes on as it was asked (R87, R101). -/
theorem Lowers.settle_asked (k : Lowers r h s) (hp : s.pawl.state = .set) (n : Nat) :
    let e := pawlWithdraw (giveWait (askReason s) s)
    Told .wait (askReason s) s (settle (n + 1) e) ∧ (settle (n + 1) e).pawl = e.pawl ∧
      (settle (n + 1) e).ceiling.nudgeDue = false := by
  have hnext := k.asked hp (askReason s)
  have hpawl := (pawl_pawlWithdraw_of_set (s := giveWait (askReason s) s) k.moving.mode hp).1
  obtain ⟨line, engine, pawl, heq, -, -⟩ := asked_eq k.moving.mode k.rest hp (askReason s)
  intro e
  have he : e = _ := heq
  have hcleared : Told .wait (askReason s) s (clearNotice e) := by
    rw [he]
    exact (told_giveWait (askReason s) s).congr rfl rfl rfl rfl
  obtain ⟨loadMon, faults, hshare⟩ := shareEval_inBand_eq hnext.moving.band
  have hround : readers (clearNotice e) = giveWait (askReason s) (shareEval (clearNotice e)) := by
    have hsame : askReason (shareEval (clearNotice e)) = askReason s := by
      unfold askReason
      rw [hshare]
      exact congrArg (fun b : Bool => if b then WaitReason.pawl else .peers) hcleared.release
    rw [readers_of_rest hnext.moving hnext.rest,
      hnext.shared.evalAtRest_waits (by rw [hshare]; exact hpawl), hsame]
  have hend : settle (n + 1) e = giveWait (askReason s) (shareEval (clearNotice e)) := by
    rw [settle_succ, if_pos (by rw [he]), hround, settle_still _ (by rw [hshare]; rfl)]
  have hview : (shareEval (clearNotice e)).waitView = (clearNotice e).waitView := by rw [hshare]; rfl
  rw [hend]
  refine ⟨hcleared.again (askReason_ne s) ((told_giveWait _ _).of_view hview (by rw [hshare])), ?_, ?_⟩
  · rw [hshare]
    rfl
  · exact hnext.shared.nudge

/-- A lowering station that asks for its pawl settles to the wait, the pawl on its way (R101). -/
theorem Lowers.settle_evalLower (k : Lowers r h s) (hp : s.pawl.state = .set) :
    let t := settle 11 (evalLower r h s)
    Told .wait (askReason s) s t ∧ t.pawl.state = .withdrawing ∧
      (s.engine.jog ≠ .down → t.pawl.commanded = .withdrawn) ∧ t.ceiling.nudgeDue = false := by
  obtain ⟨htold, hsame, hnudge⟩ := k.settle_asked hp 10
  obtain ⟨hstate, hcommand⟩ := pawl_pawlWithdraw_of_set (s := giveWait (askReason s) s) k.moving.mode hp
  rw [evalLower_asks k.ready (by rw [hp]; exact nofun), if_pos hp]
  refine ⟨htold, ?_, fun hj => ?_, hnudge⟩
  · rw [hsame]
    exact hstate
  · rw [hsame]
    exact hcommand hj

/-! ### The round that the expiry begins (R87, R95) -/

/-- The lowering-release flag as an evaluation leaves it (R95). -/
def releaseNow (s : State) : Bool :=
  s.ceiling.release || (s.stage.dir == .lower && !s.ceiling.nudgeDue && loweringReady s)

theorem markRelease_eq (s : State) :
    markRelease s = { s with ceiling := { s.ceiling with release := releaseNow s } } := by
  unfold markRelease releaseNow
  split
  · rename_i hc
    simp [hc]
  · rename_i hc
    have hno : (s.stage.dir == .lower && !s.ceiling.nudgeDue && loweringReady s) = false := by
      simpa [and_assoc] using hc
    rw [hno, Bool.or_false]

theorem releaseNow_of_pawl (hp : s.pawl.state ≠ .withdrawn) : releaseNow s = s.ceiling.release := by
  unfold releaseNow
  rw [loweringReady_of_pawl hp, Bool.and_false, Bool.or_false]

/-- The dwell compare disarmed (R121). -/
def dwellOver (s : State) : State := { s with engine := { s.engine with dwell := none } }

/-- What an evaluation finds that the expiry's notice begins in MOVING, in band, the release marked or not. -/
structure Begun (s m : State) : Prop where
  seen : SeenAlike s m
  moving : StaysMoving m
  engine : m.engine = { s.engine with dwell := none }
  pawl : m.pawl = s.pawl
  nudgeDue : m.ceiling.nudgeDue = s.ceiling.nudgeDue
  waitView : m.waitView = s.waitView
  release : m.ceiling.release = s.ceiling.release ∨ m.ceiling.release = releaseNow s
  notice : m.notice = false

/-- The state that the ceiling unit evaluates in the round that the expiry begins. -/
def dwellRound (s : State) : State := shareEval (clearNotice (notify (dwellOver s)))

theorem seenAlike_dwellRound (k : StaysMoving s) : SeenAlike s (dwellRound s) := by
  have hmoving : StaysMoving (clearNotice (notify (dwellOver s))) := { k with }
  have hseen : SeenAlike s (clearNotice (notify (dwellOver s))) := ⟨rfl, rfl, rfl, rfl, rfl, rfl, rfl, rfl⟩
  exact hseen.trans (seenAlike_shareEval hmoving.band)

theorem dwellRound_eq (hnow : outOfBand (shareOf (clearNotice (notify (dwellOver s)))) = false) :
    ∃ loadMon faults, dwellRound s =
      { dwellOver s with notice := false, loadMon := loadMon, faults := faults } :=
  shareEval_inBand_eq hnow

theorem begun_dwellRound (k : StaysMoving s) : Begun s (dwellRound s) := by
  have hmoving : StaysMoving (clearNotice (notify (dwellOver s))) := { k with }
  have hseen := seenAlike_dwellRound k
  have hstays : StaysMoving (dwellRound s) := hmoving.of_evaluates (evaluates_shareEval hmoving.band)
  obtain ⟨loadMon, faults, heq⟩ := dwellRound_eq hmoving.band
  rw [heq] at hseen hstays ⊢
  exact ⟨hseen, hstays, rfl, rfl, rfl, rfl, .inl rfl, rfl⟩

theorem release_dwellRound (k : StaysMoving s) : (dwellRound s).ceiling.release = s.ceiling.release := by
  obtain ⟨loadMon, faults, heq⟩ := dwellRound_eq (s := s) k.band
  rw [heq]
  rfl

/-- Marking the release changes nothing else (R95). -/
theorem begun_markRelease (k : StaysMoving s) :
    Begun s (markRelease (dwellRound s)) ∧ (markRelease (dwellRound s)).ceiling.release = releaseNow s := by
  have b := begun_dwellRound k
  have hrelease : releaseNow (dwellRound s) = releaseNow s := by
    unfold releaseNow
    rw [release_dwellRound k, b.nudgeDue, b.seen.stage, b.seen.loweringReady]
  rw [markRelease_eq, hrelease]
  exact ⟨⟨b.seen.trans ⟨rfl, rfl, rfl, rfl, rfl, rfl, rfl, rfl⟩, { b.moving with }, b.engine, b.pawl, b.nudgeDue,
    b.waitView, .inr rfl, b.notice⟩, rfl⟩

/-- The round that the expiry begins at REST. -/
theorem settle_dwell (k : StaysMoving s) (hrest : s.engine.stroke = .rest) :
    settle settleRounds (notify (dwellOver s)) = settle 11 (evalAtRest (dwellRound s)) := by
  have hmoving : StaysMoving (clearNotice (notify (dwellOver s))) := { k with }
  have hround := readers_of_rest hmoving hrest
  rw [settleRounds, settle_succ, hround]
  rfl

section
variable {m : State} (k : Begun s m)
include k

theorem Begun.reads : Reads s m where
  seen := k.seen
  pawl := by rw [k.pawl]
  lastDir := by rw [k.engine]
  lastEnd := by rw [k.engine]
  timeBase := congrArg Prod.fst k.waitView
  release := by
    rcases k.release with hr | hr
    · rw [hr]
    · rw [hr]
      unfold releaseNow
      simp only [Bool.or_eq_true, Bool.and_eq_true]
      tauto

theorem Begun.classNow : classNow m = classNow s := by
  unfold Machine.classNow
  rw [k.seen.stage, k.nudgeDue]

theorem Begun.countsArrived (r : StagedRec) (h : Int) : countsArrived m r h = countsArrived s r h := by
  unfold Machine.countsArrived Machine.distance
  rw [k.seen.stage, k.seen.cfg]

theorem Begun.asks : Asks m ↔ Asks s := by
  unfold Asks
  rw [k.classNow, k.pawl, k.seen.standAlike.groupReady]

theorem Begun.skips : Skips m ↔ Skips s := by
  unfold Skips
  rw [k.classNow, k.reads.precondition, k.reads.nudgeLength]

end

/-! ### What the expiry gives a staged station (R90 to R92, R97 to R101) -/

/-- What an evaluation gives at the end of a command: as `Told`, with the lowering release marked (R95). -/
def DwellTold (o : CeilOutcome) (w : WaitReason) (s t : State) : Prop :=
  Told o w { s with ceiling := { s.ceiling with release := releaseNow s } } t

theorem Begun.told {m : State} (k : Begun s m) (hr : m.ceiling.release = releaseNow s) (ht : Told o w m t) :
    DwellTold o w s t :=
  ht.of_view k.waitView hr

/-- A staged station in MOVING at REST, in band, with no arrival waiting. -/
structure StagedAtRest (r : StagedRec) (h : Int) (s : State) : Prop where
  moving : StaysMoving s
  rest : s.engine.stroke = .rest
  record : s.stagedRec = some r
  lift : s.lift = some h

section
variable (k : StagedAtRest r h s)
include k

theorem StagedAtRest.settle_arrived (ha : countsArrived s r h = true) :
    DwellTold .arrived .none s (settle settleRounds (notify (dwellOver s))) := by
  have hseen := seenAlike_dwellRound k.moving
  obtain ⟨hbegun, hmarked⟩ := begun_markRelease k.moving
  rw [settle_dwell k.moving k.rest, evalAtRest_arrived (hseen.stagedRec.trans k.record) (hseen.lift.trans k.lift)
    ((hbegun.countsArrived r h).trans ha), settle_still _ (by exact hbegun.notice)]
  exact hbegun.told hmarked (told_giveArrived _)

theorem StagedAtRest.settle_verdict (ha : countsArrived s r h = false) (hask : ¬ Asks s) (hskip : ¬ Skips s) :
    let v := verdict s (classNow s) (strokeFor s r h (classNow s))
    DwellTold v.1 v.2 s (settle settleRounds (notify (dwellOver s))) := by
  have hseen := seenAlike_dwellRound k.moving
  obtain ⟨hbegun, hmarked⟩ := begun_markRelease k.moving
  rw [settle_dwell k.moving k.rest, evalAtRest_verdict (hseen.stagedRec.trans k.record) (hseen.lift.trans k.lift)
      ((hbegun.countsArrived r h).trans ha) (mt hbegun.asks.mp hask) (mt hbegun.skips.mp hskip),
    settle_still _ ((notice_evalWith ..).trans hbegun.notice), hbegun.classNow, hbegun.reads.strokeFor]
  have htold := hbegun.told hmarked (told_evalWith (classNow s) (strokeFor s r h (classNow s)) _)
  rw [hbegun.reads.verdict] at htold
  exact htold

/-- A far lowering station with no nudge due and its peers ready lowers (R101). -/
theorem StagedAtRest.lowers (hfar : countsArrived s r h = false) (hdir : s.stage.dir = .lower)
    (hnudge : s.ceiling.nudgeDue = false) (hg : GroupReady s) : Lowers r h s :=
  ⟨k.moving, k.rest, k.record, k.lift, hfar, hdir, hnudge, hg⟩

end

theorem dir_of_classNow (hc : classNow s ≠ .raising) : s.stage.dir = .lower := by
  by_contra hd
  exact hc (if_neg hd)

theorem nudgeDue_of_classNow (hd : s.stage.dir = .lower) :
    s.ceiling.nudgeDue = decide (classNow s = .nudge) := by
  unfold classNow
  rw [if_pos hd]
  cases s.ceiling.nudgeDue <;> rfl

theorem groupReady_of_precondition (hc : precondition s c = .none) : GroupReady s := by
  have hpass : peersPass s c = true := by
    by_contra hno
    rw [precondition_peers (Bool.eq_false_iff.mpr hno)] at hc
    cases hc
  exact ((peersPass_iff_groupReady s c).mp hpass).1

/-- A station that asks for its pawl, at once or past a nudge of length 0, has it SET and its peers ready. -/
theorem pawl_of_asks_or_skips (hask : Asks s ∨ Skips s) : s.pawl.state = .set ∧ GroupReady s := by
  rcases hask with ⟨-, hp, hg⟩ | ⟨-, hc, -⟩
  · exact ⟨hp, hg⟩
  · exact ⟨pawl_of_precondition hc, groupReady_of_precondition hc⟩

theorem Begun.stagedAtRest {m : State} (b : Begun s m) (k : StagedAtRest r h s) : StagedAtRest r h m where
  moving := b.moving
  rest := by rw [b.engine]; exact k.rest
  record := b.seen.stagedRec.trans k.record
  lift := b.seen.lift.trans k.lift

/-- The state in which the lowering class is evaluated that asks for the pawl: a nudge of length 0 is skipped first. -/
theorem evalAtRest_asks (k : StagedAtRest r h s) (ha : countsArrived s r h = false) (hask : Asks s ∨ Skips s) :
    ∃ x, evalAtRest (dwellRound s) = evalLower r h x ∧ Lowers r h x ∧ x.pawl = s.pawl ∧
      x.engine = { s.engine with dwell := none } ∧ x.waitView = s.waitView ∧
      x.ceiling.release = releaseNow s := by
  have hseen := seenAlike_dwellRound k.moving
  obtain ⟨hbegun, hmarked⟩ := begun_markRelease k.moving
  have hstaged := hbegun.stagedAtRest k
  have hfar := (hbegun.countsArrived r h).trans ha
  have hclass := evalAtRest_class (hseen.stagedRec.trans k.record) (hseen.lift.trans k.lift) hfar
  obtain ⟨hp, hg⟩ := pawl_of_asks_or_skips hask
  have hready := hbegun.seen.standAlike.groupReady.mpr hg
  rcases hask with hask | hskip
  · have hnow := (hbegun.asks.mpr hask).1
    have hdir := dir_of_classNow (by rw [hnow]; exact nofun)
    rw [hnow] at hclass
    refine ⟨_, hclass, hstaged.lowers hfar hdir ?_ hready, hbegun.pawl, hbegun.engine, hbegun.waitView, hmarked⟩
    rw [nudgeDue_of_classNow hdir, hnow]
    rfl
  · obtain ⟨hnow, hc, hlen⟩ := hbegun.skips.mpr hskip
    have hdir := dir_of_classNow (by rw [hnow]; exact nofun)
    rw [hnow] at hclass
    generalize markRelease (dwellRound s) = m at *
    have hskipped : nudgeSkipped m = notify { m with ceiling := { m.ceiling with nudgeDue := false } } :=
      markRelease_of_pawl (by
        show m.pawl.state ≠ _
        rw [hbegun.pawl, hp]
        exact nofun)
    refine ⟨_, hclass.trans ((evalNudge_eq r h m).trans (if_pos ⟨hc, hlen⟩)), ?_⟩
    rw [hskipped]
    refine ⟨StagedAtRest.lowers { hstaged with moving := { hstaged.moving with } } hfar hdir rfl ?_, hbegun.pawl,
      hbegun.engine, hbegun.waitView, hmarked⟩
    exact hready

theorem StagedAtRest.settle_asks (k : StagedAtRest r h s) (ha : countsArrived s r h = false)
    (hask : Asks s ∨ Skips s) :
    let t := settle settleRounds (notify (dwellOver s))
    DwellTold .wait (askReason s) s t ∧ t.pawl.state = .withdrawing ∧
      (s.engine.jog ≠ .down → t.pawl.commanded = .withdrawn) ∧ t.ceiling.nudgeDue = false := by
  have hp := (pawl_of_asks_or_skips hask).1
  obtain ⟨x, heval, hx, hpawl, hengine, hview, hrelease⟩ := evalAtRest_asks k ha hask
  have hsame : releaseNow s = s.ceiling.release := releaseNow_of_pawl (by rw [hp]; exact nofun)
  have hreason : askReason x = askReason s := by
    unfold askReason
    rw [hrelease, hsame]
  obtain ⟨htold, hstate, hcommand, hnudge⟩ := hx.settle_evalLower (by rw [hpawl]; exact hp)
  rw [hengine] at hcommand
  rw [hreason] at htold
  rw [settle_dwell k.moving k.rest, heval]
  exact ⟨htold.of_view hview hrelease, hstate, hcommand, hnudge⟩

/-! ### What the expiry gives a station taking up (R100) -/

theorem evalAtRest_takeUp (hr : s.stage.record = .unstaged) : evalAtRest s = evalTakeUp s := by
  have hnone : s.stagedRec = none := by unfold State.stagedRec; rw [hr]
  unfold evalAtRest
  rw [hnone]

theorem evalTakeUp_room (hroom : s.engine.travel < 240000) :
    evalTakeUp s = evalWith .contact (some (contactStroke s)) s :=
  if_neg (Nat.not_le.mpr hroom)

theorem settle_takeUp (k : StaysMoving s) (hrest : s.engine.stroke = .rest) (hr : s.stage.record = .unstaged)
    (hroom : s.engine.travel < 240000) :
    let v := verdict s .contact (some (contactStroke s))
    Told v.1 v.2 s (settle settleRounds (notify (dwellOver s))) := by
  have hbegun := begun_dwellRound k
  have hstroke : contactStroke (dwellRound s) = contactStroke s := by
    unfold contactStroke
    rw [hbegun.seen.cfg, hbegun.seen.travel]
  have hround : evalAtRest (dwellRound s) =
      evalWith .contact (some (contactStroke s)) (dwellRound s) := by
    rw [evalAtRest_takeUp (by rw [hbegun.seen.stage]; exact hr),
      evalTakeUp_room (by rw [hbegun.seen.travel]; exact hroom), hstroke]
  have htold := told_evalWith .contact (some (contactStroke s)) (dwellRound s)
  rw [hbegun.reads.verdict] at htold
  rw [settle_dwell k hrest, hround, settle_still _ ((notice_evalWith ..).trans hbegun.notice)]
  exact htold.of_view hbegun.waitView (release_dwellRound k)

/-- Outside MOVING and SETTLED the ceiling unit goes IDLE in the one round that a notice takes (R86). -/
theorem ceilingIdle_settle (n : Nat) (hq : Quiet s) (hn : s.notice = true) : CeilingIdle (settle (n + 1) s) := by
  have hquiet : Quiet (clearNotice s) := hq
  have hq' : Quiet (shareEval (clearNotice s)) :=
    quiet_of_eq (s := s) (congrArg Inner.mode (inner_shareEval hquiet).1) hq
  have hround : readers (clearNotice s) = ceilingIdle (shareEval (clearNotice s)) := by
    unfold readers evaluate
    rw [awaitTest_quiet hq', restTest_quiet hq', if_neg hq'.1]
  rw [settle_succ, if_pos hn, settle_still _ (readers_quiet hquiet).2, hround]
  exact ⟨rfl, rfl⟩

theorem readers_dwell_takeUp (hm : s.mode = .moving) (ha : s.stage.awaitingSet = false)
    (hrest : s.engine.stroke = .rest) (hr : s.stage.record = .unstaged) :
    readers (clearNotice (notify (dwellOver s))) = evalTakeUp (dwellRound s) := by
  obtain ⟨loadMon, faults, heq⟩ := dwellRound_eq (takingUp (v := clearNotice (notify (dwellOver s))) hr).1
  have hmode : (dwellRound s).mode = .moving := by rw [heq]; exact hm
  have hstage : (dwellRound s).stage = s.stage := by rw [heq]; rfl
  have hstroke : (dwellRound s).engine.stroke = .rest := by rw [heq]; exact hrest
  have hawait : awaitTest (dwellRound s) = dwellRound s := if_neg fun hc => by
    rw [hstage, ha] at hc
    cases hc.1
  show evaluate (restTest (awaitTest (dwellRound s))) = _
  rw [hawait, restTest_of_moving hmode, ← evalAtRest_takeUp (by rw [hstage]; exact hr)]
  unfold evaluate
  rw [if_pos hmode, hstroke]

/-- A station taking up at the top of the screw's travel reports TRAVEL_LIMIT and holds (R100, R175). -/
theorem settle_limit (hm : s.mode = .moving) (ha : s.stage.awaitingSet = false) (hrest : s.engine.stroke = .rest)
    (hr : s.stage.record = .unstaged) (htop : 240000 ≤ s.engine.travel) :
    let t := settle settleRounds (notify (dwellOver s))
    t.mode = .hold ∧ CeilingIdle t ∧
      t.fault .travelLimit = recordAfter s .travelLimit (s.active .travelLimit) none ∧
      t.modeCtl.lastStop = some ⟨.hold, .fault, some .travelLimit, none, ⟨s.timeBase, false⟩⟩ := by
  obtain ⟨loadMon, faults, heq⟩ := dwellRound_eq (takingUp (v := clearNotice (notify (dwellOver s))) hr).1
  have hkept : (dwellRound s).fault .travelLimit = s.fault .travelLimit :=
    fault_shareEval (by decide) (clearNotice (notify (dwellOver s)))
  have hsettle : settle settleRounds (notify (dwellOver s)) =
      settle 11 (report .travelLimit none (giveWait .lead (dwellRound s))) := by
    have hlimit : evalTakeUp (dwellRound s) = report .travelLimit none (giveWait .lead (dwellRound s)) :=
      if_pos (by rw [heq]; exact htop)
    rw [← hlimit, ← readers_dwell_takeUp hm ha hrest hr]
    rfl
  have hmoving : (giveWait .lead (dwellRound s)).mode = .moving := by rw [heq]; exact hm
  have hhold : (report .travelLimit none (giveWait .lead (dwellRound s))).mode = .hold :=
    (mode_holdReport rfl none _).trans (if_pos hmoving)
  have hend := settlesAtRest_settle 11 (s := report .travelLimit none (giveWait .lead (dwellRound s)))
    (by rw [hhold]; exact nofun)
  rw [hsettle]
  refine ⟨?_, ceilingIdle_settle 10 ?_ (notice_holdReport rfl none hmoving), ?_, ?_⟩
  · rcases hend.mode with hmode | ⟨hmode, -⟩
    · exact hmode.trans hhold
    · rw [hhold] at hmode
      cases hmode
  · rw [Quiet, hhold]
    exact ⟨nofun, nofun⟩
  · have hrecord : (giveWait .lead (dwellRound s)).fault .travelLimit = s.fault .travelLimit := hkept
    have hplace : columnPlace (giveWait .lead (dwellRound s)) = columnPlace s := by rw [heq]; rfl
    have htime : (giveWait .lead (dwellRound s)).timeBase = s.timeBase := by rw [heq]; rfl
    rw [hend.fault _ (by decide), fault_report_same]
    unfold recordAfter recordAfterAt State.active
    rw [hrecord, hplace, htime]
  · rw [hend.lastStop, lastStop_holdReport rfl, if_pos hmoving, heq]
    rfl

/-! ### At the end of the command -/

/-- A wait with its reason, and no offer (R102). -/
def Waits (w : WaitReason) (t : State) : Prop :=
  t.ceiling.outcome = .wait ∧ t.ceiling.reason = w ∧ t.spacing.offer = none

theorem Told.waits (k : Told .wait w s t) : Waits w t := ⟨k.outcome, k.reason, k.offer nofun⟩

theorem told_finish (k : Told o w s (settle settleRounds x)) : Told o w s (finish x) := by
  obtain ⟨busy, shown, hf⟩ := finish_eq_settled x
  rw [hf]
  exact k.congr rfl rfl rfl rfl

/-- The state at the end of the command that the expiry makes. -/
def dwellEnd (s : State) : State := finish (notify (dwellOver s))

theorem dwellEnd_eq (s : State) :
    (dwellEnd s).pawl = (settle settleRounds (notify (dwellOver s))).pawl ∧
      (dwellEnd s).ceiling = (settle settleRounds (notify (dwellOver s))).ceiling := by
  obtain ⟨busy, shown, hf⟩ := finish_eq_settled (notify (dwellOver s))
  have hf : dwellEnd s = _ := hf
  rw [hf]
  exact ⟨rfl, rfl⟩

/-- The first precondition that fails, unless the pawl is asked for (R91, R101). -/
theorem StagedAtRest.waits (k : StagedAtRest r h s) (ha : countsArrived s r h = false) (hask : ¬ Asks s)
    (hc : precondition s (classNow s) = w) (hw : w ≠ .none) : Waits w (dwellEnd s) := by
  have hskip : ¬ Skips s := fun ⟨hnow, hnone, _⟩ => hw (by rw [← hc, hnow, hnone])
  have htold := k.settle_verdict ha hask hskip
  rw [verdict_of_fails hc hw] at htold
  exact (told_finish htold).waits

/-- With the preconditions passed and no nudge to skip, the stroke chosen, or a wait for the lead ceiling (R92, R99). -/
theorem StagedAtRest.chooses (k : StagedAtRest r h s) (ha : countsArrived s r h = false)
    (hc : precondition s (classNow s) = .none) (hlen : classNow s = .nudge → nudgeLength s ≠ 0) :
    let v := orLead (strokeFor s r h (classNow s))
    DwellTold v.1 v.2 s (dwellEnd s) := by
  have hask : ¬ Asks s := fun ⟨hnow, hset, _⟩ => by
    have hpawl := pawl_of_precondition hc
    rw [hnow, hset] at hpawl
    cases hpawl
  have htold := k.settle_verdict ha hask fun hskip => hlen hskip.1 hskip.2.2
  rw [verdict_of_none hc] at htold
  exact told_finish htold

theorem StagedAtRest.asks (k : StagedAtRest r h s) (ha : countsArrived s r h = false) (hask : Asks s ∨ Skips s) :
    DwellTold .wait (askReason s) s (dwellEnd s) ∧ (dwellEnd s).ceiling.nudgeDue = false ∧
      (MotionSafe s → (dwellEnd s).pawl.state = .withdrawing ∧ (dwellEnd s).pawl.commanded = .withdrawn) := by
  obtain ⟨htold, hstate, hcommand, hnudge⟩ := k.settle_asks ha hask
  obtain ⟨hpawl, hceiling⟩ := dwellEnd_eq s
  refine ⟨told_finish htold, by rw [hceiling]; exact hnudge, fun hsafe => ?_⟩
  rw [hpawl]
  refine ⟨hstate, hcommand fun hdown => ?_⟩
  have hset := (pawl_of_asks_or_skips hask).1
  rw [hsafe.jogPawl hdown] at hset
  cases hset

theorem StagedAtRest.arrived (k : StagedAtRest r h s) (ha : countsArrived s r h = true) :
    DwellTold .arrived .none s (dwellEnd s) := told_finish (k.settle_arrived ha)

/-- Whatever it gives, the evaluation marks the lowering release and times its reason (R95, R191). -/
theorem StagedAtRest.told (k : StagedAtRest r h s) : ∃ o w, DwellTold o w s (dwellEnd s) := by
  cases ha : Machine.countsArrived s r h with
  | true => exact ⟨_, _, k.arrived ha⟩
  | false =>
    by_cases hask : Asks s ∨ Skips s
    · exact ⟨_, _, (k.asks ha hask).1⟩
    · obtain ⟨hask, hskip⟩ := not_or.mp hask
      exact ⟨_, _, told_finish (k.settle_verdict ha hask hskip)⟩

/-- A waiting arrival stays as it is, and counts as ARRIVED (R82, R90). -/
theorem dwellEnd_awaiting (k : StagedAtRest r h s) (ha : s.stage.awaitingSet = true)
    (hp : s.pawl.state ≠ .set) :
    (dwellEnd s).mode = .moving ∧ (dwellEnd s).stage = s.stage ∧ (dwellEnd s).pawl = s.pawl ∧
      (dwellEnd s).ceiling.outcome = .arrived ∧ (dwellEnd s).ceiling.reason = .none ∧
      (dwellEnd s).spacing.offer = none := by
  have hmoving : StaysMoving (notify (dwellOver s)) := { k.moving with }
  have hkept := evaluates_finish hmoving
  have htold := k.arrived (by unfold countsArrived; rw [ha]; rfl)
  exact ⟨hkept.shareRead.mode.trans hmoving.mode, hkept.stage, hkept.pawl hp, htold.outcome, htold.reason,
    htold.offer nofun⟩

/-- With room left, a station taking up is given the verdict on its contact stroke (R100). -/
theorem dwellEnd_takeUp (k : StaysMoving s) (hrest : s.engine.stroke = .rest) (hr : s.stage.record = .unstaged)
    (hroom : s.engine.travel < 240000) :
    let v := verdict s .contact (some (contactStroke s))
    Told v.1 v.2 s (dwellEnd s) := told_finish (settle_takeUp k hrest hr hroom)

theorem dwellEnd_limit (hm : s.mode = .moving) (ha : s.stage.awaitingSet = false) (hrest : s.engine.stroke = .rest)
    (hr : s.stage.record = .unstaged) (htop : 240000 ≤ s.engine.travel) :
    (dwellEnd s).mode = .hold ∧ CeilingIdle (dwellEnd s) ∧
      (dwellEnd s).fault .travelLimit = recordAfter s .travelLimit (s.active .travelLimit) none ∧
      (dwellEnd s).modeCtl.lastStop =
        some ⟨.hold, .fault, some .travelLimit, none, ⟨s.timeBase, false⟩⟩ := by
  have hlimit := settle_limit hm ha hrest hr htop
  obtain ⟨busy, shown, hf⟩ := finish_eq_settled (notify (dwellOver s))
  have hf : dwellEnd s = _ := hf
  rw [hf]
  exact hlimit

/-! ### The class that is evaluated, and its stroke (R90 to R92, R97) -/

theorem countsArrived_iff (ha : s.stage.awaitingSet = false) (hd : s.stage.dir ≠ .none) (r : StagedRec) (h : Int) :
    countsArrived s r h = true ↔ distance s r h ≤ s.cfg.a := by
  unfold countsArrived
  rw [ha, beq_eq_false_iff_ne.mpr hd, Bool.false_or, Bool.false_or, decide_eq_true_eq]

theorem classNow_eq_nudge : classNow s = .nudge ↔ s.stage.dir = .lower ∧ s.ceiling.nudgeDue = true := by
  unfold classNow
  by_cases hd : s.stage.dir = .lower
  · rw [if_pos hd]
    cases s.ceiling.nudgeDue <;> simp [hd]
  · rw [if_neg hd]
    exact ⟨nofun, fun hn => absurd hn.1 hd⟩

theorem classDir_eq_lower : classDir c = .lower ↔ c = .lowering := by
  cases c <;> simp [classDir]

theorem classPawl_eq (c : StrokeClass) : classPawl c = if classDir c = .lower then .withdrawn else .set := by
  cases c <;> rfl

theorem classDir_classNow (s : State) :
    classDir (classNow s) =
      if s.stage.dir == .lower && !(s.stage.dir == .lower && s.ceiling.nudgeDue) then .lower else .raise := by
  unfold classNow
  by_cases hd : s.stage.dir = .lower
  · rw [if_pos hd, hd]
    cases s.ceiling.nudgeDue <;> rfl
  · rw [if_neg hd, beq_eq_false_iff_ne.mpr hd]
    rfl

/-- The room to the lead ceiling or the floor (R92). -/
def room (s : State) (r : StagedRec) (h : Int) : Int :=
  if s.stage.dir = .lower then h - leadFloor s r else leadCeiling s r - h

/-- Raising and lowering choose alike, by distance and room (R92). -/
theorem strokeFor_toward (hc : classNow s ≠ .nudge) (r : StagedRec) (h : Int) :
    strokeFor s r h (classNow s) =
      chooseStroke s r h (distance s r h) (room s r h) (classDir (classNow s)) := by
  unfold classNow at hc ⊢
  unfold room
  by_cases hd : s.stage.dir = .lower
  · simp only [if_pos hd] at hc ⊢
    cases hn : s.ceiling.nudgeDue with
    | true => rw [hn] at hc; exact absurd rfl hc
    | false => rfl
  · simp only [if_neg hd]
    rfl

theorem strokeFor_nudge (hc : classNow s = .nudge) (r : StagedRec) (h : Int) :
    strokeFor s r h (classNow s) =
      if nudgeFits s (h + nudgeLength s) = true then some (nudgeStroke s r h) else none := by
  rw [hc]
  rfl

section
variable {d g : Int} {dir : Direction}

theorem chooseStroke_tail (hd : d ≤ s.cfg.l) (hg : d ≤ g) :
    chooseStroke s r h d g dir = some (towardTarget s r h .tail dir d.toNat) := if_pos ⟨hd, hg⟩

theorem chooseStroke_full (hno : ¬ (d ≤ s.cfg.l ∧ d ≤ g)) (hg : (s.cfg.l : Int) ≤ g) :
    chooseStroke s r h d g dir = some (towardTarget s r h .full dir s.cfg.l) :=
  (if_neg hno).trans (if_pos hg)

theorem chooseStroke_chop (hno : ¬ (d ≤ s.cfg.l ∧ d ≤ g)) (hl : g < s.cfg.l) (hg : (s.settings.chop : Int) ≤ g) :
    chooseStroke s r h d g dir = some (towardTarget s r h .chop dir s.settings.chop) :=
  (if_neg hno).trans ((if_neg (Int.not_le.mpr hl)).trans (if_pos hg))

theorem chooseStroke_lead (hno : ¬ (d ≤ s.cfg.l ∧ d ≤ g)) (hl : g < s.cfg.l) (hg : g < s.settings.chop) :
    chooseStroke s r h d g dir = none :=
  (if_neg hno).trans ((if_neg (Int.not_le.mpr hl)).trans (if_neg (Int.not_le.mpr hg)))

end

/-- With the preconditions of raising or lowering passed, the stroke is chosen by distance and room (R92). -/
theorem StagedAtRest.toward (k : StagedAtRest r h s) (ha : countsArrived s r h = false)
    (hc : precondition s (classNow s) = .none) (hother : classNow s ≠ .nudge) :
    let d := distance s r h
    let g := room s r h
    let told : StrokeKind → Nat → Prop := fun kind n =>
      DwellTold (.offer (towardTarget s r h kind (classDir (classNow s)) n)) .spacing s (dwellEnd s)
    (d ≤ s.cfg.l → d ≤ g → told .tail d.toNat) ∧
      (¬ (d ≤ s.cfg.l ∧ d ≤ g) → (s.cfg.l : Int) ≤ g → told .full s.cfg.l) ∧
      (¬ (d ≤ s.cfg.l ∧ d ≤ g) → g < s.cfg.l → (s.settings.chop : Int) ≤ g → told .chop s.settings.chop) ∧
      (¬ (d ≤ s.cfg.l ∧ d ≤ g) → g < s.cfg.l → g < s.settings.chop → Waits .lead (dwellEnd s)) := by
  have htold := k.chooses ha hc fun hn => absurd hn hother
  rw [strokeFor_toward hother] at htold
  refine ⟨fun hdl hdg => ?_, fun hno hle => ?_, fun hno hll hle => ?_, fun hno hll hle => ?_⟩
  · rw [chooseStroke_tail hdl hdg] at htold
    exact htold
  · rw [chooseStroke_full hno hle] at htold
    exact htold
  · rw [chooseStroke_chop hno hll hle] at htold
    exact htold
  · rw [chooseStroke_lead hno hll hle] at htold
    exact htold.waits

/-- With the preconditions of a nudge passed, the nudge is offered that has room (R99). -/
theorem StagedAtRest.nudges (k : StagedAtRest r h s) (ha : countsArrived s r h = false)
    (hc : precondition s (classNow s) = .none) (hn : classNow s = .nudge) (hlen : 0 < nudgeLength s) :
    (nudgeFits s (h + nudgeLength s) = true →
        DwellTold (.offer { towardTarget s r h .nudge (classDir (classNow s)) (nudgeLength s) with final := false })
          .spacing s (dwellEnd s)) ∧
      (nudgeFits s (h + nudgeLength s) = false → Waits .lead (dwellEnd s)) := by
  have htold := k.chooses ha hc fun _ => Nat.ne_of_gt hlen
  rw [strokeFor_nudge hn] at htold
  refine ⟨fun hfits => ?_, fun hfits => ?_⟩
  · rw [if_pos hfits] at htold
    rw [hn]
    exact htold
  · rw [if_neg (Bool.eq_false_iff.mp hfits)] at htold
    exact htold.waits

end Sys2Proof.Machine

open Sys2Proof Sys2Proof.Machine in
/-- Settles O50: one round of notices gives the verdict of the station's class, two where the pawl is asked for. -/
theorem evaluationAtDwell : Obligations.EvaluationAtDwell := by
  intro s hdue s'
  have hexec : exec .reversalDwellExpiry s = .next (dwellEnd s) := if_pos hdue
  refine ⟨dwellEnd s, hexec, outer_finish _, fun hq => finish_quiet (s := notify (dwellOver s)) hq, ?_, ?_, ?_⟩
  · intro r h hm hrest ha hband hrec hl hdir lowers d g nudge len dir released peers pawl asks dwell offers waits
    have hk : StagedAtRest r h s :=
      ⟨⟨hm, inBand_shareOf hband, by rw [ha]; exact nofun, .inl (by rw [(stagedRec_eq_some s r).mpr hrec]; rfl)⟩,
        hrest, (stagedRec_eq_some s r).mpr hrec, hl⟩
    have hd : distance s r h = d := by
      show (if s.stage.dir = .lower then _ else _) = if (s.stage.dir == .lower) = true then _ else _
      simp only [beq_iff_eq]
    have hg : room s r h = g := by
      show (if s.stage.dir = .lower then _ else _) = if (s.stage.dir == .lower) = true then _ else _
      simp only [beq_iff_eq]
    have hdirc : classDir (classNow s) = dir := classDir_classNow s
    have hnow : classNow s = .nudge ↔ nudge = true := by
      rw [classNow_eq_nudge]
      show _ ↔ (s.stage.dir == .lower && s.ceiling.nudgeDue) = true
      rw [Bool.and_eq_true, beq_iff_eq]
    have hpeers : peersPass s (classNow s) = true ↔ peers := by
      rw [peersPass_iff_groupReady, ← classDir_eq_lower, hdirc, ← Bool.or_eq_true]
      simp only [GroupReady, and_assoc]
      rfl
    have hpawl : s.pawl.state = classPawl (classNow s) ↔ pawl := by rw [classPawl_eq, hdirc]
    have hdwell : dwellPass s (classNow s) = true ↔ dwell := by rw [dwellPass_iff, hdirc]
    have hasks : Asks s ↔ asks := by
      unfold Asks
      rw [← classDir_eq_lower, hdirc]
      rfl
    have hfar : (s.cfg.a : Int) < d → countsArrived s r h = false := fun hlt =>
      Bool.eq_false_iff.mpr fun hc => by
        have := (countsArrived_iff ha hdir r h).mp hc
        omega
    have hnone : peers → pawl → dwell → precondition s (classNow s) = .none := fun hp hw hy =>
      precondition_none (hpeers.mpr hp) (hpawl.mpr hw) (hdwell.mpr hy)
    have hnoAsk : pawl → ¬ Asks s := fun hw hq => by
      have hset := hpawl.mpr hw
      rw [hq.1, hq.2.1] at hset
      cases hset
    obtain ⟨o, w, htold⟩ := hk.told
    refine ⟨fun hle => ?_, htold.release, htold.timed.of_view rfl, ?_, ?_, ?_, ?_, ?_, ?_, ?_⟩
    · have htold := hk.arrived ((countsArrived_iff ha hdir r h).mpr (hd ▸ hle))
      exact ⟨htold.outcome, htold.reason⟩
    · intro hlt hq hsafe
      obtain ⟨htold, -, hpawl⟩ := hk.asks (hfar hlt) (.inl (hasks.mpr hq))
      exact ⟨(hpawl hsafe).1, (hpawl hsafe).2, htold.waits⟩
    · intro hlt hq hp
      exact hk.waits (hfar hlt) (mt hasks.mp hq) (precondition_peers (Bool.eq_false_iff.mpr (mt hpeers.mp hp))) nofun
    · intro hlt hq hp hw
      exact hk.waits (hfar hlt) (mt hasks.mp hq) (precondition_pawl (hpeers.mpr hp) (mt hpawl.mp hw)) nofun
    · intro hlt hp hw hy
      exact hk.waits (hfar hlt) (hnoAsk hw)
        (precondition_dwell (hpeers.mpr hp) (hpawl.mpr hw) (mt hdwell.mp hy)) nofun
    · intro hlt hp hw hy hn
      have hother : classNow s ≠ .nudge := fun hc => by rw [hnow.mp hc] at hn; cases hn
      have htoward := hk.toward (hfar hlt) (hnone hp hw hy) hother
      rw [hd, hg, hdirc] at htoward
      obtain ⟨htail, hfull, hchop, hlead⟩ := htoward
      exact ⟨fun hdl hdg => ⟨(htail hdl hdg).reason, (htail hdl hdg).outcome⟩,
        fun hno hle => ⟨(hfull hno hle).reason, (hfull hno hle).outcome⟩,
        fun hno hll hle => ⟨(hchop hno hll hle).reason, (hchop hno hll hle).outcome⟩, hlead⟩
    · intro hlt hp hw hy hn hlen
      have hnudges := hk.nudges (hfar hlt) (hnone hp hw hy) (hnow.mpr hn) hlen
      rw [hdirc] at hnudges
      exact ⟨fun hfits => ⟨(hnudges.1 hfits).reason, (hnudges.1 hfits).outcome⟩, hnudges.2⟩
    · intro hlt hp hw hy hn hlen hsafe
      have hc := hnow.mpr hn
      have hskip : Skips s := ⟨hc, by rw [← hc]; exact hnone hp hw hy, hlen⟩
      obtain ⟨htold, hnudge, hpawl⟩ := hk.asks (hfar hlt) (.inr hskip)
      exact ⟨hnudge, (hpawl hsafe).1, (hpawl hsafe).2, htold.waits⟩
  · intro r hm hrest ha hp hband hrec
    have hstaged := (stagedRec_eq_some s r).mpr hrec
    exact dwellEnd_awaiting ⟨⟨hm, inBand_shareOf hband, fun _ => hp, .inl (by rw [hstaged]; rfl)⟩, hrest, hstaged,
      lift_of_staged hrec⟩ ha hp
  · intro hm hrest ha hrec x peers dwell waits
    refine ⟨fun htop => ?_, fun hroom => ?_⟩
    · obtain ⟨hmode, ⟨houtcome, hoffer⟩, hfault, hstop⟩ := dwellEnd_limit hm ha hrest hrec htop
      exact ⟨hmode, houtcome, hoffer, hfault, hstop⟩
    · have hmoving : StaysMoving s := ⟨hm, (takingUp hrec).1, by rw [ha]; exact nofun, .inr hroom⟩
      have htold := dwellEnd_takeUp hmoving hrest hrec hroom
      have hpeers : peersPass s .contact = true ↔ peers := by
        rw [peersPass_iff_groupReady]
        exact ⟨fun hp => hp.1, fun hp => ⟨hp, nofun⟩⟩
      have hwaits : ∀ why, precondition s .contact = why → why ≠ .none → waits why := fun why hc hw => by
        rw [verdict_of_fails hc hw] at htold
        exact htold.waits
      refine ⟨htold.timed, fun hno => ?_, fun hp hset => ?_, fun hp hset hno => ?_, fun hp hset hyes => ?_⟩
      · exact hwaits .peers (precondition_peers (Bool.eq_false_iff.mpr (mt hpeers.mp hno))) nofun
      · exact hwaits .pawl (precondition_pawl (hpeers.mpr hp) hset) nofun
      · exact hwaits .dwell (precondition_dwell (hpeers.mpr hp) hset (mt (dwellPass_iff s .contact).mp hno)) nofun
      · rw [verdict_of_none (precondition_none (hpeers.mpr hp) hset ((dwellPass_iff s .contact).mpr hyes))] at htold
        exact ⟨htold.reason, htold.outcome⟩
